-- ==== Sys2Proof/Word.lean ====
section
/-!
DEFINITION. Word.lean: the word types of the module (R8: registers of 64 bits; R7: bit 0 is the least
significant bit, multi-byte values little-endian) and their plainest arithmetic.
-/

namespace Sys2Proof

/-- One byte of memory. -/
abbrev Byte := BitVec 8

/-- A register value (R8). -/
abbrev Word64 := BitVec 64

/-- A tile scalar register or one instruction word (R128). -/
abbrev Word32 := BitVec 32

end Sys2Proof
end

