-- ==== Sys2Proof/Config.lean ====
section
/-!
DEFINITION. Config.lean: what is fixed for one module (the assembly, R3 to R5) and the free values: the
constants without a body that stand for what the spec leaves open.
-/

namespace Sys2Proof

/-- The three assemblies of R3. -/
inductive Assembly | a08 | b10 | x12
deriving DecidableEq, Repr

/-- KST_ASSY_INFO.ASSY_CODE (R5). -/
def Assembly.code : Assembly → Nat
  | .a08 => 1
  | .b10 => 2
  | .x12 => 3

/-- Populated HBM stacks (R3, R5). -/
def Assembly.stacks : Assembly → Nat
  | .a08 => 8
  | .b10 => 10
  | .x12 => 12

/-- Pier dies (R3, R5). -/
def Assembly.piers : Assembly → Nat
  | .a08 => 2
  | .b10 => 3
  | .x12 => 4

/-- Free 64-bit values: the argument is the free-value counter of the state (assumption 2). -/
opaque Config.freeValue : Nat → BitVec 64

/-- Free 32-bit values of operands the spec gives no result for. -/
opaque Config.freeWord : Nat → BitVec 32

/-- A free choice: yes or no. -/
opaque Config.freeBit : Nat → Bool

/-- A free choice below a bound is taken as this value modulo the bound. -/
opaque Config.freePick : Nat → Nat

/-- The hash of a line address that chooses its directory set (R269), before it is taken modulo the sets. -/
opaque Config.dirSet : Nat → Nat

/-- The hash of a line address that chooses its Span-cache set (R280), before it is taken modulo the sets. -/
opaque Config.cacheSet : Nat → Nat

/-- The HBM row that holds a sector: "the choice of bank and row is internal to the controller" (R301). -/
opaque Config.hbmRow : Nat → Nat

/-- The hash of a line address or register address that chooses its bucket among the links of a bundle or toward a module
(R392, R404), before it is taken modulo 16. -/
opaque Config.bucketHash : Nat → Nat

/-- The bucket of a Lattice index row, before it is taken modulo 16: its line address at the target is not known to the
sender (R404), by target, entry number and local row. -/
opaque Config.rowHash : Nat → Nat

/-- How SVC_CNT_OFFSET writes a rate difference, from the change in offset and the interval (R24): the spec gives no
number format for it. -/
opaque Config.driftFormat : Int → Nat → BitVec 64

/-- The version of the mask boot ROM (R473), which the spec does not give. -/
opaque Config.romVersion : Nat

end Sys2Proof
end

