-- ==== Sys2Proof/Syntax.lean ====
section
/-!
DEFINITION. Syntax.lean: the commands the module takes, one constructor of `Instr` per row of
spec/opcode_table.json, with their operands, and the field layouts of the Oplys instructions (R153, R163,
R164, R178 to R198) that the tile rows carry. The table gives no row any bits.
-/

namespace Sys2Proof

/-- Layout S, scalar and control (R153), without opcode and W2. -/
structure InsS where
  pred : BitVec 3
  i : BitVec 1
  rd : BitVec 5
  rs1 : BitVec 5
  rs2 : BitVec 5
  func : BitVec 4
  imm : BitVec 32
deriving DecidableEq, Repr

/-- Layout V, vector (R153), without opcode, W2 and the reserved bits. -/
structure InsV where
  pred : BitVec 3
  pz : BitVec 1
  vd : BitVec 4
  vs1 : BitVec 4
  vs2 : BitVec 4
  vs3 : BitVec 4
  fmt : BitVec 4
  fmt2 : BitVec 4
  ss : BitVec 5
  bs : BitVec 1
  pd : BitVec 3
  func : BitVec 4
  imm : BitVec 12
deriving DecidableEq, Repr

/-- Fields of MMA (R163). -/
structure InsMma where
  shape : BitVec 2
  bank : BitVec 1
  zero : BitVec 1
  fa : BitVec 4
  fb : BitVec 4
  sa : BitVec 5
  sb : BitVec 5
  m1 : BitVec 7
  n1 : BitVec 11
  k1 : BitVec 15
deriving DecidableEq, Repr

/-- Fields of DRAIN (R164). -/
structure InsDrain where
  bank : BitVec 1
  dslot : BitVec 4
  amax : BitVec 4
  sd : BitVec 5
  row0 : BitVec 7
  rows1 : BitVec 7
  col0 : BitVec 11
  cols1 : BitVec 11
deriving DecidableEq, Repr

/-- Fields of MOV (R180). -/
structure InsMov where
  pred : BitVec 3
  ss : BitVec 5
  sd : BitVec 5
  sl : BitVec 5
  ssp : BitVec 1
  dsp : BitVec 1
  strm : BitVec 4
  hint : BitVec 2
  rows1 : BitVec 12
  sstride : BitVec 24
  dstride : BitVec 24
deriving DecidableEq, Repr

/-- Fields of FENCE (R187). -/
structure InsFence where
  pred : BitVec 3
  rd : BitVec 5
  scope : BitVec 2
  type : BitVec 2
  smask : BitVec 16
deriving DecidableEq, Repr

/-- Fields of LDR and STC (R189). -/
structure InsRsv where
  pred : BitVec 3
  rd : BitVec 5
  ra : BitVec 5
  size : BitVec 2
  sx : BitVec 1
  rb : BitVec 5
  imm : BitVec 12
deriving DecidableEq, Repr

/-- Layout T, Stay instructions (R198). -/
structure InsStay where
  pred : BitVec 3
  rd : BitVec 5
  rc : BitVec 5
  rv : BitVec 5
  pri : BitVec 2
  fs : BitVec 3
deriving DecidableEq, Repr


/-- What the outside answers to the accesses of one command: bytes that are not zero, by host physical address
or by the global pointer (R37) of a peer's byte; the lines answered as poisoned, by the address of their first
byte; and the status of an access the outside refuses or does not answer (R14; 0 = none). -/
structure Ext where
  bytes : List (Nat × BitVec 8)
  poison : List Nat
  status : Nat
deriving DecidableEq, Repr

/-- A counter operation that reaches its home (R207): of the Stay instruction of a tile with a sequence tag, or of
module m under its waiter number, in a class, with an operation code (0xD1 to 0xD6, or 0xD8 for a withdrawal). -/
inductive StayReq
  | tile (t tag : Nat)
  | remote (m id cls op home idx val : Nat)
deriving DecidableEq, Repr

/-- A probe of R200: sent for a tile's wait, received for a wait registered here, or answered from the home. -/
inductive StayProbe
  | send (t tag : Nat)
  | recv (m id cls home idx : Nat)
  | answer (t tag : Nat)
deriving DecidableEq, Repr


/-- A row message of the index kinds (R229), with the identifier its initiator gave it: a row or a request arriving
from module m, or the answer to an entry of queue q. `drop`: the target dropped it (R230). -/
inductive LatRow
  | scatter (m coll buf row id : Nat) (data : List (BitVec 8)) (poison : Bool)
  | request (m coll buf row id n : Nat)
  | done (q entry status : Nat) (drop : Bool)
  | answer (q entry status : Nat) (drop : Bool) (data : List (BitVec 8)) (poison : Bool)
deriving DecidableEq, Repr


/-- What the partner of a Claden-X link sends in CAPNEG (R400): version, window, features, ACT_ID, ACT_VALID and link. -/
structure ClxPeer where
  ver : BitVec 8
  lo : BitVec 8
  hi : BitVec 8
  feat : BitVec 16
  mod : BitVec 15
  valid : Bool
  link : BitVec 5
deriving DecidableEq, Repr


/-- What a core's access does (R39): a load or store, an LR or SC (R245), or an atomic operation of the RISC-V A
extension by its index in the order swap, add, xor, and, or, min, max, minu, maxu. -/
inductive CoreOp
  | load
  | store
  | lr
  | sc
  | amo (k : Nat)
deriving DecidableEq, Repr


/-- A request of the host (R59, R61): at a host physical address, or at an offset of BAR 2 in CXL mode. -/
inductive HostReq
  | read (bar2 : Bool) (a n : Nat)
  | write (bar2 : Bool) (a : Nat) (data : List (BitVec 8)) (poison : Bool)
deriving DecidableEq, Repr


/-- An inbound access of a peer (R40): a read of bytes, or a write of the masked bytes of a line. -/
inductive PeerAcc
  | read (a n : Nat)
  | write (a : Nat) (data : BitVec 1024) (mask : BitVec 128) (pz : BitVec 4)
deriving DecidableEq, Repr


/-- What the header of one image of a set says (R471), and whether its key, signature, payload hash and reserved bytes
pass (R472; the key slot's revocation is checked here). `compat`: kind, REQUIRED, VMIN and VMAX. -/
structure ImgHdr where
  kind : Nat
  svn : Nat
  version : Nat
  stepMin : Nat
  stepMax : Nat
  layMin : Nat
  layMax : Nat
  keyslot : Nat
  revoke : Nat
  auth : Bool
  compat : List (Nat × Bool × Nat × Nat)
deriving DecidableEq, Repr

/-- The commands, one per row of the opcode table. -/
inductive Instr
  /-- REGISTER_WRITE (R9): A write to a register that has no row of its own, with its size, alignment, type and discard checks. -/
  | registerWrite (who id a n : Nat) (d : BitVec 64) (ext : Ext)
  /-- COLD_RESET (R13): Module power is removed and restored, returning every field to its reset value before Cast-on. -/
  | coldReset
  /-- MODULE_RESET (R491): A low pulse of MOD_RESET_N of 2 us or more resets the module and runs Cast-on. -/
  | moduleReset (ns : Nat) (held strap : Bool)
  /-- MOD_RESET_RELEASE (R489): Release of MOD_RESET_N after PWR_GOOD starts Cast-on and samples the recovery strap. -/
  | modResetRelease (strap : Bool)
  /-- PWR_EN_RISE (R489): PWR_EN rises and the intermediate bus converter soft-starts the rails. -/
  | pwrEnRise
  /-- PWR_GOOD_RISE (R489): Every rail reaches regulation and PWR_GOOD rises. -/
  | pwrGoodRise
  /-- PWR_EN_FALL (R490): PWR_EN falls and power is removed within 2 ms, with or without a prior Cast-off. -/
  | pwrEnFall
  /-- VIN_OUT_OF_RANGE (R488): Input voltage leaves the operating range, asserting VR_ALERT_N or turning the converter off. -/
  | vinOutOfRange (dv : Nat) (held : Bool)
  /-- CONVERTER_RESTART (R488): After the input stays in range for 100 ms with PWR_EN high the converter restarts. -/
  | converterRestart
  /-- BOARD_SENSOR_READ (R500): KMH1 reads the coolant thermistors and input voltage into KST_BOARD_STAT. -/
  | boardSensorRead (vin : Option Nat) (coolant : Option (Nat × Nat))
  /-- SVC_MOD_INFO (R5): Service call returning the assembly identification fields of KST_ASSY_INFO. -/
  | svcModInfo (m : Nat)
  /-- SVC_CNT_OFFSET (R24): Service call estimating offset, error and drift of a peer module's FC counter through a Stay probe. -/
  | svcCntOffset (m dest rt remote : Nat)
  /-- SVC_PWR_MODE (R27): Service call selecting FULL, FIXED or LEAN power mode. -/
  | svcPwrMode (m : Nat) (v : Nat)
  /-- SVC_INTEGRITY_MODE (R27): Service call selecting GATED or OPTIMISTIC integrity for a context. -/
  | svcIntegrityMode (m : Nat) (c v : Nat)
  /-- SVC_ACT_PROTECT (R27): Service call selecting DETECT or CORRECT activation protection for a context. -/
  | svcActProtect (m : Nat) (c v : Nat)
  /-- SVC_ORDER_MODE (R27): Service call selecting RELAXED or ORDERED ordering for a context. -/
  | svcOrderMode (m : Nat) (c v : Nat)
  /-- POWER_MODE_WRITE (R27): A write of KST_PWR_MODE.MODE requests a mode change, setting PENDING until Tension takes it. -/
  | powerModeWrite (w : BitVec 64)
  /-- CTX_MODE_WRITE (R27): A write of CTX_MODE changes integrity, protection or ordering mode for later epochs, pages or dispatches. -/
  | ctxModeWrite (c : Nat) (w : BitVec 64)
  /-- POLICY_TAKEOVER (R29): Software writes 1 to an OWN bit of KST_POLICY_OWN to take a policy from firmware. -/
  | policyTakeover (w : BitVec 64)
  /-- POLICY_HANDBACK (R29): Software writes 0 to an OWN bit to hand a policy back to firmware. -/
  | policyHandback (w : BitVec 64)
  /-- POLICY_ACK_CHANGE (R29): Firmware finishes its step and sets or clears the ACK bit of a policy. -/
  | policyAckChange (n : Nat)
  /-- POLICY_ACK_TIMEOUT (R29): An ACK bit that does not change within 1 ms causes an INTERNAL record. -/
  | policyAckTimeout (n : Nat)
  /-- ATTR_INVAL (R55): A write of GO to ATTR_INVAL starts invalidation of cached Placement Table translations. -/
  | attrInval (w : BitVec 64)
  /-- ATTR_INVAL_DONE (R55): The translation invalidation completes and BUSY clears. -/
  | attrInvalDone
  /-- SVC_MEM_ALLOC (R332): Service call that admits and allocates an object of unified pages and places each page. -/
  | svcMemAlloc (m c kind pol n : Nat) (attr : BitVec 16) (rep : BitVec 64)
  /-- SVC_MEM_FREE (R326): Service call freeing an object's pages and clearing its descriptor. -/
  | svcMemFree (m id : Nat)
  /-- SVC_PAGE_ATTR (R55): Service call changing page attributes and invalidating their translations. -/
  | svcPageAttr (m page : Nat) (attr : BitVec 16)
  /-- SVC_PAGE_SET_CLASS (R50): Service call re-encoding a resident page in place under a new protection class. -/
  | svcPageSetClass (m page : Nat) (cls : Bool)
  /-- SVC_RAW_HBM_ATTR (R57): Service call setting the raw HBM window type and BAR exposure. -/
  | svcRawHbmAttr (m : Nat) (rtype bar : Nat)
  /-- SVC_RAW_HOST_WIN (R58): Service call configuring the raw host window. -/
  | svcRawHostWin (m : Nat) (en base : Nat)
  /-- SVC_MOD_ID (R41): Service call setting the module ID to apply at the next module reset. -/
  | svcModId (m : Nat) (id valid : Nat)
  /-- SVC_COPY (R39): Service call copying data to or from a peer on behalf of a core. -/
  | svcCopy (m : Nat) (dst src : BitVec 64) (n : Nat) (ext : Ext)
  /-- CORE_LOAD_STORE (R39): A Keystone core load or store to a local physical address, checked and performed or faulted. -/
  | coreLoadStore (c : Nat) (op : CoreOp) (a n : Nat) (d : BitVec 64) (ext : Ext)
  /-- HOST_MEM_REQUEST (R59): A host memory request arriving through Claden-C at HWIN plus a local address. -/
  | hostMemRequest (r : HostReq) (ext : Ext)
  /-- PCIE_MEM_READ (R358): A third device reads through BAR 0 and receives a completion or an error. -/
  | pcieMemRead (pier a n : Nat) (ext : Ext)
  /-- PCIE_MEM_WRITE (R358): A third device writes through BAR 0, performed as a non-allocating write or dropped. -/
  | pcieMemWrite (pier a : Nat) (data : List (BitVec 8)) (poison : Bool) (ext : Ext)
  /-- PEER_MEM_ACCESS (R40): An inbound Claden-X memory access from a peer, checked and performed at the target. -/
  | peerMemAccess (dest m : Nat) (x : PeerAcc) (ext : Ext)
  /-- MOVING_HOLD_TIMEOUT (R321): A page left MOVING by software for over 1 ms releases its held accesses as undecoded. -/
  | movingHoldTimeout (page : Nat)
  /-- PAGE_MOVE_DONE (R324): The copy ends and the engine writes the new location and releases held accesses. -/
  | pageMoveDone (page : Nat) (ext : Ext)
  /-- PAGE_MOVE_ABANDON (R324): A move not finished 20 us after it began is abandoned and the old location stands. -/
  | pageMoveAbandon (page : Nat)
  /-- FMT_DESC_WRITE (R511): A write of an FMT_DESC entry, judged as a whole for slot 15 and applied or discarded. -/
  | fmtDescWrite (t n : Nat) (w : BitVec 64)
  /-- SR_SEED_WRITE (R83): A write of TILE_SR_SEED loads the generator state and discards unused draws. -/
  | srSeedWrite (t : Nat) (w : BitVec 64)
  /-- AMAX_ROLL (R101): A write of ROLL to TILE_AMAX sets the next scale from the gathered maximum and clears it. -/
  | amaxRoll (t n : Nat) (w : BitVec 64)
  /-- SVC_FMT_DESC (R103): Service call setting overflow mode, rounding and block size of a slot. -/
  | svcFmtDesc (m : Nat) (ts : List Nat) (n : Nat) (w : BitVec 64)
  /-- SVC_FMT_USER (R103): Service call defining the user format of slot 15. -/
  | svcFmtUser (m : Nat) (ts : List Nat) (w : BitVec 64)
  /-- SVC_SR_SEED (R103): Service call seeding stochastic rounding. -/
  | svcSrSeed (m : Nat) (ts : List Nat) (w : BitVec 64)
  /-- SVC_FMT_FLAGS (R103): Service call reading and clearing format flags. -/
  | svcFmtFlags (m : Nat) (ts : List Nat) (clr : BitVec 64)
  /-- SVC_FMT_REPORT (R103): Service call choosing which flags report FORMAT_RANGE. -/
  | svcFmtReport (m : Nat) (ts : List Nat) (w : BitVec 64)
  /-- SVC_AMAX (R103): Service call reading maxima, setting scales and selecting auto-scale. -/
  | svcAmax (m : Nat) (ts : List Nat) (n : Nat) (set : Bool) (w : BitVec 64)
  /-- NOP (R153): Scalar instruction with no effect. -/
  | nop (t : Nat) (f : InsS)
  /-- END (R157): End of program: waits for all streams, verdicts and drains, then the tile becomes IDLE. -/
  | end_ (t : Nat) (f : InsS)
  /-- ADD (R154): Scalar add modulo 2^64. -/
  | add (t : Nat) (f : InsS)
  /-- SUB (R154): Scalar subtract modulo 2^64. -/
  | sub (t : Nat) (f : InsS)
  /-- AND (R154): Scalar bitwise and. -/
  | and_ (t : Nat) (f : InsS)
  /-- OR (R154): Scalar bitwise or. -/
  | or_ (t : Nat) (f : InsS)
  /-- XOR (R154): Scalar bitwise xor. -/
  | xor_ (t : Nat) (f : InsS)
  /-- SLL (R154): Scalar shift left logical. -/
  | sll (t : Nat) (f : InsS)
  /-- SRL (R154): Scalar shift right with zero fill. -/
  | srl (t : Nat) (f : InsS)
  /-- SRA (R154): Scalar shift right with sign fill. -/
  | sra (t : Nat) (f : InsS)
  /-- MUL (R154): Scalar multiply, low 64 bits. -/
  | mul (t : Nat) (f : InsS)
  /-- SLT (R154): Scalar signed set-less-than. -/
  | slt (t : Nat) (f : InsS)
  /-- SLTU (R154): Scalar unsigned set-less-than. -/
  | sltu (t : Nat) (f : InsS)
  /-- MIN (R154): Scalar signed minimum. -/
  | min_ (t : Nat) (f : InsS)
  /-- MAX (R154): Scalar signed maximum. -/
  | max_ (t : Nat) (f : InsS)
  /-- LI (R153): Load a 64-bit immediate from the second word. -/
  | li (t : Nat) (f : InsS) (v : BitVec 64)
  /-- LD (R155): Scalar load from tile memory or through a pointer. -/
  | ld (t : Nat) (f : InsS)
  /-- ST (R155): Scalar store to tile memory or through a pointer. -/
  | st (t : Nat) (f : InsS) (ext : Ext)
  /-- LOAD_DATA_RETURN (R155): Data of a pointer load returns and is written to its destination register, or the load faults. -/
  | loadDataReturn (t : Nat) (tag : Nat) (ext : Ext)
  /-- BR (R156): Conditional branch comparing two scalar registers. -/
  | br (t : Nat) (f : InsS)
  /-- JAL (R156): Jump and link relative to pc. -/
  | jal (t : Nat) (f : InsS)
  /-- JALR (R156): Jump and link to a register plus immediate. -/
  | jalr (t : Nat) (f : InsS)
  /-- TCR (R159): Read a tile-control register into a scalar register. -/
  | tcr (t : Nat) (f : InsS)
  /-- TCW (R159): Write a tile-control register from a scalar register. -/
  | tcw (t : Nat) (f : InsS)
  /-- TILE_FAULTED (R137): Once every stream has stopped after an exception the tile enters FAULTED and interrupts KMH3. -/
  | tileFaulted (t : Nat)
  /-- VADD (R167): Vector element-wise add. -/
  | vadd (t : Nat) (f : InsV)
  /-- VSUB (R167): Vector element-wise subtract. -/
  | vsub (t : Nat) (f : InsV)
  /-- VMUL (R167): Vector element-wise multiply. -/
  | vmul (t : Nat) (f : InsV)
  /-- VFMA (R167): Vector fused multiply-add rounded once. -/
  | vfma (t : Nat) (f : InsV)
  /-- VMIN (R167): Vector element-wise minimumNumber or signed minimum. -/
  | vmin (t : Nat) (f : InsV)
  /-- VMAX (R167): Vector element-wise maximumNumber or signed maximum. -/
  | vmax (t : Nat) (f : InsV)
  /-- VABS (R167): Vector element-wise absolute value. -/
  | vabs (t : Nat) (f : InsV)
  /-- VNEG (R167): Vector element-wise negation. -/
  | vneg (t : Nat) (f : InsV)
  /-- VAND (R167): Vector bitwise and on INT32. -/
  | vand (t : Nat) (f : InsV)
  /-- VOR (R167): Vector bitwise or on INT32. -/
  | vor (t : Nat) (f : InsV)
  /-- VXOR (R167): Vector bitwise xor on INT32. -/
  | vxor (t : Nat) (f : InsV)
  /-- VSHL (R167): Vector shift left on INT32. -/
  | vshl (t : Nat) (f : InsV)
  /-- VSHR (R167): Vector arithmetic shift right on INT32. -/
  | vshr (t : Nat) (f : InsV)
  /-- VCMP (R168): Vector compare writing a predicate. -/
  | vcmp (t : Nat) (f : InsV)
  /-- VCVT (R169): Vector convert between format slots, with block scales and stochastic rounding. -/
  | vcvt (t : Nat) (f : InsV)
  /-- VRED (R172): Vector reduction by a fixed pairwise tree. -/
  | vred (t : Nat) (f : InsV)
  /-- VEXP2 (R173): Vector base-2 exponential by the fixed table procedure. -/
  | vexp2 (t : Nat) (f : InsV)
  /-- VRCP (R173): Vector reciprocal by the fixed table procedure. -/
  | vrcp (t : Nat) (f : InsV)
  /-- VRSQ (R173): Vector reciprocal square root by the fixed table procedure. -/
  | vrsq (t : Nat) (f : InsV)
  /-- VLD (R174): Vector load of 512 bytes from tile memory or through a pointer. -/
  | vld (t : Nat) (f : InsV)
  /-- VST (R174): Vector store of 512 bytes to tile memory or through a pointer. -/
  | vst (t : Nat) (f : InsV) (ext : Ext)
  /-- VGATHER (R175): Vector gather from tile memory by index. -/
  | vgather (t : Nat) (f : InsV)
  /-- VSCATTER (R175): Vector scatter to tile memory by index. -/
  | vscatter (t : Nat) (f : InsV)
  /-- VSPLAT (R176): Broadcast a scalar into active vector elements. -/
  | vsplat (t : Nat) (f : InsV)
  /-- VGET (R176): Read one vector element into a scalar register. -/
  | vget (t : Nat) (f : InsV)
  /-- VMOV (R153): Copy active bytes between vector registers. -/
  | vmov (t : Nat) (f : InsV)
  /-- PLOGIC (R176): Predicate logic operation. -/
  | plogic (t : Nat) (f : InsV)
  /-- MMA (R163): Matrix multiply-accumulate instruction issued to the array. -/
  | mma (t : Nat) (f : InsMma)
  /-- MMA_ENTER (R113): An issued MMA enters the array once the bank interlocks allow it. -/
  | mmaEnter (t : Nat)
  /-- MMA_FINAL (R110): The last K step of an MMA is added into its bank and its results become visible. -/
  | mmaFinal (t : Nat)
  /-- MMA_VERDICT (R120): An MMA checksum verdict arrives, committing the increment or starting a retry or retirement. -/
  | mmaVerdict (t : Nat) (pass : Bool)
  /-- TILE_RETIRE (R123): KMH2 preempts a retiring tile, moves its state to a spare and resumes it, or marks it lost. -/
  | tileRetire (t : Nat)
  /-- DRAIN (R164): Drain instruction converting a bank region into tile memory, queued in the drain queue. -/
  | drain (t : Nat) (f : InsDrain)
  /-- DRAIN_START (R113): A queued drain starts reading its bank once its interlocks are satisfied. -/
  | drainStart (t : Nat)
  /-- DRAIN_RELEASE (R111): A drain's last read completes and its bank is released. -/
  | drainRelease (t : Nat)
  /-- DRAIN_WRITE_DONE (R111): Converted drain data is written to tile memory 12 cycles after the last read. -/
  | drainWriteDone (t : Nat)
  /-- AROLL (R165): Roll instruction on one AMAX register. -/
  | aroll (t : Nat) (a : BitVec 4)
  /-- INJ_ONCE (R126): A write of INJ_ONCE makes the next MMA's first verdict fail. -/
  | injOnce (t : Nat)
  /-- SVC_MMA_TEST (R127): Service call controlling array gating and fault injection for test. -/
  | svcMmaTest (m : Nat) (t gate inj : Nat)
  /-- SVC_MMA_STATS (R127): Service call returning array status and counters. -/
  | svcMmaStats (m : Nat) (t : Nat)
  /-- SVC_TILE_MAP (R127): Service call returning the spare map and lost tiles. -/
  | svcTileMap (m : Nat) (span : Nat)
  /-- TILE_START (R132): TILE_CTL.START starts a dispatch, zeroing state first on a context change. -/
  | tileStart (t : Nat) (dis : Bool)
  /-- TILE_RESET (R148): TILE_CTL.RESET starts a tile reset. -/
  | tileReset (t : Nat) (dis : Bool)
  /-- TILE_RESET_DONE (R148): A tile reset completes and the tile is IDLE. -/
  | tileResetDone (t : Nat)
  /-- TILE_PREEMPT (R143): TILE_CTL.PREEMPT stops a running tile at a boundary per stream. -/
  | tilePreempt (t : Nat) (dis : Bool)
  /-- PREEMPT_SAVE_DONE (R144): The save record and memory image are written and the tile is SAVED. -/
  | preemptSaveDone (t : Nat)
  /-- TILE_RESTORE (R146): TILE_CTL.RESTORE reads the save record and rebuilds the tile. -/
  | tileRestore (t : Nat) (dis : Bool)
  /-- RESTORE_DONE (R146): A restore completes and the tile resumes RUNNING. -/
  | restoreDone (t : Nat)
  /-- TILE_ABORT (R141): TILE_CTL.ABORT ends a dispatch or acknowledges a fault. -/
  | tileAbort (t : Nat) (dis : Bool)
  /-- TILE_DISABLE (R142): A write of TILE_CTL.DISABLE makes the tile refuse new dispatches. -/
  | tileDisable (t : Nat) (dis : Bool)
  /-- IMEM_LOAD (R131): TILE_IMEM_LOAD.GO starts loading instruction memory from SRC. -/
  | imemLoad (t dst blocks : Nat)
  /-- IMEM_LOAD_DONE (R512): An instruction load completes or stops with ERR and STATUS. -/
  | imemLoadDone (t : Nat) (ext : Ext)
  /-- SVC_TILE_STATUS (R150): Service call returning tile, move and epoch status. -/
  | svcTileStatus (m : Nat) (t : Nat)
  /-- SVC_TILE_PREEMPT (R150): Service call preempting or restoring a tile. -/
  | svcTilePreempt (m : Nat) (t : Nat) (restore : Bool)
  /-- SVC_TILE_DISABLE (R150): Service call disabling a tile. -/
  | svcTileDisable (m : Nat) (t on : Nat)
  /-- SVC_TILE_RESET (R150): Service call resetting a tile. -/
  | svcTileReset (m : Nat) (t : Nat)
  /-- MOV (R180): Move a block of rows between tile memory and pointers. -/
  | mov (t : Nat) (f : InsMov)
  /-- MOV_RETIRE (R185): A MOV has read every source byte and issued every write and frees its slot. -/
  | movRetire (t : Nat) (tag : Nat) (cuts : List Nat) (ext : Ext)
  /-- WRITE_RESPONSE (R185): A write issued outside the tile is acknowledged or refused and its status folds into FIRST_STATUS. -/
  | writeResponse (t : Nat) (tag : Nat) (status : Nat)
  /-- FENCE (R187): Fence instruction waiting for covered accesses and holding later ones. -/
  | fence (t : Nat) (f : InsFence)
  /-- FENCE_COMPLETE (R187): All covered accesses are performed or discarded and the fence writes its status. -/
  | fenceComplete (t : Nat)
  /-- LDR (R190): Reserved load taking a reservation on a granule. -/
  | ldr (t : Nat) (f : InsRsv)
  /-- STC (R191): Conditional store that stores only if the reservation is held. -/
  | stc (t : Nat) (f : InsRsv)
  /-- STC_RESULT (R191): The home answers a conditional store and its result is written. -/
  | stcResult (t : Nat) (ext : Ext)
  /-- ECUT (R196): Close the open epoch once earlier MOVs have retired. -/
  | ecut (t : Nat) (pred : BitVec 3) (rd : BitVec 5)
  /-- EPOCH_AUTO_CLOSE (R193): An epoch closes 2 us after its first peer-bound write. -/
  | epochAutoClose (t : Nat)
  /-- SINIT (R198): Stay instruction initialising a local counter. -/
  | sinit (t : Nat) (f : InsStay)
  /-- SARRIVE (R198): Stay instruction arriving at a barrier counter. -/
  | sarrive (t : Nat) (f : InsStay)
  /-- SWAITG (R198): Stay instruction waiting for a barrier generation to change. -/
  | swaitg (t : Nat) (f : InsStay)
  /-- SBAR (R198): Stay instruction arriving and waiting on a barrier. -/
  | sbar (t : Nat) (f : InsStay)
  /-- SADD (R198): Stay instruction adding to an event counter. -/
  | sadd (t : Nat) (f : InsStay)
  /-- SWAITV (R198): Stay instruction waiting for an event counter to reach a value. -/
  | swaitv (t : Nat) (f : InsStay)
  /-- SREAD (R198): Stay instruction reading a counter. -/
  | sread (t : Nat) (f : InsStay)
  /-- STAY_COUNTER_REQUEST (R207): A Stay message reaches the counter's home node and is performed or refused there. -/
  | stayCounterRequest (r : StayReq)
  /-- STAY_ACK (R198): The acknowledgement of a Stay operation returns and its result is written. -/
  | stayAck (t tag kind val status : Nat)
  /-- STAY_RELEASE (R209): A release message ends a registered wait. -/
  | stayRelease (t tag val status : Nat)
  /-- STAY_WAIT_RETRY (R209): A refused wait is repeated every 64 SC cycles. -/
  | stayWaitRetry (t tag : Nat)
  /-- STAY_WAIT_PROBE (R200): Every 10 us a waiting Span sends a probe to the remote counter's home. -/
  | stayWaitProbe (p : StayProbe)
  /-- STAY_WAIT_TIMEOUT (R200): A remote wait with no message for 20 us completes with UNREACHABLE. -/
  | stayWaitTimeout (t tag : Nat)
  /-- SVC_STAY_ALLOC (R203): Service call reserving Stay counters for a collective. -/
  | svcStayAlloc (m n c sc kc : Nat)
  /-- COLL_REGISTER (R211): A write of KST_COLL_ID.VALID = 1 checks and makes a collective registration valid, copying the member bitmap. -/
  | collRegister (n : Nat) (w : BitVec 64) (ext : Ext)
  /-- COLL_RELEASE (R212): A write of VALID = 0 aborts remaining work and releases the registration. -/
  | collRelease (n : Nat) (w : BitVec 64)
  /-- COLL_ACTIVE_SET (R213): A write of ACTIVE = 1 marks a collective in progress. -/
  | collActiveSet (n : Nat) (w : BitVec 64) (ext : Ext)
  /-- COLL_ACTIVE_CLEAR (R213): A write of ACTIVE = 0 clears ACTIVE once RUN reads zero. -/
  | collActiveClear (n : Nat) (w : BitVec 64) (ext : Ext)
  /-- COLL_ABORT (R215): A write of ABORT fails the registration and releases its waiters and descriptors. -/
  | collAbort (n : Nat) (w : BitVec 64) (ext : Ext)
  /-- EPOCH_TAGGED_WRITE (R216): A tagged Claden-X write reaches the epoch gate and is held or performed and recorded. -/
  | epochTaggedWrite (pier dest tag a : Nat) (data : BitVec 1024) (mask : BitVec 128) (pz : BitVec 4) (ext : Ext)
  /-- EPOCH_ARRIVAL_REPORT (R218): A gate reports tagged arrivals to the count at Pier 0 over Stay. -/
  | epochArrivalReport (pier tag : Nat) (ext : Ext)
  /-- EPOCH_CONFIRM_RECEIVED (R218): A CONFIRM reaches the receiver and is applied when the arrival count matches. -/
  | epochConfirmReceived (tag n : Nat) (ext : Ext)
  /-- EPOCH_REVOKE_RECEIVED (R216): A REVOKE reaches the receiver, discarding held writes or poisoning recorded lines. -/
  | epochRevokeReceived (tag n : Nat)
  /-- EPOCH_GATE_TIMEOUT (R218): An epoch unresolved 100 us after its first write is revoked locally with cause TIMEOUT. -/
  | epochGateTimeout (tag : Nat)
  /-- LAT_DOORBELL (R221): A write of LAT_DB posts descriptors to a Lattice queue. -/
  | latDoorbell (pier q : Nat) (w : BitVec 64)
  /-- LAT_SEQ_REREAD (R222): A Lattice descriptor slot whose SEQ mismatches is re-read 1 us later, or completes STALE_COMMAND. -/
  | latSeqReread (pier q : Nat) (ext : Ext)
  /-- REDUCE (R225): A REDUCE descriptor starts combining its inputs and sending the result. -/
  | reduce (pier q : Nat) (ext : Ext)
  /-- ISCATTER (R229): An ISCATTER descriptor starts sending rows to expert buffers by index. -/
  | iscatter (pier q : Nat) (ext : Ext)
  /-- IGATHER (R229): An IGATHER descriptor starts fetching remote rows by index. -/
  | igather (pier q : Nat) (ext : Ext)
  /-- LAT_FRAME (R225): A Lattice frame arrives and is matched, staged or refused. -/
  | latFrame (pier port m coll step off : Nat) (data : BitVec 2048) (poison : Bool) (ext : Ext)
  /-- LAT_ROW_ARRIVAL (R229): A scattered or gathered row reaches its target and is performed, dropped or refused. -/
  | latRowArrival (pier : Nat) (r : LatRow) (ext : Ext)
  /-- LAT_DESC_COMPLETE (R224): A Lattice descriptor finishes and writes its completion word and signal. -/
  | latDescComplete (pier q status : Nat) (ext : Ext)
  /-- LAT_PORT_TIMEOUT (R227): A contributing port's frames stop for the link-loss timeout and the descriptor completes UNREACHABLE. -/
  | latPortTimeout (pier q port : Nat)
  /-- LAT_Q_DISABLE (R231): A write of LAT_Q_CTL.DISABLE turns the queue's work away. -/
  | latQDisable (pier q : Nat) (w : BitVec 64)
  /-- SVC_COLL_REGISTER (R232): Service call registering a collective. -/
  | svcCollRegister (m n : Nat) (id memb buf : BitVec 64) (win : Option (BitVec 64)) (ext : Ext)
  /-- SVC_COLL_RELEASE (R232): Service call releasing a collective. -/
  | svcCollRelease (m : Nat) (n : Nat)
  /-- SVC_COLL_ABORT (R232): Service call aborting a collective. -/
  | svcCollAbort (m : Nat) (n : Nat)
  /-- SVC_COLL_PHASE (R232): Service call marking a collective in progress. -/
  | svcCollPhase (m : Nat) (n on : Nat)
  /-- SVC_REVOKE_LOG (R232): Service call reading revoke records. -/
  | svcRevokeLog (m : Nat) (n : Nat)
  /-- SVC_EPOCH_STAT (R232): Service call returning epoch gate status. -/
  | svcEpochStat (m : Nat) (p : Nat)
  /-- SVC_LAT_DISABLE (R232): Service call disabling a Lattice queue. -/
  | svcLatDisable (m : Nat) (p q abort : Nat)
  /-- SVC_LAT_STATS (R232): Service call returning Lattice flags and counters. -/
  | svcLatStats (m : Nat) (p q : Nat)
  /-- ACCESS_LINK_TIMEOUT (R249): An outbound access reaches its link-loss timeout unperformed and is discarded and logged. -/
  | accessLinkTimeout (t tag : Nat)
  /-- HOLD_LIMIT_DISCARD (R251): A write still unperformed 2 ms after issue is discarded despite HOLDs. -/
  | holdLimitDiscard (t tag : Nat)
  /-- HOLD_SEND (R251): Every 2 us a receiving Pier that withholds credits or holds GATED writes sends HOLD. -/
  | holdSend (m : Nat) (credits : Bool)
  /-- HOLD_RECEIVED (R251): A HOLD restarts the link-loss timeout of writes toward its sender. -/
  | holdReceived (m : Nat)
  /-- PD_DRAIN_TIMEOUT (R253): A power domain whose buffers do not drain within 1 ms abandons its switch-off. -/
  | pdDrainTimeout (d : Nat)
  /-- SVC_RSV_GRAN (R254): Service call setting a context's reservation granule. -/
  | svcRsvGran (m : Nat) (c g : Nat)
  /-- SVC_ORD_STATS (R254): Service call returning discard counters and sticky bits. -/
  | svcOrdStats (m : Nat) (t : Nat)
  /-- SVC_LINK_STATUS (R254): Service call returning link status and lost marks. -/
  | svcLinkStatus (m : Nat) (kind die port : Nat)
  /-- RDS (R263): Coherent read-shared request reaching a home. -/
  | rds (a line : Nat)
  /-- RDU (R263): Coherent read-unique request reaching a home. -/
  | rdu (a line : Nat)
  /-- UPG (R263): Upgrade request for ownership without data reaching a home. -/
  | upg (a line : Nat)
  /-- RDO (R263): Non-allocating read request reaching a home. -/
  | rdo (a line : Nat)
  /-- WRU (R263): Non-allocating write request with a byte mask reaching a home. -/
  | wru (a line : Nat) (v : BitVec 1024) (mask : BitVec 128) (pz : BitVec 4)
  /-- WB (R263): Writeback of dirty data reaching a home. -/
  | wb (a line : Nat) (v : BitVec 1024)
  /-- EVC (R263): Eviction of a clean exclusive line reaching a home. -/
  | evc (a line : Nat)
  /-- COMPACK (R264): Report that a granted line is installed, closing the transaction and starting the hold. -/
  | compack (a line : Nat)
  /-- SNPS (R259): Snoop asking an agent to downgrade and forward data. -/
  | snps (a line : Nat)
  /-- SNPU (R259): Snoop asking an agent to forward data and invalidate. -/
  | snpu (a line : Nat)
  /-- SNPI (R259): Snoop asking an agent to invalidate. -/
  | snpi (a line : Nat)
  /-- SNPX (R259): Snoop asking an agent to invalidate and return dirty data to the home. -/
  | snpx (a line : Nat)
  /-- SNPO (R259): Snoop asking an agent to forward a copy and keep the line. -/
  | snpo (a line : Nat)
  /-- DATA (R263): Data from memory with a granted state reaching the requester. -/
  | data (a line : Nat)
  /-- GRANT (R263): Ownership without data reaching the requester of an Upg. -/
  | grant (a line : Nat)
  /-- COMP (R263): Notice that all invalidations are answered, permitting writes to the line. -/
  | comp (a line : Nat)
  /-- NACK (R267): A refusal of a request reaching the requester, which schedules a retry. -/
  | nack (a line : Nat)
  /-- NACK_RETRY (R267): After its backoff an agent retries a NACKed request, marked STARVE after 16 NACKs. -/
  | nackRetry (a line : Nat)
  /-- FWDDATA (R262): Data forwarded by an owner reaching the requester. -/
  | fwddata (a line : Nat)
  /-- RSPI (R263): Snoop response reporting the agent now holds I. -/
  | rspi (a line : Nat) (fwd : Bool) (v : BitVec 1024)
  /-- RSPS (R263): Snoop response reporting the agent holds S. -/
  | rsps (a line : Nat) (fwd : Bool) (v : BitVec 1024)
  /-- RSPO (R263): Snoop response reporting the agent holds O. -/
  | rspo (a line : Nat) (fwd : Bool) (v : BitVec 1024)
  /-- RSPDATA (R263): Dirty data returned to the home in answer to SnpX. -/
  | rspdata (a line : Nat) (v : BitVec 1024)
  /-- WB_ACCEPTED (R284): The home accepts a writeback and the victim-eviction buffer entry is freed. -/
  | wbAccepted (span line : Nat)
  /-- HOST_SNOOP (R273): A host snoop reaches the far home and is answered after snooping module agents. -/
  | hostSnoop (line : Nat) (inv : Bool)
  /-- HOST_SNOOP_TIMEOUT (R274): A snoop to agent 73 unanswered for 200 us treats the host agent as lost. -/
  | hostSnoopTimeout (line : Nat)
  /-- INJ_CE (R272): A write of INJ_CE corrupts one bit of the next directory entry written. -/
  | injCe (home : Nat)
  /-- INJ_UE (R272): A write of INJ_UE corrupts two bits of the next directory entry written. -/
  | injUe (home : Nat)
  /-- SVC_COH_STATS (R279): Service call returning directory and agent statistics and error records. -/
  | svcCohStats (m : Nat) (h a : Nat)
  /-- SVC_COH_TEST (R279): Service call injecting directory errors for test. -/
  | svcCohTest (m : Nat) (h ce ue : Nat)
  /-- VEB_WRITEBACK (R284): The victim-eviction buffer issues the WB of its oldest waiting entry. -/
  | vebWriteback (span : Nat)
  /-- CLEAN (R287): Maintenance operation writing back dirty lines of a range or set of ways. -/
  | clean (span : Nat) (w : BitVec 64)
  /-- INVAL (R287): Maintenance operation dropping every selected line with no message. -/
  | inval (span : Nat) (w : BitVec 64)
  /-- CLEAN_INVAL (R287): Maintenance operation writing back dirty lines and dropping every selected line. -/
  | cleanInval (span : Nat) (w : BitVec 64)
  /-- CMAINT_ABORT (R292): A write of ABORT stops the maintenance operation at the next set or line. -/
  | cmaintAbort (span : Nat)
  /-- CMAINT_DONE (R291): A maintenance operation completes, writing STATUS and DONE and signalling. -/
  | cmaintDone (span status : Nat)
  /-- CACHE_DISABLE (R294): A write of SPAN_CACHE_CTL.EN = 0 starts disabling the Span cache. -/
  | cacheDisable (span : Nat)
  /-- CACHE_DISABLE_DONE (R294): The disable completes, counting dirty lines left and clearing DIS_PENDING. -/
  | cacheDisableDone (span : Nat)
  /-- CACHE_ENABLE (R297): A write of EN = 1 enables the cache if invalidated, or with FORCE marks it stale. -/
  | cacheEnable (span : Nat) (force : Bool)
  /-- SKEIN_WAYS_WRITE (R282): A write of SKEIN_WAYS reserves or releases ways for Skein. -/
  | skeinWaysWrite (span n : Nat)
  /-- SVC_CACHE_MAINT (R299): Service call cleaning or invalidating a range. -/
  | svcCacheMaint (m span : Nat) (ctl : BitVec 64) (addr len status : Nat)
  /-- SVC_SPAN_CACHE_DISABLE (R299): Service call cleaning and disabling a Span cache. -/
  | svcSpanCacheDisable (m span status : Nat)
  /-- SVC_SPAN_CACHE_ENABLE (R299): Service call invalidating and enabling a Span cache. -/
  | svcSpanCacheEnable (m span : Nat)
  /-- SVC_CACHE_STATS (R299): Service call returning cache status and counters. -/
  | svcCacheStats (m : Nat) (span : Nat)
  /-- HBM_ACCESS (R306): An HBM controller performs an access, checking or encoding by frame class and marking errors. -/
  | hbmAccess (line : Nat) (write : Bool) (v : BitVec 1024) (mask : BitVec 128) (pz : BitVec 4) (errs : List (Nat × Nat))
  /-- SCRUB_READ (R308): The patrol scrubber checks one codeword and corrects or reports it. -/
  | scrubRead (sct err : Nat)
  /-- SCRUB_POISON_REPORT (R323): The placement engine poisons a scrubbed uncorrectable line and repairs it from a replica. -/
  | scrubPoisonReport (sct : Nat) (ext : Ext)
  /-- HBM_TEMP_READING (R310): A stack temperature reading selects refresh, throttle share, shutdown or return from cooling. -/
  | hbmTempReading (stack : Nat) (temp : Option Nat)
  /-- HBM_COOL_TIMEOUT (R312): A stack not cool within 2 s of shutdown writes a permanent-fault record. -/
  | hbmCoolTimeout (stack : Nat)
  /-- THR_CURVE_WRITE (R311): A write of HBM_THR_CURVE is validated and applied from the next reading. -/
  | thrCurveWrite (n : Nat) (w : BitVec 64)
  /-- FCLASS_WRITE (R307): A write of HBM_FCLASS changes the code of frames for later accesses. -/
  | fclassWrite (n : Nat) (w : BitVec 64)
  /-- CHANNEL_RETIRE (R314): A channel retirement starts: region marked RETIRING and its pages moved out. -/
  | channelRetire (w : BitVec 64)
  /-- REGION_REFORM (R314): When HOLD_CNT reaches 0 the region re-forms without the retired channels. -/
  | regionReform (k : Nat)
  /-- REGION_REFORM_DONE (R314): The re-formed region is zeroed and returns to NORMAL. -/
  | regionReformDone (k : Nat)
  /-- SVC_HBM_THROTTLE (R317): Service call setting the throttle curve. -/
  | svcHbmThrottle (m : Nat) (n : Nat) (w : BitVec 64) (hyst : Nat)
  /-- SVC_HBM_SCRUB (R317): Service call configuring patrol scrub. -/
  | svcHbmScrub (m : Nat) (w : BitVec 64)
  /-- SVC_HBM_STATS (R317): Service call returning HBM status and counters. -/
  | svcHbmStats (m : Nat) (st k : Nat)
  /-- AGEING_SWEEP (R322): Every PERIOD_MS the placement engine ages every valid page and then promotes young far pages. -/
  | ageingSweep
  /-- TR_DOORBELL (R340): A write of TR_DB posts layer descriptors to Trestle. -/
  | trDoorbell (span : Nat) (w : BitVec 64)
  /-- TRESTLE_SEQ_REREAD (R340): A layer slot whose SEQ mismatches is re-read, or becomes STALE_COMMAND. -/
  | trestleSeqReread (span : Nat)
  /-- TRESTLE_LAYER_FETCH (R337): Trestle starts fetching the next layer into its Skein slot once the previous read is issued and the slot is free. -/
  | trestleLayerFetch (span : Nat)
  /-- TRESTLE_LAYER_READY (R342): A layer arrives or fails, its status word is written and READY advances. -/
  | trestleLayerReady (span : Nat) (ext : Ext)
  /-- TRESTLE_MISS (R344): The miss point of an unarrived layer passes and STALL or SHADOW applies. -/
  | trestleMiss (span n : Nat)
  /-- TRESTLE_LINE_RETRY (R348): A failed far or peer line read is retried, read from the replica, or poisoned. -/
  | trestleLineRetry (span n off : Nat) (again rep : Ext)
  /-- TRESTLE_GO (R342): A write of TR_CTL.GO restarts layer numbering and zeroes the counters. -/
  | trestleGo (span : Nat) (w : BitVec 64)
  /-- TRESTLE_DISABLE (R349): A write of TR_CTL.DISABLE turns layers away with DISABLED or CANCELLED. -/
  | trestleDisable (span : Nat) (w : BitVec 64)
  /-- SVC_FAR_POOL (R352): Service call granting the far pool. -/
  | svcFarPool (m : Nat) (w : BitVec 64)
  /-- SVC_POOL_SET (R352): Service call setting a context's reserve and limit. -/
  | svcPoolSet (m : Nat) (c res lim : Nat)
  /-- SVC_POOL_STATS (R352): Service call returning pool accounting. -/
  | svcPoolStats (m : Nat) (c : Nat)
  /-- SVC_PLACE_TUNE (R352): Service call tuning ageing and promotion. -/
  | svcPlaceTune (m : Nat) (w : BitVec 64)
  /-- SVC_RAW_RESERVE (R352): Service call reserving frames for raw-window use. -/
  | svcRawReserve (m f n : Nat) (take : Bool)
  /-- SVC_OBJ_REPAIR (R348): Service call rewriting a poisoned object and clearing POISONED. -/
  | svcObjRepair (m id : Nat) (src : BitVec 64) (ext : Ext)
  /-- SVC_TRESTLE_CFG (R352): Service call setting the Skein window and counters. -/
  | svcTrestleCfg (m : Nat) (span : Nat) (win sync : BitVec 64) (ways : Nat)
  /-- SVC_TRESTLE_POST (R352): Service call posting layer descriptors. -/
  | svcTrestlePost (m span : Nat) (ring : Option (BitVec 64)) (d : BitVec 512)
  /-- SVC_TRESTLE_DISABLE (R352): Service call disabling streaming. -/
  | svcTrestleDisable (m : Nat) (span abort : Nat)
  /-- SVC_TRESTLE_STATS (R352): Service call returning Trestle status and counters. -/
  | svcTrestleStats (m : Nat) (span : Nat)
  /-- HWIN_PROGRAM (R354): The host programs HWIN during enumeration, enabling host memory requests. -/
  | hwinProgram (v : Nat)
  /-- RING_ENABLE (R359): A write of RING_CTL.EN = 1 checks the ring areas and enables the ring. -/
  | ringEnable (r : Nat) (w : BitVec 64)
  /-- RING_EN_CLEAR (R362): A write of EN = 0 disables the ring and clears STOPPED. -/
  | ringEnClear (r : Nat) (w : BitVec 64)
  /-- RING_DOORBELL (R362): A write of RING_DB posts slots, or is discarded, or stops the ring on overrun. -/
  | ringDoorbell (r : Nat) (w : BitVec 64)
  /-- RING_SLOT_READ (R363): A ring slot read returns and its SEQ is matched, checked or re-read. -/
  | ringSlotRead (r : Nat) (ext : Ext)
  /-- RING_SLOT_REREAD (R363): A mismatched slot is re-read 1 us later, or after eight re-reads completes STALE_COMMAND. -/
  | ringSlotReread (r : Nat) (ext : Ext)
  /-- DISPATCH_START (R364): Queue service starts an eligible DISPATCH head on free tiles, loading programs as needed. -/
  | dispatchStart (ext : Ext)
  /-- MARKER (R360): A MARKER descriptor starts as the eligible head and completes after every earlier dispatch. -/
  | marker (r : Nat)
  /-- DISPATCH_HEAD_STARVE (R365): A head waiting 1 ms for tiles blocks other dispatches from its Spans. -/
  | dispatchHeadStarve (r : Nat)
  /-- DISPATCH_COMPLETE (R366): A dispatch's tiles, writes, epochs and layers finish and its completion word is written. -/
  | dispatchComplete (r num : Nat)
  /-- RING_ABORT (R367): RING_ABORT.GO aborts a dispatch by SEQ, returning OK, ALREADY_DONE or PERMISSION. -/
  | ringAbort (r : Nat) (w : BitVec 64)
  /-- RING_DISABLE (R369): A write of RING_CTL.DISABLE turns the ring's work away. -/
  | ringDisable (r : Nat) (w : BitVec 64)
  /-- HOST_LINK_LOSS (R371): No Claden-C traffic for 64 us starts an endpoint reset and entry to Parked. -/
  | hostLinkLoss
  /-- HOST_LINK_RESET (R370): A host link reset or CXL Reset starts an endpoint reset. -/
  | hostLinkReset
  /-- CLC_EP_RESET (R370): A write of P0_CLC_CFG.EP_RESET starts an endpoint reset. -/
  | clcEpReset (w : BitVec 64)
  /-- PARK_DRAIN_TIMEOUT (R371): At DRAIN_MS dispatches still running are ended with HOST_LOST. -/
  | parkDrainTimeout
  /-- PARK_ENTER (R371): Caches are cleaned, HBM enters self-refresh, a fresh EPOCH is taken and PARKED is set. -/
  | parkEnter
  /-- SVC_RING_CREATE (R376): Service call creating and configuring a ring. -/
  | svcRingCreate (m r : Nat) (base cpl ctl : BitVec 64)
  /-- SVC_RING_DESTROY (R376): Service call removing a ring. -/
  | svcRingDestroy (m r : Nat)
  /-- SVC_DISPATCH_ABORT (R367): Service call aborting a dispatch. -/
  | svcDispatchAbort (m r seq : Nat)
  /-- SVC_RING_DISABLE (R369): Service call disabling a ring. -/
  | svcRingDisable (m : Nat) (r abort : Nat)
  /-- SVC_RING_STATUS (R376): Service call returning ring status. -/
  | svcRingStatus (m : Nat) (r : Nat)
  /-- SVC_CLC_CFG (R376): Service call setting host port mode and drain limit. -/
  | svcClcCfg (m : Nat) (mode drain : Nat)
  /-- SVC_CLC_RESET (R370): Service call starting an endpoint reset. -/
  | svcClcReset (m : Nat)
  /-- SVC_REATTACH (R374): Service call ending Parked when the epoch matches. -/
  | svcReattach (m : Nat) (epoch : Nat)
  /-- SVC_CLC_STATUS (R376): Service call returning port status and counters. -/
  | svcClcStatus (m : Nat)
  /-- CORE_RESET (R379): KST_CORE_CTL.RESET resets one application core. -/
  | coreReset (c : Nat) (w : BitVec 64)
  /-- CORE_HOLD (R379): A write of HOLD holds a core in reset or releases it to its reset vector. -/
  | coreHold (c : Nat) (w : BitVec 64)
  /-- HART_HEARTBEAT_TIMEOUT (R380): A management hart whose heartbeat is 10 ms late is reset and reloaded. -/
  | hartHeartbeatTimeout (h : Nat)
  /-- LOCKSTEP_MISMATCH (R381): The KMH2 checker finds a mismatch, halts the pair and has it reloaded or starts a containment reset. -/
  | lockstepMismatch
  /-- HART_RELOAD_DONE (R380): A restarted management hart runs again. -/
  | hartReloadDone (h : Nat)
  /-- MBOX_CALL_COMPLETE (R383): Firmware writes a call's outputs and STATUS, clears BUSY and raises any interrupt. -/
  | mboxCallComplete (m : Nat)
  /-- MBOX_CALL_TIMEOUT (R384): A call not complete within 10 s completes with INTERNAL. -/
  | mboxCallTimeout (m : Nat)
  /-- QS_EXCL_WRITE (R386): A write of KST_QS_EXCL excludes tiles from queue service once their dispatch completes. -/
  | qsExclWrite (span : Nat) (w : BitVec 64)
  /-- SVC_CORE_STATUS (R389): Service call returning core status and saved state of retired cores. -/
  | svcCoreStatus (m : Nat) (c : Nat)
  /-- SVC_CORE_RESET (R389): Service call resetting or holding a core. -/
  | svcCoreReset (m : Nat) (c : Nat) (w : BitVec 64)
  /-- SVC_CORE_POWER (R389): Service call powering a core group. -/
  | svcCorePower (m : Nat) (off : Nat)
  /-- SVC_QS_EXCLUDE (R389): Service call excluding tiles from queue service. -/
  | svcQsExclude (m : Nat) (span : Nat) (w : BitVec 64)
  /-- CLD_STATE_DONE (R394): A Claden-D training state completes and the port moves to the next state. -/
  | cldStateDone (die port : Nat) (fa fb : BitVec 64) (flits : Bool)
  /-- CLD_STATE_TIMEOUT (R394): A Claden-D state runs past its limit and the port enters TRAINERROR. -/
  | cldStateTimeout (die port : Nat) (flits : Bool)
  /-- CLD_TRAINERROR_EXPIRE (R394): After 1 ms in TRAINERROR a compatible port returns to RESET. -/
  | cldTrainerrorExpire (die port : Nat)
  /-- CLD_RETRAIN_REQUEST (R396): A sideband request from the partner makes the port retrain with it. -/
  | cldRetrainRequest (die port : Nat)
  /-- CLD_CRC_FAIL (R396): A Claden-D flit fails the CRC and is replayed. -/
  | cldCrcFail (die port : Nat) (flits : Bool)
  /-- CLD_PROBATION_END (R396): The 100 us probation ends, passing or failing and forcing a narrower width. -/
  | cldProbationEnd (die port : Nat)
  /-- CLD_REPLAY_WINDOW (R396): A 1 ms window with over 1,000 replays sends the link to PHYRETRAIN. -/
  | cldReplayWindow (die port : Nat)
  /-- CLD_L1_ENTRY (R394): After 10 us with no traffic a port enters L1. -/
  | cldL1Entry (die port : Nat)
  /-- CLD_RETRAIN (R394): A write of CLD_PORT_CTL.RETRAIN starts a retrain. -/
  | cldRetrain (die port : Nat) (w : BitVec 64)
  /-- CLX_STATE_DONE (R400): A Claden-X training state completes and the link moves on. -/
  | clxStateDone (l : Nat) (bad : BitVec 9) (p : ClxPeer)
  /-- CLX_STATE_TIMEOUT (R400): A Claden-X state runs past its limit and the link enters TRAINERROR. -/
  | clxStateTimeout (l : Nat)
  /-- CLX_TRAINERROR_EXPIRE (R400): After 10 ms in TRAINERROR a link returns to DETECT. -/
  | clxTrainerrorExpire (l : Nat)
  /-- CLX_IDLE_TIMEOUT (R401): No valid flit for 2 us sends the link to QUICK_RETRAIN. -/
  | clxIdleTimeout (l : Nat)
  /-- CLX_FLIT_ERROR (R398): A Claden-X flit fails FEC or CRC and is replayed. -/
  | clxFlitError (l : Nat) (again : Bool)
  /-- CLX_LANE_WINDOW (R408): A 1 ms window of corrected symbols adds to a lane's bucket and may retire the lane. -/
  | clxLaneWindow (l lane n : Nat)
  /-- CLX_LINK_ENABLE (R400): A write of CLX_LINK_CTL.EN enables or disables a link. -/
  | clxLinkEnable (l : Nat) (w : BitVec 64)
  /-- CLX_RETRAIN (R401): A write of CLX_LINK_CTL.RETRAIN starts a quick retrain. -/
  | clxRetrain (l : Nat) (w : BitVec 64)
  /-- CLX_LINK_RETIRE (R402): A write of RETIRE retires a link under OWN_RETIRE. -/
  | clxLinkRetire (l : Nat) (w : BitVec 64)
  /-- CLX_LANE_RETIRE (R402): A write of LANE_RETIRE retires a lane under OWN_RETIRE. -/
  | clxLaneRetire (l : Nat) (w : BitVec 64)
  /-- ROUTE_WRITE (R403): A write of a CLX_RT entry updates every route copy and clears the lost mark. -/
  | routeWrite (m : Nat) (w : BitVec 64)
  /-- LOST_CLEAR (R407): A write of 1 to a CLX_LOST bit clears a module's lost mark. -/
  | lostClear (n : Nat) (w : BitVec 64)
  /-- UP_NOTICE (R407): An UP notice from a module clears its lost mark. -/
  | upNotice (m : Nat)
  /-- STAY_FORWARD (R405): A Pier forwards or drops a Stay message for another module. -/
  | stayForward (pier cls dest kind hops : Nat) (args : List Nat)
  /-- STAY_FORWARD_TIMEOUT (R405): A Stay message with no active link for 20 us is dropped. -/
  | stayForwardTimeout (dest : Nat)
  /-- SVC_LINK_ROUTE (R410): Service call setting routes and the Stay hop limit. -/
  | svcLinkRoute (m : Nat) (dest : Nat) (w : BitVec 64) (hop : Option Nat)
  /-- SVC_LINK_RETRAIN (R410): Service call retraining a link. -/
  | svcLinkRetrain (m : Nat) (cld : Bool) (i j : Nat)
  /-- SVC_LINK_ENABLE (R410): Service call enabling or disabling a Claden-X link. -/
  | svcLinkEnable (m : Nat) (l en : Nat)
  /-- SVC_LINK_TEST (R410): Service call setting the width cap for test. -/
  | svcLinkTest (m : Nat) (die port width : Nat)
  /-- POWER_ESTIMATE (R418): Every 1 us activity counters are weighted into the power estimate and the guard projection is checked. -/
  | powerEstimate (raw : Nat)
  /-- GUARD_STEP (R429): Every 10 us while engaged the guard lowers edge rates by a further sixteenth. -/
  | guardStep
  /-- TENSION_RECALIBRATE (R418): Every 1 ms Tension recalibrates GAIN against measured power and reads telemetry. -/
  | tensionRecalibrate (meas : Nat)
  /-- TENSION_CONTROL_STEP (R419): Every 1 ms Tension chooses frequencies and applies or defers cap steps. -/
  | tensionControlStep (acs kcs : List Nat)
  /-- CAP_DEFER_EXPIRE (R431): A cap step deferred for 2 ms is taken and counted. -/
  | capDeferExpire
  /-- VOLTAGE_RAMP_DONE (R424): A regulator reaches its new voltage during a frequency change. -/
  | voltageRampDone (u : Nat)
  /-- PLL_LOCK_DONE (R424): An idle PLL locks and the clock root switches to it when detectors are quiet. -/
  | pllLockDone (u : Nat)
  /-- DROOP_TRIP (R425): A droop detector trips and AC cycles are doubled within 3 ns. -/
  | droopTrip (span : Nat)
  /-- DROOP_QUIET (R426): No detector has tripped for the required time, ending stretching and releasing waiting changes. -/
  | droopQuiet (span : Nat) (full : Bool)
  /-- FREQ_CHANGE_ABANDON (R426): A lock complete for 100 us without quiet detectors abandons the change. -/
  | freqChangeAbandon (u : Nat)
  /-- VR_ALERT_ASSERT (R427): VR_ALERT_N is asserted and every Span and core group is limited to 400 MHz. -/
  | vrAlertAssert (ext : Bool)
  /-- VR_ALERT_RELEASE (R427): 100 us after VR_ALERT_N is released the limits end. -/
  | vrAlertRelease
  /-- TEMP_SENSOR_READ (R428): Every 100 us junction sensors are read and regulation, fast limit or trip applied. -/
  | tempSensorRead (u temp : Nat)
  /-- REF_CLOCK_LOSS (R433): The reference is missing or off frequency and every PLL holds its frequency. -/
  | refClockLoss
  /-- REF_HOLD_EXPIRE (R433): The reference not back within 100 us stops clocks and leads to a module reset. -/
  | refHoldExpire
  /-- USER_CAP_WRITE (R417): A write of TNS_CAP.USER_CAP_W sets a user cap. -/
  | userCapWrite (w : BitVec 64)
  /-- TARGET_WRITE (R420): A write of SPAN_PWR_CTL.TARGET_MHZ or KST_KC_TARGET sets an operating point under OWN_TENSION. -/
  | targetWrite (span : Option Nat) (w : BitVec 64)
  /-- VF_CURVE_WRITE (R421): A write of SPAN_VF_CURVE is validated and applied under OWN_TENSION. -/
  | vfCurveWrite (span n : Nat) (w : BitVec 64)
  /-- TILE_GROUP_POWER (R413): A write of SPAN_PWR_CTL.PD_OFF switches a tile group off or on. -/
  | tileGroupPower (span : Nat) (w : BitVec 64)
  /-- CORE_GROUP_POWER (R379): A write of KST_PD_CTL.CORE_PD_OFF switches a core group off or on. -/
  | coreGroupPower (w : BitVec 64)
  /-- PIER_DOMAIN_POWER (R414): A write of KST_PD_CTL.PIER_PD_OFF switches a Pier domain off or on. -/
  | pierDomainPower (w : BitVec 64)
  /-- DOMAIN_WAKE_DONE (R411): A power domain finishes waking. -/
  | domainWakeDone (d : Nat)
  /-- TILE_GROUP_IDLE_OFF (R415): A tile group idle for 50 ms is switched off by Tension. -/
  | tileGroupIdleOff (span g : Nat)
  /-- SVC_PWR_CAP (R435): Service call setting the user cap. -/
  | svcPwrCap (m : Nat) (w : Nat)
  /-- SVC_PD_SET (R435): Service call switching tile group and Pier domains. -/
  | svcPdSet (m : Nat) (span : Option Nat) (off : Nat)
  /-- SVC_PWR_STATS (R435): Service call returning power status and counters. -/
  | svcPwrStats (m : Nat) (span : Nat)
  /-- RETIRE_BUCKET_LEAK (R442): At the end of a leak period or window a retire bucket leaks or clears. -/
  | retireBucketLeak (row unit : Nat)
  /-- RETIRE_TBL_WRITE (R445): A write of KST_RETIRE is validated and applied from the row's next event. -/
  | retireTblWrite (row : Nat) (w : BitVec 64)
  /-- CORE_RETIRE (R446): A core is saved, held in reset and marked retired. -/
  | coreRetire (w : BitVec 64)
  /-- CONT_REQ (R448): A write of KST_RAS_CTL.CONT_REQ starts a containment reset with cause 0x09. -/
  | contReq (w : BitVec 64)
  /-- CONTAINMENT_FLUSH (R450): Caches write back, the host is recalled and owned lines are poisoned. -/
  | containmentFlush (recalled : Bool)
  /-- HOST_RECALL_TIMEOUT (R450): A host recall incomplete after 2 ms treats agent 73 as lost. -/
  | hostRecallTimeout
  /-- CONTAINMENT_SELFTEST_DONE (R449): Tile self-tests end, failing tiles are retired and HBM leaves self-refresh. -/
  | containmentSelftestDone (fails : List Nat)
  /-- CONTAINMENT_DONE (R449): Dispatches and queues are ended, CONT_ACTIVE clears and cores resume. -/
  | containmentDone
  /-- CONT_RESUME (R453): A write of CONT_RESUME clears STORM so dispatches start again. -/
  | contResume (w : BitVec 64)
  /-- GAUGE_DUE (R457): A unit falls due for a Gauge test by period or temperature and is tested or deferred. -/
  | gaugeDue (g : Nat)
  /-- GAUGE_DEFER_EXPIRE (R459): A busy unit deferred DEFER_MIN minutes is preempted and tested. -/
  | gaugeDeferExpire (g : Nat)
  /-- GAUGE_OVERDUE (R30): Under OWN_GAUGE a test 30 minutes overdue writes an overdue record. -/
  | gaugeOverdue (g : Nat)
  /-- GAUGE_TEST_DONE (R460): A Gauge test ends; the unit is restored or retired. -/
  | gaugeTestDone (g : Nat) (pass : Bool) (low : Option Nat)
  /-- GAUGE_REQ (R461): KST_GAUGE_REQ.GO runs a Gauge test on a named tile or core. -/
  | gaugeReq (w : BitVec 64)
  /-- SVC_ERR_LOG (R463): Service call reading error records and the log. -/
  | svcErrLog (m : Nat) (n unit : Nat)
  /-- SVC_ERR_CLEAR (R463): Service call clearing error records. -/
  | svcErrClear (m : Nat) (unit : Nat) (w : BitVec 64)
  /-- SVC_RETIRE_TBL (R463): Service call reading or writing the retire table. -/
  | svcRetireTbl (m : Nat) (row : Nat) (set : Option (BitVec 64))
  /-- SVC_GAUGE_CFG (R463): Service call setting the Gauge schedule. -/
  | svcGaugeCfg (m : Nat) (w : BitVec 64)
  /-- SVC_GAUGE_RUN (R461): Service call running a Gauge test under OWN_GAUGE. -/
  | svcGaugeRun (m : Nat) (w : BitVec 64)
  /-- SVC_CONT_TEST (R463): Service call starting a containment reset for test. -/
  | svcContTest (m : Nat)
  /-- SVC_RAS_RESUME (R453): Service call resuming dispatch after a reset storm. -/
  | svcRasResume (m : Nat)
  /-- SVC_RAS_STATUS (R463): Service call returning RAS status. -/
  | svcRasStatus (m : Nat)
  /-- SVC_GAUGE_STATUS (R463): Service call returning Gauge status. -/
  | svcGaugeStatus (m : Nat)
  /-- SETTINGS_STORE (R467): A SETTINGS_STORE command is accepted, held or refused under the queue and endurance rules. -/
  | settingsStore (w : BitVec 64)
  /-- SETTINGS_COMMIT_DONE (R466): A commit record is appended, compacting if needed, and any held command is accepted. -/
  | settingsCommitDone
  /-- SETTINGS_DEFAULT (R469): KST_SET_CTL.DEFAULT discards committed RWS values at the next Cast-on. -/
  | settingsDefault (w : BitVec 64)
  /-- BOOT_SELECT (R475): KST_BOOT_CTL.SELECT marks NEXT_SLOT as a trial for the next Cast-on. -/
  | bootSelect (w : BitVec 64)
  /-- BOOT_CONFIRM (R475): KST_BOOT_CTL.CONFIRM confirms the running trial and raises minimum SVNs. -/
  | bootConfirm (w : BitVec 64)
  /-- TRIAL_EXPIRE (R475): A trial not confirmed within CONFIRM_MIN falls back to the other slot via Cast-off and module reset. -/
  | trialExpire
  /-- CASTOFF (R485): KST_BOOT_CTL.CASTOFF starts an orderly stop of the module. -/
  | castoff (w : BitVec 64)
  /-- CASTOFF_DRAIN_TIMEOUT (R485): Dispatches still running 1 s into Cast-off are ended and the stop proceeds. -/
  | castoffDrainTimeout
  /-- CASTOFF_DONE (R485): Links go down, HBM enters self-refresh and STAGE becomes OFF. -/
  | castoffDone
  /-- BOOT_MOD_RESET (R476): KST_BOOT_CTL.MOD_RESET performs a module reset. -/
  | bootModReset (w : BitVec 64)
  /-- BOOT_RECOVERY (R479): KST_BOOT_CTL.RECOVERY requests Recovery at the next Cast-on. -/
  | bootRecovery (w : BitVec 64)
  /-- CAST_ON_STAGE_DONE (R476): A Cast-on stage completes its checks and work, moving to the next stage or failing. -/
  | castOnStageDone (v : Nat) (puf : Bool) (fails : List Nat)
  /-- CAST_ON_TIMEOUT (R477): Cast-on not at RUN within 10 s fails its slot and falls back. -/
  | castOnTimeout
  /-- ALIAS_KEY_READY (R482): The Alias key and certificate become ready after RUN. -/
  | aliasKeyReady
  /-- SVC_SETTINGS_STORE (R486): Service call issuing SETTINGS_STORE. -/
  | svcSettingsStore (m : Nat)
  /-- SVC_SETTINGS_DEFAULT (R486): Service call returning settings to defaults. -/
  | svcSettingsDefault (m : Nat)
  /-- SVC_IMAGE_WRITE (R474): Service call writing an image set into the non-running slot. -/
  | svcImageWrite (m slot : Nat) (first last : Bool) (set : List ImgHdr)
  /-- SVC_IMAGE_SELECT (R475): Service call selecting a slot for a trial. -/
  | svcImageSelect (m slot : Nat)
  /-- SVC_IMAGE_CONFIRM (R475): Service call confirming the running trial. -/
  | svcImageConfirm (m : Nat)
  /-- SVC_BOOT_STATUS (R486): Service call returning boot and slot status. -/
  | svcBootStatus (m : Nat)
  /-- SVC_MOD_RESET (R476): Service call performing a module reset. -/
  | svcModReset (m : Nat) (rcvy : Bool)
  /-- SVC_CASTOFF (R485): Service call starting Cast-off. -/
  | svcCastoff (m : Nat)
  /-- SVC_ID_STATUS (R486): Service call returning identity status. -/
  | svcIdStatus (m : Nat)
  /-- SVC_BOARD_STATUS (R502): Service call returning the fields of KST_BOARD_STAT. -/
  | svcBoardStatus (m : Nat)
  /-- MCTP_CONTROL_MSG (R484): An MCTP control message arriving over I3C. -/
  | mctpControlMsg (cmd eid : Nat)
  /-- MCTP_VENDOR_MSG (R484): A vendor MCTP message carrying a service call, accepted or refused by state. -/
  | mctpVendorMsg (code : Nat)
  /-- GET_VERSION (R483): SPDM request for supported versions. -/
  | getVersion
  /-- GET_CAPABILITIES (R483): SPDM request for responder capabilities. -/
  | getCapabilities
  /-- NEGOTIATE_ALGORITHMS (R483): SPDM request negotiating algorithms. -/
  | negotiateAlgorithms (asym hash : Bool)
  /-- GET_DIGESTS (R483): SPDM request for certificate chain digests. -/
  | getDigests
  /-- GET_CERTIFICATE (R483): SPDM request for the slot 0 certificate chain. -/
  | getCertificate (slot : Nat)
  /-- CHALLENGE (R483): SPDM challenge signed by the Alias key. -/
  | challenge (slot : Nat)
  /-- GET_MEASUREMENTS (R483): SPDM request for firmware and settings measurements. -/
  | getMeasurements (idx : Nat) (sign : Bool)
  /-- REF_CLOCK_RETURN (R433): The 100 MHz reference returns to within limits, ending the PLL hold if it comes back within 100 us. -/
  | refClockReturn
  /-- REF_CLOCK_STABLE (R433): The reference has been stable for 1 ms, so KMH0 performs the module reset after a lost reference, or Cast-on leaves its wait at event 1. -/
  | refClockStable
  /-- PWR_GOOD_RESET_DELAY_EXPIRE (R489): 1 ms after PWR_GOOD, a module whose MOD_RESET_N was released early leaves its self-held reset and starts Cast-on. -/
  | pwrGoodResetDelayExpire
  /-- PWR_EN_LOW_HOLD_EXPIRE (R490): PWR_EN has been low for 1 s, releasing a latched THERMTRIP_N and allowing a pending rise of PWR_EN to take effect. -/
  | pwrEnLowHoldExpire
  /-- HOST_LINK_TRAINED (R353): The Claden-C port finishes training in Claden-C or CXL mode and LINK_UP, CXL and LANES are set. -/
  | hostLinkTrained (cxl : Bool) (lanes : Nat)
  /-- HOST_RESPONSE_AT_FAR_HOME (R273): The host answers a coherent request of the far home or a Far access over Claden-C, with data, grant, poison or error. -/
  | hostResponseAtFarHome (line : Nat) (wr : Bool) (data : BitVec 1024) (pz : BitVec 4) (err : Bool)
  /-- WIN_HOLD_EXPIRE (R265): The 32 FC cycle hold after a CompAck ends, unpinning the entry and letting waiting STARVE requests and host snoops be served. -/
  | winHoldExpire (line : Nat)
  /-- TILE_ABORT_DONE (R368): An aborted tile finishes its executing instructions and issued writes and reaches IDLE within 2 us. -/
  | tileAbortDone (t : Nat)
  /-- CORE_RESET_DONE (R379): A core reset completes within 5 us and the core, if not held, starts at its RVEC. -/
  | coreResetDone (c : Nat)
deriving DecidableEq, Repr

end Sys2Proof
end

