-- ==== Sys2Proof/Decode.lean ====
section
/-!
DEFINITION. Decode.lean: `decodeTableWord` over the rows of the opcode table that give bits (no row does), and
the encodings of the Oplys instruction words that the tiles fetch (R152, R153, R163 to R165, R180 to R198):
encoders, field decoders, streams, word counts and the legality check of R152.
-/

namespace Sys2Proof

/-- The command a word spells by the table's bits: the table gives no row any bits, so none. -/
def decodeTableWord (_nbits _w : Nat) : Option Instr := none

namespace Machine

/-- Word of layout S (R153). -/
def encS (opc : Nat) (f : InsS) : BitVec 64 :=
  BitVec.ofNat 64 (opc + f.pred.toNat * 2 ^ 9 + f.i.toNat * 2 ^ 12 + f.rd.toNat * 2 ^ 13 +
    f.rs1.toNat * 2 ^ 18 + f.rs2.toNat * 2 ^ 23 + f.func.toNat * 2 ^ 28 + f.imm.toNat * 2 ^ 32)

/-- First word of LI: layout S with W2 = 1 (R153). -/
def encLi (f : InsS) : BitVec 64 := encS (0x0F + 2 ^ 8) f

/-- Fields of layout S. -/
def decS (w : BitVec 64) : InsS where
  pred := w.extractLsb' 9 3
  i := w.extractLsb' 12 1
  rd := w.extractLsb' 13 5
  rs1 := w.extractLsb' 18 5
  rs2 := w.extractLsb' 23 5
  func := w.extractLsb' 28 4
  imm := w.extractLsb' 32 32

/-- Word of layout V (R153). -/
def encV (opc : Nat) (f : InsV) : BitVec 64 :=
  BitVec.ofNat 64 (opc + f.pred.toNat * 2 ^ 9 + f.pz.toNat * 2 ^ 12 + f.vd.toNat * 2 ^ 13 +
    f.vs1.toNat * 2 ^ 17 + f.vs2.toNat * 2 ^ 21 + f.vs3.toNat * 2 ^ 25 + f.fmt.toNat * 2 ^ 29 +
    f.fmt2.toNat * 2 ^ 33 + f.ss.toNat * 2 ^ 37 + f.bs.toNat * 2 ^ 42 + f.pd.toNat * 2 ^ 43 +
    f.func.toNat * 2 ^ 46 + f.imm.toNat * 2 ^ 52)

/-- Fields of layout V. -/
def decV (w : BitVec 64) : InsV where
  pred := w.extractLsb' 9 3
  pz := w.extractLsb' 12 1
  vd := w.extractLsb' 13 4
  vs1 := w.extractLsb' 17 4
  vs2 := w.extractLsb' 21 4
  vs3 := w.extractLsb' 25 4
  fmt := w.extractLsb' 29 4
  fmt2 := w.extractLsb' 33 4
  ss := w.extractLsb' 37 5
  bs := w.extractLsb' 42 1
  pd := w.extractLsb' 43 3
  func := w.extractLsb' 46 4
  imm := w.extractLsb' 52 12

/-- The two words of MMA (R163). -/
def encMma (f : InsMma) : BitVec 64 × BitVec 64 :=
  (BitVec.ofNat 64 (0x80 + 2 ^ 8 + f.shape.toNat * 2 ^ 12 + f.bank.toNat * 2 ^ 14 + f.zero.toNat * 2 ^ 15 +
    f.fa.toNat * 2 ^ 16 + f.fb.toNat * 2 ^ 20 + f.sa.toNat * 2 ^ 24 + f.sb.toNat * 2 ^ 29),
   BitVec.ofNat 64 (f.m1.toNat + f.n1.toNat * 2 ^ 7 + f.k1.toNat * 2 ^ 18))

/-- Fields of MMA. -/
def decMma (w0 w1 : BitVec 64) : InsMma where
  shape := w0.extractLsb' 12 2
  bank := w0.extractLsb' 14 1
  zero := w0.extractLsb' 15 1
  fa := w0.extractLsb' 16 4
  fb := w0.extractLsb' 20 4
  sa := w0.extractLsb' 24 5
  sb := w0.extractLsb' 29 5
  m1 := w1.extractLsb' 0 7
  n1 := w1.extractLsb' 7 11
  k1 := w1.extractLsb' 18 15

/-- The two words of DRAIN (R164). -/
def encDrain (f : InsDrain) : BitVec 64 × BitVec 64 :=
  (BitVec.ofNat 64 (0x81 + 2 ^ 8 + f.bank.toNat * 2 ^ 12 + f.dslot.toNat * 2 ^ 13 + f.amax.toNat * 2 ^ 17 +
    f.sd.toNat * 2 ^ 21),
   BitVec.ofNat 64 (f.row0.toNat + f.rows1.toNat * 2 ^ 7 + f.col0.toNat * 2 ^ 14 + f.cols1.toNat * 2 ^ 25))

/-- Fields of DRAIN. -/
def decDrain (w0 w1 : BitVec 64) : InsDrain where
  bank := w0.extractLsb' 12 1
  dslot := w0.extractLsb' 13 4
  amax := w0.extractLsb' 17 4
  sd := w0.extractLsb' 21 5
  row0 := w1.extractLsb' 0 7
  rows1 := w1.extractLsb' 7 7
  col0 := w1.extractLsb' 14 11
  cols1 := w1.extractLsb' 25 11

/-- Word of AROLL (R165). -/
def encAroll (a : BitVec 4) : BitVec 64 := BitVec.ofNat 64 (0x82 + a.toNat * 2 ^ 12)

/-- The two words of MOV (R180). -/
def encMov (f : InsMov) : BitVec 64 × BitVec 64 :=
  (BitVec.ofNat 64 (0xC0 + 2 ^ 8 + f.pred.toNat * 2 ^ 9 + f.ss.toNat * 2 ^ 12 + f.sd.toNat * 2 ^ 17 +
    f.sl.toNat * 2 ^ 22 + f.ssp.toNat * 2 ^ 27 + f.dsp.toNat * 2 ^ 28 + f.strm.toNat * 2 ^ 29 +
    f.hint.toNat * 2 ^ 33),
   BitVec.ofNat 64 (f.rows1.toNat + f.sstride.toNat * 2 ^ 12 + f.dstride.toNat * 2 ^ 36))

/-- Fields of MOV. -/
def decMov (w0 w1 : BitVec 64) : InsMov where
  pred := w0.extractLsb' 9 3
  ss := w0.extractLsb' 12 5
  sd := w0.extractLsb' 17 5
  sl := w0.extractLsb' 22 5
  ssp := w0.extractLsb' 27 1
  dsp := w0.extractLsb' 28 1
  strm := w0.extractLsb' 29 4
  hint := w0.extractLsb' 33 2
  rows1 := w1.extractLsb' 0 12
  sstride := w1.extractLsb' 12 24
  dstride := w1.extractLsb' 36 24

/-- Word of FENCE (R187). -/
def encFence (f : InsFence) : BitVec 64 :=
  BitVec.ofNat 64 (0xC1 + f.pred.toNat * 2 ^ 9 + f.rd.toNat * 2 ^ 12 + f.scope.toNat * 2 ^ 17 +
    f.type.toNat * 2 ^ 19 + f.smask.toNat * 2 ^ 21)

/-- Fields of FENCE. -/
def decFence (w : BitVec 64) : InsFence where
  pred := w.extractLsb' 9 3
  rd := w.extractLsb' 12 5
  scope := w.extractLsb' 17 2
  type := w.extractLsb' 19 2
  smask := w.extractLsb' 21 16

/-- Word of LDR (0xC2) or STC (0xC3) (R189). -/
def encRsv (opc : Nat) (f : InsRsv) : BitVec 64 :=
  BitVec.ofNat 64 (opc + f.pred.toNat * 2 ^ 9 + f.rd.toNat * 2 ^ 12 + f.ra.toNat * 2 ^ 17 +
    f.size.toNat * 2 ^ 22 + f.sx.toNat * 2 ^ 24 + f.rb.toNat * 2 ^ 25 + f.imm.toNat * 2 ^ 30)

/-- Fields of LDR and STC. -/
def decRsv (w : BitVec 64) : InsRsv where
  pred := w.extractLsb' 9 3
  rd := w.extractLsb' 12 5
  ra := w.extractLsb' 17 5
  size := w.extractLsb' 22 2
  sx := w.extractLsb' 24 1
  rb := w.extractLsb' 25 5
  imm := w.extractLsb' 30 12

/-- Word of ECUT (R196). -/
def encEcut (pred : BitVec 3) (rd : BitVec 5) : BitVec 64 :=
  BitVec.ofNat 64 (0xC4 + pred.toNat * 2 ^ 9 + rd.toNat * 2 ^ 12)

/-- Word of a Stay instruction, layout T (R198). -/
def encStay (opc : Nat) (f : InsStay) : BitVec 64 :=
  BitVec.ofNat 64 (opc + f.pred.toNat * 2 ^ 9 + f.rd.toNat * 2 ^ 12 + f.rc.toNat * 2 ^ 17 +
    f.rv.toNat * 2 ^ 22 + f.pri.toNat * 2 ^ 27 + f.fs.toNat * 2 ^ 29)

/-- Fields of layout T. -/
def decStay (w : BitVec 64) : InsStay where
  pred := w.extractLsb' 9 3
  rd := w.extractLsb' 12 5
  rc := w.extractLsb' 17 5
  rv := w.extractLsb' 22 5
  pri := w.extractLsb' 27 2
  fs := w.extractLsb' 29 3

/-- The opcode of an instruction word, bits [7:0]. -/
def opcOf (w : BitVec 64) : Nat := (w.extractLsb' 0 8).toNat

/-- Bit W2 of an instruction word. -/
def w2Of (w : BitVec 64) : Bool := w.getLsbD 8

/-- The words an opcode takes (R152): 0 for an unassigned opcode. -/
def opcWords (opc : Nat) : Nat :=
  if opc = 0x0F then 2
  else if opc ≤ 0x16 then 1
  else if 0x40 ≤ opc ∧ opc ≤ 0x5A then 1
  else if opc = 0x80 ∨ opc = 0x81 then 2
  else if opc = 0x82 then 1
  else if opc = 0xC0 then 2
  else if 0xC1 ≤ opc ∧ opc ≤ 0xC4 then 1
  else if 0xD0 ≤ opc ∧ opc ≤ 0xD6 then 1
  else 0

/-- The four issue streams (R133). -/
inductive Strm | scalar | vector | matrix | move
deriving DecidableEq, Repr

/-- TILE_EXC.STREAM and the order of the pending lists. -/
def Strm.num : Strm → Nat
  | .scalar => 0
  | .vector => 1
  | .matrix => 2
  | .move => 3

/-- The stream of an opcode. An unassigned opcode of 0xC0 to 0xFF is placed in the scalar stream
(DESIGN CHOICE, assumption 12). -/
def streamOf (opc : Nat) : Strm :=
  if opc < 0x40 then .scalar
  else if opc < 0x80 then .vector
  else if opc < 0xC0 then .matrix
  else if 0xC0 ≤ opc ∧ opc ≤ 0xC4 then .move
  else .scalar

/-- A mask of bits [hi:lo]. -/
def maskBits (hi lo : Nat) : Nat := (2 ^ (hi + 1 - lo) - 1) * 2 ^ lo

/-- The bits of the first word that an instruction uses; every other bit is RSV for it (R152). -/
def usedMask (w : BitVec 64) : Nat :=
  let opc := opcOf w
  let base := maskBits 8 0
  let p := base + maskBits 11 9
  let alu := p + maskBits 22 12 + (if w.getLsbD 12 then maskBits 63 32 else maskBits 27 23)
  let vpz := p + maskBits 12 12
  let vop2 := maskBits 42 42 + (if w.getLsbD 42 then maskBits 41 37 else maskBits 24 21)
  if opc ≤ 0x01 then p
  else if opc ≤ 0x0E then alu
  else match opc with
  | 0x0F => p + maskBits 17 13
  | 0x10 => p + maskBits 22 13 + maskBits 31 28 + maskBits 63 32
  | 0x11 => p + maskBits 27 18 + maskBits 29 28 + maskBits 31 31 + maskBits 63 32
  | 0x12 => p + maskBits 27 18 + maskBits 31 28 + maskBits 63 32
  | 0x13 => p + maskBits 17 13 + maskBits 63 32
  | 0x14 => p + maskBits 22 13 + maskBits 63 32
  | 0x15 => p + maskBits 17 13 + maskBits 63 32
  | 0x16 => p + maskBits 22 18 + maskBits 63 32
  | 0x43 => vpz + maskBits 20 13 + maskBits 28 25 + maskBits 32 29 + vop2
  | 0x46 => vpz + maskBits 20 13 + maskBits 32 29
  | 0x47 => vpz + maskBits 20 13 + maskBits 32 29
  | 0x4D => vpz + maskBits 20 17 + maskBits 32 29 + vop2 + maskBits 49 43
  | 0x4E => vpz + maskBits 20 13 + maskBits 36 25 + maskBits 61 52
  | 0x4F => p + maskBits 20 13 + maskBits 32 29 + maskBits 49 46
  | 0x50 => vpz + maskBits 20 13 + maskBits 32 29
  | 0x51 => vpz + maskBits 20 13 + maskBits 32 29
  | 0x52 => vpz + maskBits 20 13 + maskBits 32 29
  | 0x53 => vpz + maskBits 16 13 + maskBits 41 37 + maskBits 46 46 + maskBits 63 52
  | 0x54 => p + maskBits 20 17 + maskBits 41 37 + maskBits 46 46 + maskBits 63 52
  | 0x55 => vpz + maskBits 20 13 + maskBits 32 29 + maskBits 41 37
  | 0x56 => p + maskBits 24 17 + maskBits 32 29 + maskBits 41 37
  | 0x57 => vpz + maskBits 16 13 + maskBits 32 29 + maskBits 41 37
  | 0x58 => vpz + maskBits 20 17 + maskBits 32 29 + maskBits 41 37 + maskBits 63 52
  | 0x59 => vpz + maskBits 20 13
  | 0x5A =>
    let fn := (w.extractLsb' 46 4).toNat
    base + maskBits 49 43 + (if fn ≤ 5 then maskBits 54 52 else 0) + (if fn ≤ 3 then maskBits 57 55 else 0)
  | 0x80 => base + maskBits 33 12
  | 0x81 => base + maskBits 25 12
  | 0x82 => base + maskBits 15 12
  | 0xC0 => p + maskBits 34 12
  | 0xC1 => p + maskBits 36 12
  | 0xC2 => p + maskBits 24 12 + maskBits 41 30
  | 0xC3 => p + maskBits 23 12 + maskBits 41 25
  | 0xC4 => p + maskBits 16 12
  | 0xD0 => p + maskBits 28 12
  | 0xD1 => p + maskBits 21 12 + maskBits 31 27
  | 0xD2 => p + maskBits 31 12
  | 0xD3 => p + maskBits 21 12 + maskBits 31 27
  | 0xD4 => p + maskBits 31 12
  | 0xD5 => p + maskBits 31 12
  | 0xD6 => p + maskBits 21 12 + maskBits 28 27
  | _ =>
    -- VADD to VMAX and VAND to VSHR
    vpz + maskBits 20 13 + maskBits 32 29 + vop2

/-- The bits of the second word that an instruction uses (R153, R163, R164, R180). -/
def usedMask2 (opc : Nat) : Nat :=
  match opc with
  | 0x0F => maskBits 63 0
  | 0x80 => maskBits 32 0
  | 0x81 => maskBits 35 0
  | 0xC0 => maskBits 59 0
  | _ => 0

/-- Sub-operation values an opcode defines (R152, R155, R156, R168, R172, R176, R189, R198). -/
def funcOk (w : BitVec 64) : Bool :=
  let opc := opcOf w
  let fs := (w.extractLsb' 28 4).toNat
  let fv := (w.extractLsb' 46 4).toNat
  match opc with
  | 0x12 => decide (fs ≤ 5)
  | 0x4D => decide (fv ≤ 3)
  | 0x4F => decide (fv ≤ 2)
  | 0x5A => decide (fv ≤ 7)
  | 0xC0 => decide ((w.extractLsb' 33 2).toNat ≤ 1)
  | 0xC2 => decide (2 ≤ (w.extractLsb' 22 2).toNat)
  | 0xC3 => decide (2 ≤ (w.extractLsb' 22 2).toNat)
  | _ =>
    if opc = 0xD1 ∨ opc = 0xD2 ∨ opc = 0xD3 ∨ opc = 0xD4 ∨ opc = 0xD5 then
      let x := (w.extractLsb' 29 3).toNat
      x == 0 || decide (4 ≤ x)
    else true

/-- Legality of an instruction (R152): assigned opcode, W2, reserved bits zero, sub-operation defined. -/
def insnLegal (w0 w1 : BitVec 64) : Bool :=
  let opc := opcOf w0
  let n := opcWords opc
  decide (1 ≤ n) && (w2Of w0 == decide (n = 2)) &&
    decide (w0.toNat &&& usedMask w0 = w0.toNat) &&
    (decide (n = 1) || decide (w1.toNat &&& usedMask2 opc = w1.toNat)) && funcOk w0

end Machine

end Sys2Proof
end

