-- ==== Sys2Proof/Machine/Formats.lean ====
section
/-!
DEFINITION. Machine/Formats.lean: number formats and conversion (chapter 03, R64 to R102): exact values,
layouts, rounding, range checks, the stochastic generator, block scaling and the AMAX roll. Pure functions.
-/

namespace Sys2Proof.Machine

/-- The exact value of a floating-point or integer element: a NaN (signalling or quiet, R70), an infinity,
or the dyadic number m * 2^e. Minus zero is +0 (R69). -/
inductive FVal
  | nan (sig : Bool)
  | inf (neg : Bool)
  | fin (m : Int) (e : Int)
deriving DecidableEq, Repr

/-- The layout of a floating-point format (R67, R76). `special`: 0 no special code, 1 the all-ones code is
NaN (E4M3), 2 IEEE style. `flush`: subnormals read as +0 and are flushed (R68). -/
structure FFmt where
  ebits : Nat
  mbits : Nat
  bias : Nat
  special : Nat
  flush : Bool
deriving DecidableEq, Repr

/-- Format flags (R86): overflow, underflow, invalid. -/
structure FFlags where
  ovf : Bool
  unf : Bool
  inv : Bool
deriving DecidableEq, Repr

/-- No flag. -/
def FFlags.none : FFlags := ⟨false, false, false⟩

/-- The union of two sets of flags. -/
def FFlags.or (a b : FFlags) : FFlags := ⟨a.ovf || b.ovf, a.unf || b.unf, a.inv || b.inv⟩

/-- The stochastic generator: its state and its count of unused draws (R83). -/
structure SrGen where
  seed : BitVec 64
  left : Nat
deriving DecidableEq, Repr

/-- Bits [hi:lo] of a number. -/
def bitsOf (w hi lo : Nat) : Nat := (w >>> lo) % 2 ^ (hi + 1 - lo)

/-- The layouts of slots 0 to 9 (R67) and of slot 15 from its descriptor word (R76); none for the others. -/
def floatFmt (slot desc : Nat) : Option FFmt :=
  match slot with
  | 0 => some ⟨11, 52, 1023, 2, true⟩
  | 1 => some ⟨8, 23, 127, 2, true⟩
  | 2 => some ⟨8, 10, 127, 2, true⟩
  | 3 => some ⟨8, 7, 127, 2, false⟩
  | 4 => some ⟨5, 10, 15, 2, false⟩
  | 5 => some ⟨4, 3, 7, 1, false⟩
  | 6 => some ⟨5, 2, 15, 2, false⟩
  | 7 => some ⟨3, 2, 3, 0, false⟩
  | 8 => some ⟨2, 3, 1, 0, false⟩
  | 9 => some ⟨2, 1, 1, 0, false⟩
  | 15 =>
    let wd := bitsOf desc 19 16
    let eb := bitsOf desc 22 20
    some ⟨eb, wd - 1 - eb, bitsOf desc 28 24, bitsOf desc 30 29, false⟩
  | _ => none

/-- Whether a slot holds integers (R64, R95). -/
def slotIsInt (slot : Nat) : Bool := slot == 10 || slot == 11 || slot == 12 || slot == 14

/-- Whether a slot is of the float class (R64). -/
def slotIsFloat (slot : Nat) : Bool := slot ≤ 9 || slot == 15

/-- Slots the array accepts as operands (R64). -/
def slotIsMatrix (slot : Nat) : Bool :=
  (2 ≤ slot && slot ≤ 12) || slot == 15

/-- Slots that may be block-scaled (R64). -/
def slotBlockable (slot : Nat) : Bool := (5 ≤ slot && slot ≤ 9) || slot == 15

/-- The limits of the user format (R76). -/
def userFmtOk (desc : Nat) : Bool :=
  let wd := bitsOf desc 19 16
  let eb := bitsOf desc 22 20
  let sp := bitsOf desc 30 29
  decide (3 ≤ wd) && decide (wd ≤ 8) && decide (1 ≤ eb) && decide (eb ≤ 5) && decide (eb + 1 ≤ wd) &&
    (sp == 0 || sp == 1 || (sp == 2 && decide (2 ≤ eb) && decide (eb + 2 ≤ wd)))

/-- The code of the largest finite value of a format, sign excluded (R67, R76). -/
def FFmt.maxCode (f : FFmt) : Nat :=
  match f.special with
  | 0 => 2 ^ (f.ebits + f.mbits) - 1
  | 1 => 2 ^ (f.ebits + f.mbits) - 2
  | _ => (2 ^ f.ebits - 1) * 2 ^ f.mbits - 1

/-- The canonical NaN (R67, R70); 0 where the format has none. R67's table names it for slots 0 to 9 only: for slot 15
the model takes the positive all-ones code under U_SPECIAL = 0b01 and the positive code of the top exponent with only the
top mantissa bit set under 0b10 (DESIGN CHOICE, log 138). -/
def FFmt.canonNaN (f : FFmt) : Nat :=
  match f.special with
  | 0 => 0
  | 1 => 2 ^ (f.ebits + f.mbits) - 1
  | _ => (2 ^ f.ebits - 1) * 2 ^ f.mbits + 2 ^ (f.mbits - 1)

/-- The code of infinity of an IEEE-style format. -/
def FFmt.infCode (f : FFmt) : Nat := (2 ^ f.ebits - 1) * 2 ^ f.mbits

/-- The position of the sign bit. -/
def FFmt.signBit (f : FFmt) : Nat := 2 ^ (f.ebits + f.mbits)

/-- The magnitude of a finite code (R67). -/
def FFmt.magOf (f : FFmt) (code : Nat) : Nat × Int :=
  let e := code / 2 ^ f.mbits
  let m := code % 2 ^ f.mbits
  if e = 0 then
    (if f.flush then 0 else m, 1 - (f.bias : Int) - f.mbits)
  else (2 ^ f.mbits + m, (e : Int) - f.bias - f.mbits)

/-- The exact value of an encoding (R67, R68, R70). -/
def FFmt.decode (f : FFmt) (w : Nat) : FVal :=
  let neg := (w / f.signBit) % 2 == 1
  let code := w % f.signBit
  if f.special = 2 ∧ code ≥ f.infCode then
    if code = f.infCode then .inf neg
    else .nan (decide (2 ≤ f.mbits) && (code % 2 ^ f.mbits) / 2 ^ (f.mbits - 1) == 0)
  else if f.special = 1 ∧ code = f.canonNaN then .nan false
  else
    let (m, e) := f.magOf code
    if m = 0 then .fin 0 0 else .fin (if neg then -(m : Int) else m) e

/-- floor(log2 |m * 2^e|) for m other than 0. -/
def expOf (m : Int) (e : Int) : Int := (Nat.log2 m.natAbs : Int) + e

/-- The exponent of the largest finite value of a format (R98, R101). -/
def FFmt.emax (f : FFmt) : Int :=
  let (m, e) := f.magOf f.maxCode
  expOf m e

/-- One step of the generator (R83). -/
def srStep (s : BitVec 64) : BitVec 64 :=
  let a := s ^^^ (s <<< 13)
  let b := a ^^^ (a >>> 7)
  b ^^^ (b <<< 17)

/-- One 16-bit draw (R83): a step when no unused draw remains, draws from bits [15:0] upward. -/
def SrGen.draw (g : SrGen) : Nat × SrGen :=
  if g.left = 0 then
    let s := srStep g.seed
    (s.toNat % 65536, ⟨s, 3⟩)
  else ((g.seed.toNat >>> (16 * (4 - g.left))) % 65536, ⟨g.seed, g.left - 1⟩)

/-- The integer multiple of the quantum 2^q nearest to mag * 2^e: round to nearest even, or stochastic with
one draw when inexact (R81 to R83). -/
def roundMag (mag : Nat) (e q : Int) (stoch : Bool) (g : SrGen) : Nat × SrGen :=
  if q ≤ e then (mag * 2 ^ (e - q).toNat, g)
  else
    let sh := (q - e).toNat
    let t := mag / 2 ^ sh
    let r := mag % 2 ^ sh
    if r = 0 then (t, g)
    else if stoch then
      let (d, g') := g.draw
      let f := r * 65536 / 2 ^ sh
      (if f + d ≥ 65536 then t + 1 else t, g')
    else if 2 * r > 2 ^ sh ∨ (2 * r = 2 ^ sh ∧ t % 2 = 1) then (t + 1, g)
    else (t, g)

/-- The result of an encoding: the code, the flags it sets, and the generator afterwards. -/
structure Enc where
  code : Nat
  flags : FFlags
  gen : SrGen
deriving DecidableEq, Repr

/-- Encoding of a finite value into a float format with rounding and range check (R68, R82, R86). -/
def FFmt.encodeFin (f : FFmt) (ovfSpecial stoch : Bool) (m e : Int) (g : SrGen) : Enc :=
  if m = 0 then ⟨0, .none, g⟩
  else
    let lead := max (expOf m e) (1 - (f.bias : Int))
    let q := lead - f.mbits
    let (n, g') := roundMag m.natAbs e q stoch g
    let base := (q + f.mbits + f.bias).toNat
    let code := base * 2 ^ f.mbits + n - 2 ^ f.mbits
    let sgn := if m < 0 then f.signBit else 0
    if code > f.maxCode then
      if ovfSpecial then
        match f.special with
        | 2 => ⟨f.infCode + sgn, ⟨true, false, false⟩, g'⟩
        | _ => ⟨f.canonNaN, ⟨true, false, false⟩, g'⟩
      else ⟨f.maxCode + sgn, ⟨true, false, false⟩, g'⟩
    else if code = 0 ∨ (f.flush ∧ code < 2 ^ f.mbits) then ⟨0, ⟨false, true, false⟩, g'⟩
    else ⟨code + sgn, .none, g'⟩

/-- Encoding of any value by a conversion (R86, R87). -/
def FFmt.encode (f : FFmt) (ovfSpecial stoch : Bool) (v : FVal) (g : SrGen) : Enc :=
  match v with
  | .nan sig => if f.special = 0 then ⟨0, ⟨false, false, true⟩, g⟩ else ⟨f.canonNaN, ⟨false, false, sig⟩, g⟩
  | .inf neg =>
    let sgn := if neg then f.signBit else 0
    if ovfSpecial ∧ f.special = 2 then ⟨f.infCode + sgn, .none, g⟩
    else if ovfSpecial ∧ f.special = 1 then ⟨f.canonNaN, ⟨true, false, false⟩, g⟩
    else ⟨f.maxCode + sgn, ⟨true, false, false⟩, g⟩
  | .fin m e => f.encodeFin ovfSpecial stoch m e g

/-- The result of an arithmetic operation written in its own format (R70, R81, R86): nearest even, and an
infinity from an infinite operand is exact. -/
def FFmt.encodeArith (f : FFmt) (ovfSpecial : Bool) (v : FVal) : Nat × FFlags :=
  match v with
  | .nan _ => (f.canonNaN, .none)
  | .inf neg => (f.infCode + (if neg then f.signBit else 0), .none)
  | .fin m e => let r := f.encodeFin ovfSpecial false m e ⟨0, 0⟩; (r.code, r.flags)

/-- Conversion into an integer format of limits [lo, hi] and the given width (R72, R86, R87). -/
def encodeInt (lo hi : Int) (width : Nat) (stoch : Bool) (v : FVal) (g : SrGen) : Enc :=
  let wrap (x : Int) : Nat := (x % (2 ^ width : Int)).toNat
  match v with
  | .nan _ => ⟨0, ⟨false, false, true⟩, g⟩
  | .inf neg => ⟨wrap (if neg then lo else hi), ⟨true, false, false⟩, g⟩
  | .fin m e =>
    if m = 0 then ⟨0, .none, g⟩
    else
      let (n, g') := roundMag m.natAbs e 0 stoch g
      let x : Int := if m < 0 then -(n : Int) else n
      if x < lo then ⟨wrap lo, ⟨true, false, false⟩, g'⟩
      else if hi < x then ⟨wrap hi, ⟨true, false, false⟩, g'⟩
      else ⟨wrap x, ⟨false, n == 0, false⟩, g'⟩

/-- Conversion to a ternary value as a digit 0, 1 (+1) or 2 (-1) (R73, R88). -/
def encodeTrit (stoch : Bool) (v : FVal) (g : SrGen) : Enc :=
  match v with
  | .nan _ => ⟨0, ⟨false, false, true⟩, g⟩
  | .inf neg => ⟨if neg then 2 else 1, ⟨true, false, false⟩, g⟩
  | .fin m e =>
    if m = 0 then ⟨0, .none, g⟩
    else
      let mag := m.natAbs
      let one := if m < 0 then 2 else 1
      -- twice the magnitude compared with 2 and 3
      let (num, den) : Nat × Nat := if 0 ≤ e then (mag * 2 ^ e.toNat, 1) else (mag, 2 ^ (-e).toNat)
      if 2 * num > 3 * den then ⟨one, ⟨true, false, false⟩, g⟩
      else if num ≥ den then ⟨one, .none, g⟩
      else
        let (n, g') := roundMag mag e 0 stoch g
        if n = 0 then ⟨0, ⟨false, true, false⟩, g'⟩ else ⟨one, .none, g'⟩

/-- FMT_DESC fields of a slot that a conversion uses (R78). -/
structure SlotDesc where
  slot : Nat
  desc : Nat
deriving DecidableEq, Repr

/-- OVF_MODE = SPECIAL. -/
def SlotDesc.ovf (d : SlotDesc) : Bool := d.desc % 2 == 1
/-- RND = stochastic. -/
def SlotDesc.stoch (d : SlotDesc) : Bool := bitsOf d.desc 2 1 == 1
/-- BLK: the block length, or 0 for none (R78). -/
def SlotDesc.block (d : SlotDesc) : Nat :=
  match bitsOf d.desc 4 3 with
  | 1 => 32
  | 2 => 16
  | _ => 0
/-- U_VALID. -/
def SlotDesc.userValid (d : SlotDesc) : Bool := bitsOf d.desc 63 63 == 1

/-- One conversion of an exact value into a slot (R81 to R88). For TP5 the code is one digit. -/
def convertTo (d : SlotDesc) (v : FVal) (g : SrGen) : Enc :=
  match d.slot with
  | 10 => encodeInt (-128) 127 8 d.stoch v g
  | 11 => encodeInt (-8) 7 4 d.stoch v g
  | 12 => encodeTrit d.stoch v g
  | 14 => encodeInt (-2147483648) 2147483647 32 d.stoch v g
  | _ =>
    match floatFmt d.slot d.desc with
    | some f =>
      let r := f.encode d.ovf d.stoch v g
      if d.slot = 2 then { r with code := r.code * 8192 } else r
    | none => ⟨0, .none, g⟩

/-- Storage width in bits of one element (R65); TP5 packs five per byte and is handled apart. -/
def elemBits (slot : Nat) : Nat :=
  match slot with
  | 0 => 64
  | 1 => 32
  | 2 => 32
  | 3 => 16
  | 4 => 16
  | 5 => 8
  | 6 => 8
  | 7 => 6
  | 8 => 6
  | 9 => 4
  | 10 => 8
  | 11 => 4
  | 12 => 8
  | 13 => 8
  | 14 => 32
  | _ => 8

/-- Bytes taken by n elements of a slot, rounded up to a whole byte or group (R66). -/
def elemBytes (slot n : Nat) : Nat :=
  match slot with
  | 12 => (n + 4) / 5
  | 7 => (n + 3) / 4 * 3
  | 8 => (n + 3) / 4 * 3
  | _ => (n * elemBits slot + 7) / 8

/-- Two's complement value of the low `width` bits. -/
def signedOf (w width : Nat) : Int :=
  let x := w % 2 ^ width
  if 2 * x ≥ 2 ^ width then (x : Int) - 2 ^ width else x

/-- The digit of trit i of a TP5 byte (R73, R74): value and whether the byte is invalid. -/
def tritOf (b i : Nat) : Int × Bool :=
  if b ≥ 243 then (0, true)
  else
    match b / 3 ^ i % 3 with
    | 1 => (1, false)
    | 2 => (-1, false)
    | _ => (0, false)

/-- Element i of a row of bytes held as a little-endian number, as an exact value, with the invalid flag of
R70 and R74. -/
def readElem (slot desc row i : Nat) : FVal × Bool :=
  match slot with
  | 12 =>
    let (t, bad) := tritOf (bitsOf row (8 * (i / 5) + 7) (8 * (i / 5))) (i % 5)
    (.fin t 0, bad)
  | 10 => (.fin (signedOf (row >>> (8 * i)) 8) 0, false)
  | 11 => (.fin (signedOf (row >>> (4 * i)) 4) 0, false)
  | 14 => (.fin (signedOf (row >>> (32 * i)) 32) 0, false)
  | _ =>
    match floatFmt slot desc with
    | some f =>
      let w := (row >>> (elemBits slot * i)) % 2 ^ elemBits slot
      let w' := if slot = 2 then w / 8192 else w
      let v := f.decode (w' % 2 ^ (1 + f.ebits + f.mbits))
      (v, match v with | .nan s => s | _ => false)
    | none => (.fin 0 0, false)

/-- The value of a UE8M0 scale byte: its exponent, or none for NaN (R75). -/
def scaleOf (b : Nat) : Option Int := if b = 255 then none else some ((b : Int) - 127)

/-- v * 2^k exactly. -/
def FVal.scale (v : FVal) (k : Int) : FVal :=
  match v with
  | .fin m e => .fin m (e + k)
  | v => v

/-- Negation. -/
def FVal.neg : FVal → FVal
  | .fin m e => .fin (-m) e
  | .inf b => .inf (!b)
  | v => v

/-- The exact sum of two dyadic numbers. -/
def addFin (m1 e1 m2 e2 : Int) : Int × Int :=
  if e1 ≤ e2 then (m1 + m2 * 2 ^ (e2 - e1).toNat, e1)
  else (m1 * 2 ^ (e1 - e2).toNat + m2, e2)

/-- Exact addition with the invalid case of R70. -/
def FVal.add (a b : FVal) : FVal × Bool :=
  match a, b with
  | .nan s, .nan t => (.nan false, s || t)
  | .nan s, _ => (.nan false, s)
  | _, .nan t => (.nan false, t)
  | .inf s, .inf t => if s = t then (.inf s, false) else (.nan false, true)
  | .inf s, _ => (.inf s, false)
  | _, .inf t => (.inf t, false)
  | .fin m1 e1, .fin m2 e2 => let (m, e) := addFin m1 e1 m2 e2; (.fin m e, false)

/-- Exact multiplication with the invalid case of R70. -/
def FVal.mul (a b : FVal) : FVal × Bool :=
  match a, b with
  | .nan s, .nan t => (.nan false, s || t)
  | .nan s, _ => (.nan false, s)
  | _, .nan t => (.nan false, t)
  | .inf s, .inf t => (.inf (s != t), false)
  | .inf s, .fin m _ => if m = 0 then (.nan false, true) else (.inf (s != decide (m < 0)), false)
  | .fin m _, .inf t => if m = 0 then (.nan false, true) else (.inf (t != decide (m < 0)), false)
  | .fin m1 e1, .fin m2 e2 => (.fin (m1 * m2) (e1 + e2), false)

/-- a < b on values that are not NaN. -/
def FVal.lt (a b : FVal) : Bool :=
  match a, b with
  | .nan _, _ => false
  | _, .nan _ => false
  | .inf s, .inf t => s && !t
  | .inf s, _ => s
  | _, .inf t => !t
  | .fin m1 e1, .fin m2 e2 => decide ((addFin (-m1) e1 m2 e2).1 > 0)

/-- a = b on values that are not NaN (R71). -/
def FVal.eqv (a b : FVal) : Bool :=
  match a, b with
  | .nan _, _ => false
  | _, .nan _ => false
  | .inf s, .inf t => s == t
  | .inf _, _ => false
  | _, .inf _ => false
  | .fin m1 e1, .fin m2 e2 => decide ((addFin (-m1) e1 m2 e2).1 = 0)

/-- Whether a value is a NaN. -/
def FVal.isNaN : FVal → Bool
  | .nan _ => true
  | _ => false

/-- Whether a value is a signalling NaN. -/
def FVal.isSig : FVal → Bool
  | .nan s => s
  | _ => false

/-- A NaN read as a quiet one. -/
def FVal.quiet : FVal → FVal
  | .nan _ => .nan false
  | v => v

/-- Whether a value is a NaN or an infinity. -/
def FVal.isSpecial : FVal → Bool
  | .fin _ _ => false
  | _ => true

/-- The value of an ACCF cell of 34 bits: bits [31:0] and the extension above them (R92). -/
def accfDecode (c : Nat) : FVal :=
  let frac := c % 2 ^ 23
  let ex := (c >>> 23) % 256 + (c >>> 32) % 4 * 256
  let neg := (c >>> 31) % 2 == 1
  if ex = 0 then .fin 0 0
  else if ex = 0x3FF then (if frac = 0 then .inf neg else .nan false)
  else
    let m : Int := 2 ^ 23 + frac
    .fin (if neg then -m else m) ((ex : Int) - 511 - 23)

/-- An ACCF cell from sign, 10-bit exponent and fraction (R92). -/
def accfPack (neg : Bool) (ex frac : Nat) : Nat :=
  frac % 2 ^ 23 + (ex % 256) * 2 ^ 23 + (if neg then 2 ^ 31 else 0) + (ex / 256 % 4) * 2 ^ 32

/-- Rounding of an exact value into ACCF (R92, R93). R92 lets a NaN cell hold any nonzero fraction: the model stores a
positive one of fraction 2^22, to which `accfMark` adds bit 0 for a NaN that came from an invalid operation (DESIGN
CHOICE, log 139). -/
def accfEncode (v : FVal) : Nat :=
  match v with
  | .nan _ => accfPack false 0x3FF (2 ^ 22)
  | .inf neg => accfPack neg 0x3FF 0
  | .fin m e =>
    if m = 0 then 0
    else
      let q := expOf m e - 23
      let (n, _) := roundMag m.natAbs e q false ⟨0, 0⟩
      let (n', q') : Nat × Int := if n = 2 ^ 24 then (2 ^ 23, q + 1) else (n, q)
      let ex := q' + 23 + 511
      if ex ≤ 0 then 0
      else if ex ≥ 0x3FF then accfPack (decide (m < 0)) 0x3FF 0
      else accfPack (decide (m < 0)) ex.toNat (n' - 2 ^ 23)

/-- A NaN cell whose value came from 0 times infinity or from infinities of opposite sign (R94): its encoding carries
the fact, so that a save record keeps it (log 139). -/
def accfInvalid (c : BitVec 34) : Bool := (accfDecode c.toNat).isNaN && c.getLsbD 0

/-- A cell with that mark set when it is a NaN. -/
def accfMark (inv : Bool) (c : BitVec 34) : BitVec 34 :=
  if inv && (accfDecode c.toNat).isNaN then c ||| 1 else c

/-- The magnitude of an accumulator value in ACCF form, (EXP, FRAC) joined as EXP * 2^23 + FRAC (R100). -/
def accfMag (v : FVal) : Nat :=
  let c := accfEncode (match v with | .fin m e => .fin (m.natAbs : Int) e | .inf _ => .inf false | v => v)
  (c % 2 ^ 23) + ((c >>> 23) % 256 + (c >>> 32) % 4 * 256) * 2 ^ 23

/-- Lengths of the accumulation groups of unscaled operands (R93). -/
def groupLen (slot : Nat) : Nat :=
  match slot with
  | 2 => 8
  | 3 => 16
  | 4 => 16
  | _ => 32

/-- Conversion of one block of values into a block-scalable slot (R98): the scale byte, the codes, flags and
the generator. -/
def convertBlock (d : SlotDesc) (vs : List FVal) (g : SrGen) : Nat × List Nat × FFlags × SrGen :=
  match floatFmt d.slot d.desc with
  | none => (0, [], .none, g)
  | some f =>
    if vs.any FVal.isSpecial then
      (255, vs.map (fun _ => f.canonNaN), ⟨false, false, true⟩, g)
    else
      let tops := vs.filterMap (fun v => match v with
        | .fin m e => if m = 0 then none else some (expOf m e)
        | _ => none)
      match tops with
      | [] => (0, vs.map (fun _ => 0), .none, g)
      | t :: ts =>
        let e0 := ts.foldl max t - f.emax
        let ovf := decide (e0 > 127)
        let e := max (-127) (min 127 e0)
        let (cs, fl, g') := vs.foldl (fun (acc : List Nat × FFlags × SrGen) v =>
            let r := convertTo d (v.scale (-e)) acc.2.2
            (r.code :: acc.1, acc.2.1.or r.flags, r.gen)) ([], FFlags.none, g)
        ((e + 127).toNat, cs.reverse, fl.or ⟨ovf, false, false⟩, g')

/-- e_dmax of a destination slot (R101). -/
def eDmax (d : SlotDesc) : Int :=
  match d.slot with
  | 10 => 6
  | 11 => 2
  | 12 => 0
  | 14 => 30
  | _ =>
    match floatFmt d.slot d.desc with
    | some f => f.emax
    | none => 0

/-- The roll of an AMAX register (R101). `desc` gives the descriptor of DSLOT. Answers the register
afterwards and whether FMT_INV is set. -/
def amaxRoll (reg : Nat) (desc : Nat → Nat) : Nat × Bool :=
  let ex := bitsOf reg 32 23
  let dslot := bitsOf reg 55 52
  let margin := bitsOf reg 51 49
  let keep := bitsOf reg 39 34 * 2 ^ 34 + bitsOf reg 62 48 * 2 ^ 48
  if ex = 0 ∨ ex = 0x3FF ∨ dslot = 13 then
    (keep + bitsOf reg 47 40 * 2 ^ 40, dslot == 13)
  else
    let s := eDmax ⟨dslot, desc dslot⟩ - ((ex : Int) - 511) - 1 - margin
    let c := max (-127) (min 127 s)
    (keep + (c % 256).toNat * 2 ^ 40, false)

end Sys2Proof.Machine
end

