-- ==== Sys2Proof/Machine/RegMap.lean ====
section
/-!
DEFINITION. Machine/RegMap.lean: the register map of the module: every register of chapters 00 to 20 with its
address (chapter 21, R503), its fields, their types (R10), their reset values and the smallest reset that
returns each field to its reset value (R506 and the field descriptions).
-/

namespace Sys2Proof.Machine

/-- Register field types of R10 (reserved bits are the bits no field covers). -/
inductive FTy | rw | ro | w1c | wo | rws
deriving DecidableEq, Repr

/-- The smallest reset that returns a field to its reset value (R506). `never` marks fields loaded from
firmware records ("from settings store", "per part", R13), `ep` the Claden-C endpoint reset. -/
inductive RDom | tile | cont | mod | cold | ep | never
deriving DecidableEq, Repr

/-- A bit field [hi:lo] (R7). -/
structure Fld where
  hi : Nat
  lo : Nat
deriving DecidableEq, Repr

/-- A field of a register with its type and reset domain. -/
structure FldInfo where
  hi : Nat
  lo : Nat
  ty : FTy
  dom : RDom
deriving DecidableEq, Repr

/-- The same field `k` strides higher (arrays of fields inside one register). -/
def Fld.shift (f : Fld) (stride k : Nat) : Fld := ⟨f.hi + stride * k, f.lo + stride * k⟩

/-- The names of the registers. -/
inductive RegId
  /-- 00 R5. -/
  | KST_ASSY_INFO
  /-- 16 R409. -/
  | KST_DIE_INFO
  /-- 02 R41. -/
  | KST_MOD_ID
  /-- 01 R23. -/
  | KST_FC_CNT
  /-- 01 R27. -/
  | KST_PWR_MODE
  /-- 01 R31. -/
  | KST_POLICY_OWN
  /-- 02 R56. -/
  | ATTR_INVAL
  /-- 02 R57. -/
  | RAW_HBM_ATTR
  /-- 20 R500. -/
  | KST_BOARD_STAT
  /-- 09 R253. -/
  | KST_ORD_STAT
  /-- 08 R231. -/
  | KST_COLL_ID
  /-- 07 R201. -/
  | KST_COLL_WIN
  /-- 08 R231. -/
  | KST_COLL_MEMB
  /-- 08 R231. -/
  | KST_COLL_BUF
  /-- 08 R231. -/
  | KST_COLL_BUSY
  /-- 08 R231. -/
  | KST_REVOKE_CNT
  /-- 08 R231. -/
  | KST_REVOKE_ENT
  /-- 13 R351. -/
  | PLC_PT_BASE
  /-- 13 R351. -/
  | PLC_OBJ_BASE
  /-- 13 R351. -/
  | PLC_FAR_CFG
  /-- 13 R351. -/
  | PLC_AGE_CTL
  /-- 13 R351. -/
  | PLC_POOL_STAT
  /-- 13 R351. -/
  | PLC_STAT
  /-- 17 R434. -/
  | TNS_CAP
  /-- 17 R434. -/
  | TNS_EST
  /-- 17 R434. -/
  | TNS_EVENT
  /-- 17 R434. -/
  | TNS_DEFER
  /-- 17 R434. -/
  | KST_PD_CTL
  /-- 17 R434. -/
  | KST_KC_TARGET
  /-- 15 R388. -/
  | KST_CORE_CTL
  /-- 15 R388. -/
  | KST_CORE_STAT
  /-- 15 R388. -/
  | KST_QS_EXCL
  /-- 15 R388. -/
  | KST_QS_EXCL_ACT
  /-- 15 R388. -/
  | KST_HART_STAT
  /-- 18 R462. -/
  | KST_ERR_SUM
  /-- 18 R462. -/
  | KST_ERR_LOG_STAT
  /-- 18 R462. -/
  | KST_ERR_LOG_IDX
  /-- 18 R462. -/
  | KST_ERR_LOG_ENT
  /-- 18 R462. -/
  | KST_RAS_CTL
  /-- 18 R462. -/
  | KST_RAS_STAT
  /-- 18 R462. -/
  | KST_CORE_RETIRED
  /-- 18 R462. -/
  | KST_GAUGE_CTL
  /-- 18 R462. -/
  | KST_GAUGE_REQ
  /-- 18 R462. -/
  | KST_GAUGE_STAT
  /-- 18 R462. -/
  | KST_RETIRE
  /-- 19 R485. -/
  | KST_BOOT_STAT
  /-- 19 R485. -/
  | KST_BOOT_CTL
  /-- 19 R485. -/
  | KST_SLOT
  /-- 19 R485. -/
  | KST_SET_CTL
  /-- 19 R485. -/
  | KST_SET_STAT
  /-- 19 R485. -/
  | KST_ID_STAT
  /-- 14 R375. -/
  | KST_PARK
  /-- 16 R409. -/
  | KST_CLD_PORT_STAT
  /-- 16 R409. -/
  | KST_CLD_PORT_ERR
  /-- 16 R409. -/
  | KST_CLD_PORT_CTL
  /-- 10 R278. -/
  | CORE_COH_STAT
  /-- 10 R278. -/
  | SYSC_COH_STAT
  /-- 18 R462. -/
  | KST_ERR_STATUS
  /-- 18 R462. -/
  | KST_ERR_ADDR
  /-- 18 R462. -/
  | KST_ERR_SYND
  /-- 18 R462. -/
  | KST_ERR_TIME
  /-- 01 R27. -/
  | CTX_MODE
  /-- 09 R253. -/
  | CTX_RSV_CTL
  /-- 13 R351. -/
  | CTX_POOL
  /-- 15 R387. -/
  | KST_MBOX_CTL
  /-- 15 R387. -/
  | KST_MBOX_ARG_OFF
  /-- 15 R387. -/
  | KST_MBOX_STAT
  /-- 15 R388. -/
  | KST_MBOX_INT
  /-- 14 R375. -/
  | RING_BASE
  /-- 14 R375. -/
  | RING_CPL
  /-- 14 R375. -/
  | RING_CTL
  /-- 14 R375. -/
  | RING_STAT
  /-- 14 R375. -/
  | RING_ABORT
  /-- 14 R375. -/
  | RING_DB
  /-- 16 R409. -/
  | CLX_RT
  /-- 16 R409. -/
  | CLX_LOST
  /-- 16 R409. -/
  | CLX_STAY_CFG
  /-- 01 R23. -/
  | SPAN_FC_CNT
  /-- 01 R23. -/
  | SPAN_AC_CNT
  /-- 16 R409. -/
  | SPAN_DIE_INFO
  /-- 04 R126. -/
  | SPAN_SPARE_MAP
  /-- 04 R126. -/
  | SPAN_TILE_LOST
  /-- 11 R298. -/
  | SPAN_CACHE_CTL
  /-- 11 R298. -/
  | SPAN_CACHE_STAT
  /-- 11 R298. -/
  | SPAN_CACHE_PERF
  /-- 11 R298. -/
  | SPAN_CMAINT_CTL
  /-- 11 R298. -/
  | SPAN_CMAINT_ADDR
  /-- 11 R298. -/
  | SPAN_CMAINT_LEN
  /-- 11 R298. -/
  | SPAN_CMAINT_SIG
  /-- 11 R298. -/
  | SPAN_CMAINT_STAT
  /-- 10 R278. -/
  | SPAN_COH_STAT
  /-- 13 R351. -/
  | TR_CTL
  /-- 13 R351. -/
  | TR_WIN
  /-- 13 R351. -/
  | TR_SYNC
  /-- 08 R231. -/
  | TR_Q_BASE
  /-- 13 R351. -/
  | TR_Q_STAT
  /-- 13 R351. -/
  | TR_STAT
  /-- 13 R351. -/
  | TR_FLAGS
  /-- 08 R231. -/
  | TR_DB
  /-- 17 R434. -/
  | SPAN_PWR_CTL
  /-- 17 R434. -/
  | SPAN_PWR_STAT
  /-- 17 R434. -/
  | SPAN_DROOP_STAT
  /-- 17 R434. -/
  | SPAN_VF_CURVE
  /-- 16 R409. -/
  | SPAN_CLD_PORT_STAT
  /-- 16 R409. -/
  | SPAN_CLD_PORT_ERR
  /-- 16 R409. -/
  | SPAN_CLD_PORT_CTL
  /-- 18 R462. -/
  | SPAN_ERR_STATUS
  /-- 18 R462. -/
  | SPAN_ERR_ADDR
  /-- 18 R462. -/
  | SPAN_ERR_SYND
  /-- 18 R462. -/
  | SPAN_ERR_TIME
  /-- 05 R148. -/
  | TILE_CTL
  /-- 05 R148. -/
  | TILE_STAT
  /-- 05 R148. -/
  | TILE_ENTRY
  /-- 05 R148. -/
  | TILE_ARG
  /-- 05 R148. -/
  | TILE_EXC
  /-- 05 R148. -/
  | TILE_EXC_ADDR
  /-- 05 R148. -/
  | TILE_SAVE_BASE
  /-- 05 R148. -/
  | TILE_IMEM_SRC
  /-- 05 R148. -/
  | TILE_IMEM_LOAD
  /-- 05 R148. -/
  | TILE_PROG_ID
  /-- 07 R201. -/
  | TILE_STAY_WIN
  /-- 07 R201. -/
  | TILE_MOVE_STAT
  /-- 07 R201. -/
  | TILE_EPOCH
  /-- 04 R126. -/
  | TILE_MMA_CTL
  /-- 04 R126. -/
  | TILE_MMA_STAT
  /-- 04 R126. -/
  | TILE_MMA_PERF
  /-- 04 R126. -/
  | TILE_MMA_KSTEP
  /-- 03 R88. -/
  | TILE_FMT_FLAGS
  /-- 03 R89. -/
  | TILE_FMT_CTL
  /-- 03 R83. -/
  | TILE_SR_SEED
  /-- 03 R100. -/
  | TILE_AMAX
  /-- 03 R78. -/
  | FMT_DESC
  /-- 01 R23. -/
  | PIER_FC_CNT
  /-- 16 R409. -/
  | PIER_DIE_INFO
  /-- 08 R231. -/
  | PIER_EPOCH_STAT
  /-- 08 R231. -/
  | LAT_FLAGS
  /-- 08 R231. -/
  | LAT_STAT
  /-- 08 R231. -/
  | LAT_Q_BASE
  /-- 08 R231. -/
  | LAT_Q_CTL
  /-- 08 R231. -/
  | LAT_Q_STAT
  /-- 08 R231. -/
  | LAT_DB
  /-- 16 R409. -/
  | CLX_LINK_STAT
  /-- 16 R409. -/
  | CLX_LINK_ERR
  /-- 16 R409. -/
  | CLX_LINK_CTL
  /-- 16 R409. -/
  | PIER_CLD_PORT_STAT
  /-- 16 R409. -/
  | PIER_CLD_PORT_ERR
  /-- 16 R409. -/
  | PIER_CLD_PORT_CTL
  /-- 14 R375. -/
  | P0_CLC_CFG
  /-- 14 R375. -/
  | P0_CLC_STAT
  /-- 14 R375. -/
  | P0_CLC_ERR
  /-- 02 R58. -/
  | RAW_HOST_CFG
  /-- 10 R278. -/
  | FAR_HOME_DIR_STAT
  /-- 10 R278. -/
  | FAR_HOME_DIR_CNT
  /-- 10 R278. -/
  | FAR_HOME_DIR_ERR
  /-- 10 R278. -/
  | FAR_HOME_DIR_CTL
  /-- 18 R462. -/
  | PIER_ERR_STATUS
  /-- 18 R462. -/
  | PIER_ERR_ADDR
  /-- 18 R462. -/
  | PIER_ERR_SYND
  /-- 18 R462. -/
  | PIER_ERR_TIME
  /-- 12 R317. -/
  | HBM_THR_CURVE
  /-- 12 R317. -/
  | HBM_THR_CTL
  /-- 12 R317. -/
  | HBM_SCRUB_CTL
  /-- 12 R317. -/
  | HBM_SCRUB_STAT
  /-- 12 R317. -/
  | HBM_RETIRE_CTL
  /-- 12 R317. -/
  | HBM_REGION
  /-- 12 R317. -/
  | HBM_STK_STAT
  /-- 12 R317. -/
  | HBM_THR_STAT
  /-- 12 R317. -/
  | HBM_ERR_CNT
  /-- 12 R317. -/
  | HBM_PPR_STAT
  /-- 10 R278. -/
  | HBM_HOME_DIR_STAT
  /-- 10 R278. -/
  | HBM_HOME_DIR_CNT
  /-- 10 R278. -/
  | HBM_HOME_DIR_ERR
  /-- 10 R278. -/
  | HBM_HOME_DIR_CTL
  /-- 18 R462. -/
  | HBM_ERR_STATUS
  /-- 18 R462. -/
  | HBM_ERR_ADDR
  /-- 18 R462. -/
  | HBM_ERR_SYND
  /-- 18 R462. -/
  | HBM_ERR_TIME
  /-- 12 R317. -/
  | HBM_FCLASS
deriving DecidableEq, Repr

/-- What the map says of one register: base address of the first copy, the (count, stride) of each array
dimension, its fields and its reset value per copy. -/
structure RegInfo where
  base : Nat
  dims : List (Nat × Nat)
  flds : List FldInfo
  rst : Assembly → List Nat → BitVec 64

/-- Rows 0 to 17 of the retire table at reset (R443, rows 8 to 16 from R408). Packed as
INC [7:0], THRESH [23:8], LEAK [39:24], LEAK_UNIT [41:40], WIN [42], ACTION [51:48] (R462). -/
def retireRow (inc thresh leak unit win action : Nat) : BitVec 64 :=
  BitVec.ofNat 64 (inc + thresh * 2^8 + leak * 2^24 + unit * 2^40 + win * 2^42 + action * 2^48)

/-- The reset rows of the retire table. The ACTION codes are not numbered by the spec: they are numbered
here by the order in which the actions appear (DESIGN CHOICE, assumption 6). -/
def retireRowReset (n : Nat) : BitVec 64 :=
  match n with
  | 0 => retireRow 1 8 1 3 0 1
  | 1 => retireRow 1 3 24 3 0 1
  | 2 => retireRow 1 1 0 0 0 1
  | 3 => retireRow 1 64 1 2 0 2
  | 4 => retireRow 1 1 0 0 0 2
  | 5 => retireRow 1 4 24 3 0 3
  | 6 => retireRow 2 8 168 3 0 4
  | 7 => retireRow 1 8 168 3 0 4
  | 8 => retireRow 1 1 0 0 0 5
  | 9 => retireRow 1 1001 1 0 1 6
  | 10 => retireRow 1 3 0 0 0 7
  | 11 => retireRow 1 1 0 0 0 8
  | 12 => retireRow 1 1 0 0 0 5
  | 13 => retireRow 1 8 0 0 0 9
  | 14 => retireRow 1 64 100 0 0 10
  | 15 => retireRow 1 4 1 1 0 11
  | 16 => retireRow 1 3 0 0 0 12
  | 17 => retireRow 1 16 1 3 0 13
  | _ => 0

/-- The typical voltage curve of R422 (assumption 5: a part's own curve is in its settings store). -/
def vfTypical : List (Nat × Nat) :=
  [(400, 600), (480, 620), (560, 645), (640, 670), (700, 690), (760, 715), (820, 740), (860, 760),
   (900, 780), (940, 800), (970, 815), (1000, 835), (1020, 850), (1040, 865), (1060, 880), (1080, 900)]

/-- Point `k` of the curve as SPAN_VF_CURVEk holds it: FREQ_MHZ [10:0], VOLT_MV [21:12] (R434). -/
def vfPointReset (k : Nat) : BitVec 64 :=
  let p := vfTypical.getD k (0, 0)
  BitVec.ofNat 64 (p.1 + p.2 * 2^12)

/-- OVF_MODE at reset, "per slot" in R78: the values of the slot table of R65. -/
def fmtOvfDefault (n : Nat) : Nat := (if n ≤ 4 then 1 else 0)

/-- FMT_DESC entry `n` at reset (R78): SLOT = n, OVF_MODE the slot's default, entry 15 with the user format. -/
def fmtDescReset (n : Nat) : BitVec 64 :=
  BitVec.ofNat 64 (n * 2^8 + fmtOvfDefault n +
    (if n = 15 then 8 * 2^16 + 4 * 2^20 + 7 * 2^24 + 1 * 2^29 else 0))

/-- R5. -/
def infoKST_ASSY_INFO : RegInfo where
  base := 0x3F000000000
  dims := []
  flds := [⟨7, 0, .ro, .never⟩, ⟨11, 8, .ro, .never⟩, ⟨15, 12, .ro, .never⟩, ⟨18, 16, .ro, .never⟩, ⟨31, 20, .ro, .never⟩]
  rst := fun a _ => BitVec.ofNat 64 (a.code + 8 * 2^8 + a.stacks * 2^12 + a.piers * 2^16)
/-- R409. -/
def infoKST_DIE_INFO : RegInfo where
  base := 0x3F000000008
  dims := []
  flds := [⟨3, 0, .ro, .never⟩, ⟨7, 4, .ro, .never⟩, ⟨19, 8, .ro, .never⟩, ⟨27, 20, .ro, .never⟩, ⟨47, 32, .ro, .never⟩, ⟨55, 48, .ro, .never⟩, ⟨63, 56, .ro, .never⟩]
  rst := fun _ _ => 0x1F10003F01200002#64
/-- R41. -/
def infoKST_MOD_ID : RegInfo where
  base := 0x3F000000010
  dims := []
  flds := [⟨14, 0, .rws, .mod⟩, ⟨15, 15, .rws, .mod⟩, ⟨30, 16, .ro, .mod⟩, ⟨31, 31, .ro, .mod⟩]
  rst := fun _ _ => 0x0#64
/-- R23. -/
def infoKST_FC_CNT : RegInfo where
  base := 0x3F000000018
  dims := []
  flds := [⟨63, 0, .ro, .mod⟩]
  rst := fun _ _ => 0x0#64
/-- R27. -/
def infoKST_PWR_MODE : RegInfo where
  base := 0x3F000000020
  dims := []
  flds := [⟨1, 0, .rws, .mod⟩, ⟨2, 2, .ro, .mod⟩, ⟨3, 3, .w1c, .cold⟩]
  rst := fun _ _ => 0x0#64
/-- R31. -/
def infoKST_POLICY_OWN : RegInfo where
  base := 0x3F000000028
  dims := []
  flds := [⟨0, 0, .rw, .cont⟩, ⟨1, 1, .rw, .cont⟩, ⟨2, 2, .rw, .cont⟩, ⟨3, 3, .rw, .cont⟩, ⟨4, 4, .rw, .cont⟩, ⟨20, 16, .ro, .cont⟩]
  rst := fun _ _ => 0x0#64
/-- R56. -/
def infoATTR_INVAL : RegInfo where
  base := 0x3F000000030
  dims := []
  flds := [⟨19, 0, .rw, .mod⟩, ⟨20, 20, .rw, .mod⟩, ⟨62, 62, .ro, .mod⟩, ⟨63, 63, .wo, .mod⟩]
  rst := fun _ _ => 0x0#64
/-- R57. -/
def infoRAW_HBM_ATTR : RegInfo where
  base := 0x3F000000038
  dims := []
  flds := [⟨1, 0, .rw, .mod⟩, ⟨2, 2, .rw, .mod⟩]
  rst := fun _ _ => 0x0#64
/-- R500. -/
def infoKST_BOARD_STAT : RegInfo where
  base := 0x3F000000040
  dims := []
  flds := [⟨9, 0, .ro, .mod⟩, ⟨16, 10, .ro, .mod⟩, ⟨23, 17, .ro, .mod⟩, ⟨24, 24, .ro, .mod⟩, ⟨25, 25, .w1c, .mod⟩]
  rst := fun _ _ => 0x0#64
/-- R253. -/
def infoKST_ORD_STAT : RegInfo where
  base := 0x3F000001000
  dims := []
  flds := [⟨31, 0, .ro, .cold⟩, ⟨47, 32, .ro, .cold⟩, ⟨48, 48, .w1c, .cold⟩, ⟨49, 49, .w1c, .cold⟩]
  rst := fun _ _ => 0x0#64
/-- R231. -/
def infoKST_COLL_ID : RegInfo where
  base := 0x3F000002000
  dims := [(64, 0x8)]
  flds := [⟨15, 0, .rw, .mod⟩, ⟨16, 16, .rw, .mod⟩, ⟨17, 17, .rw, .mod⟩, ⟨18, 18, .rw, .mod⟩, ⟨19, 19, .ro, .mod⟩, ⟨20, 20, .wo, .mod⟩, ⟨31, 24, .rw, .mod⟩, ⟨47, 32, .ro, .cont⟩]
  rst := fun _ _ => 0x40000#64
/-- R201. -/
def infoKST_COLL_WIN : RegInfo where
  base := 0x3F000002200
  dims := [(64, 0x8)]
  flds := [⟨9, 0, .rw, .mod⟩, ⟨20, 10, .rw, .mod⟩, ⟨32, 21, .rw, .mod⟩, ⟨45, 33, .rw, .mod⟩]
  rst := fun _ _ => 0x0#64
/-- R231. -/
def infoKST_COLL_MEMB : RegInfo where
  base := 0x3F000002400
  dims := [(64, 0x8)]
  flds := [⟨41, 12, .rw, .mod⟩]
  rst := fun _ _ => 0x0#64
/-- R231. -/
def infoKST_COLL_BUF : RegInfo where
  base := 0x3F000002600
  dims := [(64, 0x8)]
  flds := [⟨41, 4, .rw, .mod⟩, ⟨50, 42, .rw, .mod⟩]
  rst := fun _ _ => 0x0#64
/-- R231. -/
def infoKST_COLL_BUSY : RegInfo where
  base := 0x3F000002800
  dims := []
  flds := [⟨63, 0, .ro, .cont⟩]
  rst := fun _ _ => 0x0#64
/-- R231. -/
def infoKST_REVOKE_CNT : RegInfo where
  base := 0x3F000002808
  dims := []
  flds := [⟨31, 0, .ro, .cold⟩, ⟨32, 32, .w1c, .cold⟩]
  rst := fun _ _ => 0x0#64
/-- R231. -/
def infoKST_REVOKE_ENT : RegInfo where
  base := 0x3F000002A00
  dims := [(64, 0x8)]
  flds := [⟨40, 0, .ro, .cold⟩, ⟨42, 41, .ro, .cold⟩, ⟨58, 43, .ro, .cold⟩, ⟨63, 63, .w1c, .cold⟩]
  rst := fun _ _ => 0x0#64
/-- R351. -/
def infoPLC_PT_BASE : RegInfo where
  base := 0x3F000003000
  dims := []
  flds := [⟨41, 21, .ro, .mod⟩]
  rst := fun _ _ => 0x0#64
/-- R351. -/
def infoPLC_OBJ_BASE : RegInfo where
  base := 0x3F000003008
  dims := []
  flds := [⟨41, 21, .ro, .mod⟩]
  rst := fun _ _ => 0x0#64
/-- R351. -/
def infoPLC_FAR_CFG : RegInfo where
  base := 0x3F000003010
  dims := []
  flds := [⟨0, 0, .rw, .mod⟩, ⟨20, 1, .rw, .mod⟩, ⟨51, 21, .rw, .mod⟩]
  rst := fun _ _ => 0x0#64
/-- R351. -/
def infoPLC_AGE_CTL : RegInfo where
  base := 0x3F000003018
  dims := []
  flds := [⟨7, 0, .rws, .mod⟩, ⟨15, 8, .rws, .mod⟩]
  rst := fun _ _ => 0x100A#64
/-- R351. -/
def infoPLC_POOL_STAT : RegInfo where
  base := 0x3F000003020
  dims := []
  flds := [⟨19, 0, .ro, .mod⟩, ⟨39, 20, .ro, .mod⟩, ⟨59, 40, .ro, .mod⟩]
  rst := fun _ _ => 0x0#64
/-- R351. -/
def infoPLC_STAT : RegInfo where
  base := 0x3F000003028
  dims := []
  flds := [⟨31, 0, .ro, .mod⟩, ⟨47, 32, .ro, .mod⟩, ⟨48, 48, .w1c, .cold⟩, ⟨49, 49, .ro, .mod⟩, ⟨50, 50, .w1c, .cold⟩]
  rst := fun _ _ => 0x0#64
/-- R434. -/
def infoTNS_CAP : RegInfo where
  base := 0x3F000004000
  dims := []
  flds := [⟨12, 0, .rws, .mod⟩, ⟨28, 16, .ro, .mod⟩]
  rst := fun a _ => BitVec.ofNat 64 ((match a with | .a08 => 3000 | .b10 => 3300 | .x12 => 3600) * 2^16)
/-- R434. -/
def infoTNS_EST : RegInfo where
  base := 0x3F000004008
  dims := []
  flds := [⟨12, 0, .ro, .mod⟩, ⟨28, 16, .ro, .mod⟩, ⟨44, 32, .ro, .mod⟩, ⟨55, 48, .ro, .mod⟩, ⟨56, 56, .w1c, .cold⟩]
  rst := fun _ _ => 0x80000000000000#64
/-- R434. -/
def infoTNS_EVENT : RegInfo where
  base := 0x3F000004010
  dims := []
  flds := [⟨15, 0, .ro, .cold⟩, ⟨31, 16, .ro, .cold⟩, ⟨47, 32, .ro, .cold⟩, ⟨48, 48, .ro, .cold⟩, ⟨49, 49, .w1c, .cold⟩, ⟨50, 50, .w1c, .cold⟩, ⟨51, 51, .w1c, .cold⟩]
  rst := fun _ _ => 0x0#64
/-- R434. -/
def infoTNS_DEFER : RegInfo where
  base := 0x3F000004018
  dims := []
  flds := [⟨31, 0, .ro, .mod⟩, ⟨47, 32, .ro, .mod⟩, ⟨63, 48, .ro, .mod⟩]
  rst := fun _ _ => 0x0#64
/-- R434. -/
def infoKST_PD_CTL : RegInfo where
  base := 0x3F000004020
  dims := []
  flds := [⟨7, 0, .rw, .mod⟩, ⟨15, 8, .ro, .mod⟩, ⟨23, 16, .rw, .mod⟩, ⟨31, 24, .ro, .mod⟩]
  rst := fun a _ => 0x000000000000FF00#64 ||| BitVec.ofNat 64 ((2^(2 * a.piers) - 1) * 2^24)
/-- R434. -/
def infoKST_KC_TARGET : RegInfo where
  base := 0x3F000004028
  dims := []
  flds := [⟨6, 0, .rw, .mod⟩, ⟨14, 8, .rw, .mod⟩, ⟨22, 16, .rw, .mod⟩, ⟨30, 24, .rw, .mod⟩, ⟨38, 32, .rw, .mod⟩, ⟨46, 40, .rw, .mod⟩, ⟨54, 48, .rw, .mod⟩, ⟨62, 56, .rw, .mod⟩]
  rst := fun _ _ => 0x3C3C3C3C3C3C3C3C#64
/-- R388. -/
def infoKST_CORE_CTL : RegInfo where
  base := 0x3F000005000
  dims := [(64, 0x8)]
  flds := [⟨0, 0, .wo, .mod⟩, ⟨1, 1, .rw, .mod⟩, ⟨47, 6, .rw, .mod⟩]
  rst := fun _ _ => 0x2#64
/-- R388. -/
def infoKST_CORE_STAT : RegInfo where
  base := 0x3F000005200
  dims := [(64, 0x8)]
  flds := [⟨1, 0, .ro, .mod⟩, ⟨13, 2, .ro, .mod⟩]
  rst := fun _ _ => 0x0#64
/-- R388. -/
def infoKST_QS_EXCL : RegInfo where
  base := 0x3F000005400
  dims := [(8, 0x8)]
  flds := [⟨63, 0, .rw, .mod⟩]
  rst := fun _ _ => 0x0#64
/-- R388. -/
def infoKST_QS_EXCL_ACT : RegInfo where
  base := 0x3F000005440
  dims := [(8, 0x8)]
  flds := [⟨63, 0, .ro, .mod⟩]
  rst := fun _ _ => 0x0#64
/-- R388. -/
def infoKST_HART_STAT : RegInfo where
  base := 0x3F000005480
  dims := []
  flds := [⟨3, 0, .ro, .mod⟩, ⟨23, 8, .ro, .cold⟩, ⟨31, 24, .ro, .cold⟩]
  rst := fun _ _ => 0x0#64
/-- R462. -/
def infoKST_ERR_SUM : RegInfo where
  base := 0x3F000006000
  dims := []
  flds := [⟨7, 0, .ro, .cold⟩, ⟨8, 8, .ro, .cold⟩, ⟨12, 9, .ro, .cold⟩, ⟨24, 13, .ro, .cold⟩, ⟨31, 28, .ro, .cold⟩]
  rst := fun _ _ => 0x0#64
/-- R462. -/
def infoKST_ERR_LOG_STAT : RegInfo where
  base := 0x3F000006008
  dims := []
  flds := [⟨11, 0, .ro, .cold⟩, ⟨63, 32, .ro, .cold⟩]
  rst := fun _ _ => 0x0#64
/-- R462. -/
def infoKST_ERR_LOG_IDX : RegInfo where
  base := 0x3F000006010
  dims := []
  flds := [⟨11, 0, .rw, .cold⟩]
  rst := fun _ _ => 0x0#64
/-- R462. -/
def infoKST_ERR_LOG_ENT : RegInfo where
  base := 0x3F000006018
  dims := [(4, 0x8)]
  flds := [⟨63, 0, .ro, .cold⟩]
  rst := fun _ _ => 0x0#64
/-- R462. -/
def infoKST_RAS_CTL : RegInfo where
  base := 0x3F000006038
  dims := []
  flds := [⟨5, 0, .rw, .cold⟩, ⟨6, 6, .wo, .cold⟩, ⟨8, 8, .wo, .cold⟩, ⟨9, 9, .wo, .cold⟩, ⟨26, 16, .rw, .cold⟩, ⟨37, 27, .rw, .cold⟩]
  rst := fun _ _ => 0x0#64
/-- R462. -/
def infoKST_RAS_STAT : RegInfo where
  base := 0x3F000006040
  dims := []
  flds := [⟨0, 0, .ro, .cold⟩, ⟨3, 1, .ro, .cold⟩, ⟨4, 4, .ro, .cold⟩, ⟨15, 8, .ro, .cold⟩, ⟨31, 16, .ro, .cold⟩]
  rst := fun _ _ => 0x0#64
/-- R462. -/
def infoKST_CORE_RETIRED : RegInfo where
  base := 0x3F000006048
  dims := []
  flds := [⟨63, 0, .ro, .never⟩]
  rst := fun _ _ => 0x0#64
/-- R462. -/
def infoKST_GAUGE_CTL : RegInfo where
  base := 0x3F000006050
  dims := []
  flds := [⟨8, 0, .rws, .cold⟩, ⟨13, 9, .rws, .cold⟩, ⟨15, 14, .rws, .cold⟩, ⟨18, 16, .rws, .cold⟩]
  rst := fun _ _ => 0x4BD68#64
/-- R462. -/
def infoKST_GAUGE_REQ : RegInfo where
  base := 0x3F000006058
  dims := []
  flds := [⟨0, 0, .rw, .cold⟩, ⟨3, 1, .rw, .cold⟩, ⟨10, 4, .rw, .cold⟩, ⟨57, 56, .ro, .cold⟩, ⟨62, 62, .ro, .cold⟩, ⟨63, 63, .wo, .cold⟩]
  rst := fun _ _ => 0x0#64
/-- R462. -/
def infoKST_GAUGE_STAT : RegInfo where
  base := 0x3F000006060
  dims := []
  flds := [⟨23, 0, .ro, .cold⟩, ⟨39, 24, .ro, .cold⟩, ⟨47, 40, .ro, .cold⟩, ⟨63, 48, .ro, .cold⟩]
  rst := fun _ _ => 0x0#64
/-- R462. -/
def infoKST_RETIRE : RegInfo where
  base := 0x3F000006100
  dims := [(32, 0x8)]
  flds := [⟨7, 0, .rws, .cold⟩, ⟨23, 8, .rws, .cold⟩, ⟨39, 24, .rws, .cold⟩, ⟨41, 40, .rws, .cold⟩, ⟨42, 42, .ro, .cold⟩, ⟨51, 48, .ro, .cold⟩]
  rst := fun _ ix => retireRowReset (ix.headD 0)
/-- R485. -/
def infoKST_BOOT_STAT : RegInfo where
  base := 0x3F000007000
  dims := []
  flds := [⟨3, 0, .ro, .mod⟩, ⟨4, 4, .ro, .mod⟩, ⟨5, 5, .ro, .mod⟩, ⟨6, 6, .ro, .mod⟩, ⟨15, 8, .ro, .mod⟩, ⟨31, 16, .ro, .cold⟩, ⟨63, 32, .ro, .mod⟩]
  rst := fun _ _ => 0x0#64
/-- R485. -/
def infoKST_BOOT_CTL : RegInfo where
  base := 0x3F000007008
  dims := []
  flds := [⟨0, 0, .rw, .mod⟩, ⟨1, 1, .wo, .mod⟩, ⟨2, 2, .wo, .mod⟩, ⟨3, 3, .wo, .mod⟩, ⟨4, 4, .wo, .mod⟩, ⟨5, 5, .wo, .mod⟩, ⟨23, 16, .rws, .mod⟩]
  rst := fun _ _ => 0xA0000#64
/-- R485. -/
def infoKST_SLOT : RegInfo where
  base := 0x3F000007010
  dims := [(2, 0x8)]
  flds := [⟨0, 0, .ro, .never⟩, ⟨1, 1, .ro, .mod⟩, ⟨2, 2, .ro, .never⟩, ⟨3, 3, .ro, .never⟩, ⟨15, 8, .ro, .never⟩, ⟨23, 16, .ro, .never⟩, ⟨31, 24, .ro, .never⟩, ⟨63, 32, .ro, .never⟩]
  rst := fun _ ix => if ix.headD 0 = 0 then 0x9#64 else 0x0#64
/-- R485. -/
def infoKST_SET_CTL : RegInfo where
  base := 0x3F000007020
  dims := []
  flds := [⟨3, 0, .rw, .mod⟩, ⟨62, 62, .wo, .mod⟩, ⟨63, 63, .wo, .mod⟩]
  rst := fun _ _ => 0x0#64
/-- R485. -/
def infoKST_SET_STAT : RegInfo where
  base := 0x3F000007028
  dims := []
  flds := [⟨0, 0, .ro, .mod⟩, ⟨1, 1, .ro, .mod⟩, ⟨2, 2, .ro, .mod⟩, ⟨3, 3, .ro, .never⟩, ⟨15, 8, .ro, .mod⟩, ⟨22, 16, .ro, .mod⟩, ⟨47, 32, .ro, .mod⟩, ⟨57, 48, .ro, .never⟩]
  rst := fun _ _ => 0x400000#64
/-- R485. -/
def infoKST_ID_STAT : RegInfo where
  base := 0x3F000007030
  dims := []
  flds := [⟨0, 0, .ro, .mod⟩, ⟨1, 1, .ro, .mod⟩, ⟨2, 2, .ro, .mod⟩, ⟨3, 3, .w1c, .cold⟩, ⟨7, 4, .ro, .never⟩, ⟨11, 8, .ro, .never⟩]
  rst := fun _ _ => 0x10#64
/-- R375. -/
def infoKST_PARK : RegInfo where
  base := 0x3F000008000
  dims := []
  flds := [⟨0, 0, .ro, .mod⟩, ⟨1, 1, .ro, .mod⟩, ⟨3, 2, .ro, .mod⟩, ⟨63, 32, .ro, .mod⟩]
  rst := fun _ _ => 0x0#64
/-- R409. -/
def infoKST_CLD_PORT_STAT : RegInfo where
  base := 0x3F00000A000
  dims := [(24, 0x20)]
  flds := [⟨3, 0, .ro, .cont⟩, ⟨5, 4, .ro, .cont⟩, ⟨6, 6, .ro, .never⟩, ⟨10, 8, .ro, .never⟩, ⟨31, 16, .ro, .cont⟩, ⟨39, 32, .ro, .cont⟩, ⟨51, 40, .ro, .cont⟩, ⟨55, 52, .ro, .cont⟩, ⟨59, 56, .ro, .cont⟩]
  rst := fun _ _ => 0x0#64
/-- R409. -/
def infoKST_CLD_PORT_ERR : RegInfo where
  base := 0x3F00000A008
  dims := [(24, 0x20)]
  flds := [⟨15, 0, .ro, .cont⟩, ⟨31, 16, .ro, .cont⟩, ⟨33, 32, .ro, .cont⟩, ⟨34, 34, .w1c, .cold⟩, ⟨35, 35, .w1c, .cold⟩, ⟨36, 36, .ro, .never⟩]
  rst := fun _ _ => 0x0#64
/-- R409. -/
def infoKST_CLD_PORT_CTL : RegInfo where
  base := 0x3F00000A010
  dims := [(24, 0x20)]
  flds := [⟨0, 0, .wo, .cont⟩, ⟨2, 1, .rw, .cont⟩]
  rst := fun _ _ => 0x6#64
/-- R278. -/
def infoCORE_COH_STAT : RegInfo where
  base := 0x3F00000B000
  dims := [(64, 0x8)]
  flds := [⟨31, 0, .ro, .cont⟩, ⟨47, 32, .ro, .cont⟩, ⟨55, 48, .ro, .cont⟩]
  rst := fun _ _ => 0x0#64
/-- R278. -/
def infoSYSC_COH_STAT : RegInfo where
  base := 0x3F00000B200
  dims := []
  flds := [⟨31, 0, .ro, .cont⟩, ⟨47, 32, .ro, .cont⟩, ⟨55, 48, .ro, .cont⟩]
  rst := fun _ _ => 0x0#64
/-- R462. -/
def infoKST_ERR_STATUS : RegInfo where
  base := 0x3F000009000
  dims := [(128, 0x20)]
  flds := [⟨0, 0, .w1c, .cold⟩, ⟨1, 1, .w1c, .cold⟩, ⟨2, 2, .ro, .cold⟩, ⟨7, 4, .ro, .cold⟩, ⟨15, 8, .ro, .cold⟩, ⟨31, 16, .ro, .cold⟩, ⟨39, 32, .ro, .cold⟩, ⟨63, 40, .ro, .cold⟩]
  rst := fun _ ix => BitVec.ofNat 64 ((0x2000 + ix.headD 0) * 2^16)
/-- R462. -/
def infoKST_ERR_ADDR : RegInfo where
  base := 0x3F000009008
  dims := [(128, 0x20)]
  flds := [⟨63, 0, .ro, .cold⟩]
  rst := fun _ _ => 0x0#64
/-- R462. -/
def infoKST_ERR_SYND : RegInfo where
  base := 0x3F000009010
  dims := [(128, 0x20)]
  flds := [⟨63, 0, .ro, .cold⟩]
  rst := fun _ _ => 0x0#64
/-- R462. -/
def infoKST_ERR_TIME : RegInfo where
  base := 0x3F000009018
  dims := [(128, 0x20)]
  flds := [⟨63, 0, .ro, .cold⟩]
  rst := fun _ _ => 0x0#64
/-- R27. -/
def infoCTX_MODE : RegInfo where
  base := 0x3F000010000
  dims := [(256, 0x8)]
  flds := [⟨0, 0, .rw, .mod⟩, ⟨1, 1, .rw, .mod⟩, ⟨2, 2, .rw, .mod⟩]
  rst := fun _ _ => 0x0#64
/-- R253. -/
def infoCTX_RSV_CTL : RegInfo where
  base := 0x3F000010800
  dims := [(256, 0x8)]
  flds := [⟨2, 0, .rw, .mod⟩]
  rst := fun _ _ => 0x0#64
/-- R351. -/
def infoCTX_POOL : RegInfo where
  base := 0x3F000011000
  dims := [(256, 0x8)]
  flds := [⟨19, 0, .rw, .mod⟩, ⟨39, 20, .rw, .mod⟩, ⟨59, 40, .ro, .mod⟩]
  rst := fun _ _ => 0x0#64
/-- R387. -/
def infoKST_MBOX_CTL : RegInfo where
  base := 0x3F000100000
  dims := [(257, 0x1000)]
  flds := [⟨15, 0, .rw, .mod⟩, ⟨23, 16, .rw, .mod⟩, ⟨24, 24, .rw, .mod⟩, ⟨25, 25, .rw, .mod⟩, ⟨56, 32, .rw, .mod⟩, ⟨63, 63, .wo, .mod⟩]
  rst := fun _ _ => 0x0#64
/-- R387. -/
def infoKST_MBOX_ARG_OFF : RegInfo where
  base := 0x3F000100008
  dims := [(257, 0x1000)]
  flds := [⟨26, 7, .rw, .mod⟩]
  rst := fun _ _ => 0x0#64
/-- R387. -/
def infoKST_MBOX_STAT : RegInfo where
  base := 0x3F000100010
  dims := [(257, 0x1000)]
  flds := [⟨7, 0, .ro, .mod⟩, ⟨15, 8, .ro, .mod⟩, ⟨16, 16, .ro, .mod⟩]
  rst := fun _ _ => 0x0#64
/-- R388. -/
def infoKST_MBOX_INT : RegInfo where
  base := 0x3F000100018
  dims := [(257, 0x1000)]
  flds := [⟨10, 0, .rw, .mod⟩, ⟨22, 12, .rw, .mod⟩, ⟨29, 24, .rw, .mod⟩, ⟨31, 30, .rw, .mod⟩]
  rst := fun _ _ => 0x0#64
/-- R375. -/
def infoRING_BASE : RegInfo where
  base := 0x3F000400000
  dims := [(4096, 0x8)]
  flds := [⟨3, 0, .rw, .mod⟩, ⟨4, 4, .rw, .mod⟩, ⟨51, 6, .rw, .mod⟩]
  rst := fun _ _ => 0x4#64
/-- R375. -/
def infoRING_CPL : RegInfo where
  base := 0x3F000408000
  dims := [(4096, 0x8)]
  flds := [⟨0, 0, .rw, .mod⟩, ⟨51, 3, .rw, .mod⟩]
  rst := fun _ _ => 0x0#64
/-- R375. -/
def infoRING_CTL : RegInfo where
  base := 0x3F000410000
  dims := [(4096, 0x8)]
  flds := [⟨0, 0, .rw, .mod⟩, ⟨1, 1, .rw, .mod⟩, ⟨2, 2, .rw, .mod⟩, ⟨5, 4, .rw, .mod⟩, ⟨6, 6, .rw, .mod⟩, ⟨15, 8, .rw, .mod⟩, ⟨26, 16, .rw, .mod⟩]
  rst := fun _ _ => 0x0#64
/-- R375. -/
def infoRING_STAT : RegInfo where
  base := 0x3F000418000
  dims := [(4096, 0x8)]
  flds := [⟨11, 0, .ro, .mod⟩, ⟨12, 12, .ro, .mod⟩, ⟨13, 13, .ro, .mod⟩, ⟨14, 14, .ro, .mod⟩, ⟨15, 15, .ro, .mod⟩, ⟨23, 16, .ro, .mod⟩, ⟨55, 24, .ro, .mod⟩]
  rst := fun _ _ => 0x0#64
/-- R375. -/
def infoRING_ABORT : RegInfo where
  base := 0x3F000420000
  dims := [(4096, 0x8)]
  flds := [⟨31, 0, .rw, .mod⟩, ⟨39, 32, .ro, .mod⟩, ⟨62, 62, .ro, .mod⟩, ⟨63, 63, .wo, .mod⟩]
  rst := fun _ _ => 0x0#64
/-- R375. -/
def infoRING_DB : RegInfo where
  base := 0x3F001000000
  dims := [(4096, 0x1000)]
  flds := [⟨11, 0, .wo, .mod⟩]
  rst := fun _ _ => 0x0#64
/-- R409. -/
def infoCLX_RT : RegInfo where
  base := 0x3F002000000
  dims := [(32768, 0x8)]
  flds := [⟨23, 0, .rw, .mod⟩, ⟨28, 24, .rw, .mod⟩, ⟨29, 29, .rw, .mod⟩, ⟨34, 30, .rw, .mod⟩, ⟨35, 35, .rw, .mod⟩, ⟨63, 63, .rw, .mod⟩]
  rst := fun _ _ => 0x0#64
/-- R409. -/
def infoCLX_LOST : RegInfo where
  base := 0x3F002040000
  dims := [(512, 0x8)]
  flds := [⟨63, 0, .w1c, .mod⟩]
  rst := fun _ _ => 0x0#64
/-- R409. -/
def infoCLX_STAY_CFG : RegInfo where
  base := 0x3F002041000
  dims := []
  flds := [⟨4, 0, .rws, .mod⟩, ⟨47, 16, .ro, .cont⟩]
  rst := fun _ _ => 0x10#64
/-- R23. -/
def infoSPAN_FC_CNT : RegInfo where
  base := 0x3F100000000
  dims := [(8, 0x100000000)]
  flds := [⟨63, 0, .ro, .mod⟩]
  rst := fun _ _ => 0x0#64
/-- R23. -/
def infoSPAN_AC_CNT : RegInfo where
  base := 0x3F100000008
  dims := [(8, 0x100000000)]
  flds := [⟨63, 0, .ro, .mod⟩]
  rst := fun _ _ => 0x0#64
/-- R409. -/
def infoSPAN_DIE_INFO : RegInfo where
  base := 0x3F100000010
  dims := [(8, 0x100000000)]
  flds := [⟨3, 0, .ro, .never⟩, ⟨7, 4, .ro, .never⟩, ⟨19, 8, .ro, .never⟩, ⟨27, 20, .ro, .never⟩, ⟨47, 32, .ro, .never⟩, ⟨55, 48, .ro, .never⟩, ⟨63, 56, .ro, .never⟩]
  rst := fun _ ix => 0x1F10003F01200001#64 ||| BitVec.ofNat 64 (ix.headD 0 * 16)
/-- R126. -/
def infoSPAN_SPARE_MAP : RegInfo where
  base := 0x3F100000018
  dims := [(8, 0x100000000)]
  flds := [⟨5, 0, .ro, .never⟩, ⟨21, 16, .ro, .never⟩, ⟨37, 32, .ro, .never⟩, ⟨53, 48, .ro, .never⟩, ⟨6, 6, .ro, .never⟩, ⟨22, 22, .ro, .never⟩, ⟨38, 38, .ro, .never⟩, ⟨54, 54, .ro, .never⟩, ⟨7, 7, .ro, .never⟩, ⟨23, 23, .ro, .never⟩, ⟨39, 39, .ro, .never⟩, ⟨55, 55, .ro, .never⟩, ⟨8, 8, .ro, .never⟩, ⟨24, 24, .ro, .never⟩, ⟨40, 40, .ro, .never⟩, ⟨56, 56, .ro, .never⟩]
  rst := fun _ _ => 0x0#64
/-- R126. -/
def infoSPAN_TILE_LOST : RegInfo where
  base := 0x3F100000020
  dims := [(8, 0x100000000)]
  flds := [⟨63, 0, .ro, .never⟩]
  rst := fun _ _ => 0x0#64
/-- R298. -/
def infoSPAN_CACHE_CTL : RegInfo where
  base := 0x3F100001000
  dims := [(8, 0x100000000)]
  flds := [⟨0, 0, .rw, .mod⟩, ⟨1, 1, .wo, .mod⟩, ⟨7, 4, .rw, .mod⟩]
  rst := fun _ _ => 0x0#64
/-- R298. -/
def infoSPAN_CACHE_STAT : RegInfo where
  base := 0x3F100001008
  dims := [(8, 0x100000000)]
  flds := [⟨0, 0, .ro, .cont⟩, ⟨1, 1, .ro, .cont⟩, ⟨2, 2, .w1c, .cold⟩, ⟨3, 3, .w1c, .cold⟩, ⟨17, 8, .ro, .cont⟩, ⟨43, 24, .ro, .cold⟩]
  rst := fun _ _ => 0x0#64
/-- R298. -/
def infoSPAN_CACHE_PERF : RegInfo where
  base := 0x3F100001010
  dims := [(8, 0x100000000)]
  flds := [⟨31, 0, .ro, .cont⟩, ⟨63, 32, .ro, .cont⟩]
  rst := fun _ _ => 0x0#64
/-- R298. -/
def infoSPAN_CMAINT_CTL : RegInfo where
  base := 0x3F100001018
  dims := [(8, 0x100000000)]
  flds := [⟨1, 0, .rw, .cont⟩, ⟨2, 2, .rw, .cont⟩, ⟨3, 3, .rw, .cont⟩, ⟨19, 4, .rw, .cont⟩, ⟨20, 20, .rw, .cont⟩, ⟨21, 21, .rw, .cont⟩, ⟨62, 62, .wo, .cont⟩, ⟨63, 63, .wo, .cont⟩]
  rst := fun _ _ => 0x0#64
/-- R298. -/
def infoSPAN_CMAINT_ADDR : RegInfo where
  base := 0x3F100001020
  dims := [(8, 0x100000000)]
  flds := [⟨41, 7, .rw, .cont⟩]
  rst := fun _ _ => 0x0#64
/-- R298. -/
def infoSPAN_CMAINT_LEN : RegInfo where
  base := 0x3F100001028
  dims := [(8, 0x100000000)]
  flds := [⟨34, 0, .rw, .cont⟩]
  rst := fun _ _ => 0x0#64
/-- R298. -/
def infoSPAN_CMAINT_SIG : RegInfo where
  base := 0x3F100001030
  dims := [(8, 0x100000000)]
  flds := [⟨11, 0, .rw, .cont⟩, ⟨15, 12, .rw, .cont⟩]
  rst := fun _ _ => 0x0#64
/-- R298. -/
def infoSPAN_CMAINT_STAT : RegInfo where
  base := 0x3F100001038
  dims := [(8, 0x100000000)]
  flds := [⟨0, 0, .ro, .cont⟩, ⟨1, 1, .w1c, .cont⟩, ⟨2, 2, .w1c, .cont⟩, ⟨15, 8, .ro, .cont⟩, ⟨50, 16, .ro, .cont⟩, ⟨63, 51, .ro, .cont⟩]
  rst := fun _ _ => 0x0#64
/-- R278. -/
def infoSPAN_COH_STAT : RegInfo where
  base := 0x3F100001040
  dims := [(8, 0x100000000)]
  flds := [⟨31, 0, .ro, .cont⟩, ⟨47, 32, .ro, .cont⟩, ⟨55, 48, .ro, .cont⟩]
  rst := fun _ _ => 0x0#64
/-- R351. -/
def infoTR_CTL : RegInfo where
  base := 0x3F100002000
  dims := [(8, 0x100000000)]
  flds := [⟨0, 0, .rw, .mod⟩, ⟨1, 1, .wo, .mod⟩, ⟨2, 2, .rw, .mod⟩, ⟨3, 3, .rw, .mod⟩]
  rst := fun _ _ => 0x0#64
/-- R351. -/
def infoTR_WIN : RegInfo where
  base := 0x3F100002008
  dims := [(8, 0x100000000)]
  flds := [⟨1, 0, .rw, .mod⟩, ⟨15, 8, .rw, .mod⟩]
  rst := fun _ _ => 0x2#64
/-- R351. -/
def infoTR_SYNC : RegInfo where
  base := 0x3F100002010
  dims := [(8, 0x100000000)]
  flds := [⟨9, 0, .rw, .mod⟩, ⟨19, 10, .rw, .mod⟩, ⟨29, 20, .rw, .mod⟩, ⟨36, 30, .rw, .mod⟩]
  rst := fun _ _ => 0x40000000#64
/-- R231. -/
def infoTR_Q_BASE : RegInfo where
  base := 0x3F100002018
  dims := [(8, 0x100000000)]
  flds := [⟨3, 0, .rw, .mod⟩, ⟨41, 6, .rw, .mod⟩]
  rst := fun _ _ => 0x4#64
/-- R351. -/
def infoTR_Q_STAT : RegInfo where
  base := 0x3F100002020
  dims := [(8, 0x100000000)]
  flds := [⟨11, 0, .ro, .mod⟩, ⟨12, 12, .ro, .mod⟩, ⟨13, 13, .ro, .mod⟩, ⟨45, 14, .ro, .mod⟩]
  rst := fun _ _ => 0x0#64
/-- R351. -/
def infoTR_STAT : RegInfo where
  base := 0x3F100002028
  dims := [(8, 0x100000000)]
  flds := [⟨15, 0, .ro, .cont⟩, ⟨31, 16, .ro, .cont⟩, ⟨47, 32, .ro, .cont⟩, ⟨63, 48, .ro, .cont⟩]
  rst := fun _ _ => 0x0#64
/-- R351. -/
def infoTR_FLAGS : RegInfo where
  base := 0x3F100002030
  dims := [(8, 0x100000000)]
  flds := [⟨0, 0, .w1c, .cold⟩, ⟨1, 1, .w1c, .cold⟩, ⟨2, 2, .w1c, .cold⟩, ⟨3, 3, .w1c, .cold⟩]
  rst := fun _ _ => 0x0#64
/-- R231. -/
def infoTR_DB : RegInfo where
  base := 0x3F100003000
  dims := [(8, 0x100000000)]
  flds := [⟨11, 0, .wo, .mod⟩]
  rst := fun _ _ => 0x0#64
/-- R434. -/
def infoSPAN_PWR_CTL : RegInfo where
  base := 0x3F100004000
  dims := [(8, 0x100000000)]
  flds := [⟨10, 0, .rw, .mod⟩, ⟨23, 16, .rw, .mod⟩, ⟨42, 32, .ro, .never⟩]
  rst := fun _ _ => BitVec.ofNat 64 (0x3AC + 1080 * 2^32)
/-- R434. -/
def infoSPAN_PWR_STAT : RegInfo where
  base := 0x3F100004008
  dims := [(8, 0x100000000)]
  flds := [⟨10, 0, .ro, .mod⟩, ⟨21, 11, .ro, .mod⟩, ⟨31, 22, .ro, .mod⟩, ⟨39, 32, .ro, .mod⟩, ⟨47, 40, .ro, .mod⟩, ⟨55, 48, .ro, .mod⟩, ⟨56, 56, .ro, .mod⟩, ⟨57, 57, .ro, .mod⟩]
  rst := fun _ _ => 0xFFC81D63AC#64
/-- R434. -/
def infoSPAN_DROOP_STAT : RegInfo where
  base := 0x3F100004010
  dims := [(8, 0x100000000)]
  flds := [⟨23, 0, .ro, .cont⟩, ⟨31, 24, .ro, .cont⟩, ⟨63, 32, .ro, .cont⟩]
  rst := fun _ _ => 0x0#64
/-- R434. -/
def infoSPAN_VF_CURVE : RegInfo where
  base := 0x3F100004080
  dims := [(8, 0x100000000), (16, 0x8)]
  flds := [⟨10, 0, .rws, .mod⟩, ⟨21, 12, .rws, .mod⟩, ⟨27, 22, .rws, .mod⟩, ⟨28, 28, .ro, .mod⟩]
  rst := fun _ ix => vfPointReset (ix.getD 1 0)
/-- R409. -/
def infoSPAN_CLD_PORT_STAT : RegInfo where
  base := 0x3F100005000
  dims := [(8, 0x100000000), (30, 0x20)]
  flds := [⟨3, 0, .ro, .cont⟩, ⟨5, 4, .ro, .cont⟩, ⟨6, 6, .ro, .never⟩, ⟨10, 8, .ro, .never⟩, ⟨31, 16, .ro, .cont⟩, ⟨39, 32, .ro, .cont⟩, ⟨51, 40, .ro, .cont⟩, ⟨55, 52, .ro, .cont⟩, ⟨59, 56, .ro, .cont⟩]
  rst := fun _ _ => 0x0#64
/-- R409. -/
def infoSPAN_CLD_PORT_ERR : RegInfo where
  base := 0x3F100005008
  dims := [(8, 0x100000000), (30, 0x20)]
  flds := [⟨15, 0, .ro, .cont⟩, ⟨31, 16, .ro, .cont⟩, ⟨33, 32, .ro, .cont⟩, ⟨34, 34, .w1c, .cold⟩, ⟨35, 35, .w1c, .cold⟩, ⟨36, 36, .ro, .never⟩]
  rst := fun _ _ => 0x0#64
/-- R409. -/
def infoSPAN_CLD_PORT_CTL : RegInfo where
  base := 0x3F100005010
  dims := [(8, 0x100000000), (30, 0x20)]
  flds := [⟨0, 0, .wo, .cont⟩, ⟨2, 1, .rw, .cont⟩]
  rst := fun _ _ => 0x6#64
/-- R462. -/
def infoSPAN_ERR_STATUS : RegInfo where
  base := 0x3F100006000
  dims := [(8, 0x100000000), (128, 0x20)]
  flds := [⟨0, 0, .w1c, .cold⟩, ⟨1, 1, .w1c, .cold⟩, ⟨2, 2, .ro, .cold⟩, ⟨7, 4, .ro, .cold⟩, ⟨15, 8, .ro, .cold⟩, ⟨31, 16, .ro, .cold⟩, ⟨39, 32, .ro, .cold⟩, ⟨63, 40, .ro, .cold⟩]
  rst := fun _ ix => BitVec.ofNat 64 ((0x1000 + ix.headD 0 * 256 + ix.getD 1 0) * 2^16)
/-- R462. -/
def infoSPAN_ERR_ADDR : RegInfo where
  base := 0x3F100006008
  dims := [(8, 0x100000000), (128, 0x20)]
  flds := [⟨63, 0, .ro, .cold⟩]
  rst := fun _ _ => 0x0#64
/-- R462. -/
def infoSPAN_ERR_SYND : RegInfo where
  base := 0x3F100006010
  dims := [(8, 0x100000000), (128, 0x20)]
  flds := [⟨63, 0, .ro, .cold⟩]
  rst := fun _ _ => 0x0#64
/-- R462. -/
def infoSPAN_ERR_TIME : RegInfo where
  base := 0x3F100006018
  dims := [(8, 0x100000000), (128, 0x20)]
  flds := [⟨63, 0, .ro, .cold⟩]
  rst := fun _ _ => 0x0#64
/-- R148. -/
def infoTILE_CTL : RegInfo where
  base := 0x3F100100000
  dims := [(8, 0x100000000), (64, 0x1000)]
  flds := [⟨0, 0, .wo, .tile⟩, ⟨1, 1, .wo, .tile⟩, ⟨2, 2, .wo, .tile⟩, ⟨3, 3, .wo, .tile⟩, ⟨4, 4, .wo, .tile⟩, ⟨5, 5, .rw, .cont⟩]
  rst := fun _ _ => 0x0#64
/-- R148. -/
def infoTILE_STAT : RegInfo where
  base := 0x3F100100008
  dims := [(8, 0x100000000), (64, 0x1000)]
  flds := [⟨3, 0, .ro, .tile⟩, ⟨4, 4, .ro, .tile⟩, ⟨5, 5, .ro, .tile⟩, ⟨15, 8, .ro, .cont⟩]
  rst := fun _ _ => 0x0#64
/-- R148. -/
def infoTILE_ENTRY : RegInfo where
  base := 0x3F100100010
  dims := [(8, 0x100000000), (64, 0x1000)]
  flds := [⟨16, 0, .rw, .tile⟩, ⟨24, 17, .rw, .tile⟩, ⟨41, 32, .rw, .tile⟩, ⟨51, 42, .rw, .tile⟩]
  rst := fun _ _ => 0x0#64
/-- R148. -/
def infoTILE_ARG : RegInfo where
  base := 0x3F100100018
  dims := [(8, 0x100000000), (64, 0x1000)]
  flds := [⟨63, 0, .rw, .tile⟩]
  rst := fun _ _ => 0x0#64
/-- R148. -/
def infoTILE_EXC : RegInfo where
  base := 0x3F100100020
  dims := [(8, 0x100000000), (64, 0x1000)]
  flds := [⟨7, 0, .ro, .tile⟩, ⟨9, 8, .ro, .tile⟩, ⟨10, 10, .ro, .tile⟩, ⟨32, 16, .ro, .tile⟩]
  rst := fun _ _ => 0x0#64
/-- R148. -/
def infoTILE_EXC_ADDR : RegInfo where
  base := 0x3F100100028
  dims := [(8, 0x100000000), (64, 0x1000)]
  flds := [⟨63, 0, .ro, .tile⟩]
  rst := fun _ _ => 0x0#64
/-- R148. -/
def infoTILE_SAVE_BASE : RegInfo where
  base := 0x3F100100030
  dims := [(8, 0x100000000), (64, 0x1000)]
  flds := [⟨0, 0, .rw, .tile⟩, ⟨41, 21, .rw, .tile⟩]
  rst := fun _ _ => 0x1#64
/-- R148. -/
def infoTILE_IMEM_SRC : RegInfo where
  base := 0x3F100100038
  dims := [(8, 0x100000000), (64, 0x1000)]
  flds := [⟨41, 6, .rw, .tile⟩]
  rst := fun _ _ => 0x0#64
/-- R148. -/
def infoTILE_IMEM_LOAD : RegInfo where
  base := 0x3F100100040
  dims := [(8, 0x100000000), (64, 0x1000)]
  flds := [⟨10, 0, .rw, .tile⟩, ⟨23, 12, .rw, .tile⟩, ⟨31, 24, .ro, .tile⟩, ⟨61, 61, .ro, .tile⟩, ⟨62, 62, .ro, .tile⟩, ⟨63, 63, .wo, .tile⟩]
  rst := fun _ _ => 0x0#64
/-- R148. -/
def infoTILE_PROG_ID : RegInfo where
  base := 0x3F100100048
  dims := [(8, 0x100000000), (64, 0x1000)]
  flds := [⟨63, 0, .rw, .cont⟩]
  rst := fun _ _ => 0x0#64
/-- R201. -/
def infoTILE_STAY_WIN : RegInfo where
  base := 0x3F100100050
  dims := [(8, 0x100000000), (64, 0x1000)]
  flds := [⟨9, 0, .rw, .tile⟩, ⟨20, 10, .rw, .tile⟩, ⟨32, 21, .rw, .tile⟩, ⟨45, 33, .rw, .tile⟩]
  rst := fun _ _ => 0x0#64
/-- R201. -/
def infoTILE_MOVE_STAT : RegInfo where
  base := 0x3F100100058
  dims := [(8, 0x100000000), (64, 0x1000)]
  flds := [⟨7, 0, .ro, .tile⟩, ⟨8, 8, .w1c, .cont⟩, ⟨9, 9, .w1c, .cont⟩, ⟨12, 10, .ro, .tile⟩, ⟨47, 32, .ro, .tile⟩]
  rst := fun _ _ => 0x0#64
/-- R201. -/
def infoTILE_EPOCH : RegInfo where
  base := 0x3F100100060
  dims := [(8, 0x100000000), (64, 0x1000)]
  flds := [⟨15, 0, .ro, .cont⟩, ⟨16, 16, .ro, .tile⟩, ⟨19, 17, .ro, .cont⟩, ⟨20, 20, .ro, .tile⟩, ⟨47, 32, .ro, .cont⟩]
  rst := fun _ _ => 0x0#64
/-- R126. -/
def infoTILE_MMA_CTL : RegInfo where
  base := 0x3F100100068
  dims := [(8, 0x100000000), (64, 0x1000)]
  flds := [⟨0, 0, .rw, .tile⟩, ⟨1, 1, .wo, .tile⟩]
  rst := fun _ _ => 0x0#64
/-- R126. -/
def infoTILE_MMA_STAT : RegInfo where
  base := 0x3F100100070
  dims := [(8, 0x100000000), (64, 0x1000)]
  flds := [⟨0, 0, .ro, .tile⟩, ⟨1, 1, .ro, .tile⟩, ⟨3, 2, .ro, .tile⟩, ⟨4, 4, .ro, .tile⟩, ⟨23, 8, .ro, .cont⟩, ⟨39, 24, .ro, .cont⟩]
  rst := fun _ _ => 0x0#64
/-- R126. -/
def infoTILE_MMA_PERF : RegInfo where
  base := 0x3F100100078
  dims := [(8, 0x100000000), (64, 0x1000)]
  flds := [⟨31, 0, .ro, .tile⟩, ⟨63, 32, .ro, .tile⟩]
  rst := fun _ _ => 0x0#64
/-- R126. -/
def infoTILE_MMA_KSTEP : RegInfo where
  base := 0x3F100100080
  dims := [(8, 0x100000000), (64, 0x1000)]
  flds := [⟨63, 0, .ro, .tile⟩]
  rst := fun _ _ => 0x0#64
/-- R88. -/
def infoTILE_FMT_FLAGS : RegInfo where
  base := 0x3F100100088
  dims := [(8, 0x100000000), (64, 0x1000)]
  flds := [⟨0, 0, .w1c, .cont⟩, ⟨1, 1, .w1c, .cont⟩, ⟨2, 2, .w1c, .cont⟩, ⟨8, 8, .ro, .tile⟩, ⟨9, 9, .ro, .tile⟩, ⟨10, 10, .ro, .tile⟩]
  rst := fun _ _ => 0x0#64
/-- R89. -/
def infoTILE_FMT_CTL : RegInfo where
  base := 0x3F100100090
  dims := [(8, 0x100000000), (64, 0x1000)]
  flds := [⟨0, 0, .rw, .tile⟩, ⟨1, 1, .rw, .tile⟩]
  rst := fun _ _ => 0x1#64
/-- R83. -/
def infoTILE_SR_SEED : RegInfo where
  base := 0x3F100100098
  dims := [(8, 0x100000000), (64, 0x1000)]
  flds := [⟨63, 0, .rw, .tile⟩]
  rst := fun _ _ => 0x9E3779B97F4A7C15#64
/-- R100. -/
def infoTILE_AMAX : RegInfo where
  base := 0x3F100100100
  dims := [(8, 0x100000000), (64, 0x1000), (16, 0x8)]
  flds := [⟨22, 0, .rw, .tile⟩, ⟨32, 23, .rw, .tile⟩, ⟨33, 33, .rw, .tile⟩, ⟨47, 40, .rw, .tile⟩, ⟨48, 48, .rw, .tile⟩, ⟨51, 49, .rw, .tile⟩, ⟨55, 52, .rw, .tile⟩, ⟨63, 63, .wo, .tile⟩]
  rst := fun _ _ => 0x50000000000000#64
/-- R78. -/
def infoFMT_DESC : RegInfo where
  base := 0x3F100100180
  dims := [(8, 0x100000000), (64, 0x1000), (16, 0x8)]
  flds := [⟨0, 0, .rw, .tile⟩, ⟨2, 1, .rw, .tile⟩, ⟨4, 3, .rw, .tile⟩, ⟨11, 8, .ro, .tile⟩, ⟨19, 16, .rw, .tile⟩, ⟨22, 20, .rw, .tile⟩, ⟨28, 24, .rw, .tile⟩, ⟨30, 29, .rw, .tile⟩, ⟨63, 63, .ro, .tile⟩]
  rst := fun _ ix => fmtDescReset (ix.getD 2 0)
/-- R23. -/
def infoPIER_FC_CNT : RegInfo where
  base := 0x3F900000000
  dims := [(4, 0x100000000)]
  flds := [⟨63, 0, .ro, .mod⟩]
  rst := fun _ _ => 0x0#64
/-- R409. -/
def infoPIER_DIE_INFO : RegInfo where
  base := 0x3F900000008
  dims := [(4, 0x100000000)]
  flds := [⟨3, 0, .ro, .never⟩, ⟨7, 4, .ro, .never⟩, ⟨19, 8, .ro, .never⟩, ⟨27, 20, .ro, .never⟩, ⟨47, 32, .ro, .never⟩, ⟨55, 48, .ro, .never⟩, ⟨63, 56, .ro, .never⟩]
  rst := fun _ ix => 0x1F10003F01200003#64 ||| BitVec.ofNat 64 (ix.headD 0 * 16)
/-- R231. -/
def infoPIER_EPOCH_STAT : RegInfo where
  base := 0x3F900000010
  dims := [(4, 0x100000000)]
  flds := [⟨16, 0, .ro, .cont⟩, ⟨33, 17, .ro, .cont⟩, ⟨43, 34, .ro, .cont⟩, ⟨44, 44, .ro, .cont⟩]
  rst := fun _ _ => 0x0#64
/-- R231. -/
def infoLAT_FLAGS : RegInfo where
  base := 0x3F900001000
  dims := [(4, 0x100000000)]
  flds := [⟨0, 0, .w1c, .cont⟩, ⟨1, 1, .w1c, .cont⟩, ⟨2, 2, .w1c, .cont⟩]
  rst := fun _ _ => 0x0#64
/-- R231. -/
def infoLAT_STAT : RegInfo where
  base := 0x3F900001008
  dims := [(4, 0x100000000)]
  flds := [⟨31, 0, .ro, .cont⟩, ⟨47, 32, .ro, .cont⟩]
  rst := fun _ _ => 0x0#64
/-- R231. -/
def infoLAT_Q_BASE : RegInfo where
  base := 0x3F900001100
  dims := [(4, 0x100000000), (16, 0x20)]
  flds := [⟨3, 0, .rw, .cont⟩, ⟨41, 6, .rw, .cont⟩]
  rst := fun _ _ => 0x4#64
/-- R231. -/
def infoLAT_Q_CTL : RegInfo where
  base := 0x3F900001108
  dims := [(4, 0x100000000), (16, 0x20)]
  flds := [⟨0, 0, .rw, .cont⟩, ⟨1, 1, .rw, .cont⟩, ⟨2, 2, .rw, .cont⟩, ⟨15, 8, .rw, .cont⟩]
  rst := fun _ _ => 0x0#64
/-- R231. -/
def infoLAT_Q_STAT : RegInfo where
  base := 0x3F900001110
  dims := [(4, 0x100000000), (16, 0x20)]
  flds := [⟨11, 0, .ro, .cont⟩, ⟨12, 12, .ro, .cont⟩, ⟨13, 13, .ro, .cont⟩]
  rst := fun _ _ => 0x0#64
/-- R231. -/
def infoLAT_DB : RegInfo where
  base := 0x3F900002000
  dims := [(4, 0x100000000), (16, 0x1000)]
  flds := [⟨11, 0, .wo, .cont⟩]
  rst := fun _ _ => 0x0#64
/-- R409. -/
def infoCLX_LINK_STAT : RegInfo where
  base := 0x3F900020000
  dims := [(4, 0x100000000), (6, 0x20)]
  flds := [⟨3, 0, .ro, .mod⟩, ⟨7, 4, .ro, .mod⟩, ⟨8, 8, .ro, .never⟩, ⟨26, 12, .ro, .mod⟩, ⟨27, 27, .ro, .mod⟩, ⟨32, 28, .ro, .mod⟩, ⟨33, 33, .ro, .mod⟩, ⟨41, 34, .ro, .mod⟩, ⟨57, 42, .ro, .mod⟩]
  rst := fun _ _ => 0x0#64
/-- R409. -/
def infoCLX_LINK_ERR : RegInfo where
  base := 0x3F900020008
  dims := [(4, 0x100000000), (6, 0x20)]
  flds := [⟨15, 0, .ro, .cont⟩, ⟨31, 16, .ro, .cont⟩, ⟨47, 32, .ro, .cont⟩, ⟨48, 48, .w1c, .cold⟩, ⟨49, 49, .w1c, .cold⟩, ⟨50, 50, .w1c, .cold⟩, ⟨51, 51, .ro, .never⟩]
  rst := fun _ _ => 0x0#64
/-- R409. -/
def infoCLX_LINK_CTL : RegInfo where
  base := 0x3F900020010
  dims := [(4, 0x100000000), (6, 0x20)]
  flds := [⟨0, 0, .rws, .mod⟩, ⟨1, 1, .wo, .cont⟩, ⟨2, 2, .wo, .cont⟩, ⟨6, 3, .rw, .cont⟩, ⟨7, 7, .wo, .cont⟩]
  rst := fun _ _ => 0x1#64
/-- R409. -/
def infoPIER_CLD_PORT_STAT : RegInfo where
  base := 0x3F900021000
  dims := [(4, 0x100000000), (10, 0x20)]
  flds := [⟨3, 0, .ro, .cont⟩, ⟨5, 4, .ro, .cont⟩, ⟨6, 6, .ro, .never⟩, ⟨10, 8, .ro, .never⟩, ⟨31, 16, .ro, .cont⟩, ⟨39, 32, .ro, .cont⟩, ⟨51, 40, .ro, .cont⟩, ⟨55, 52, .ro, .cont⟩, ⟨59, 56, .ro, .cont⟩]
  rst := fun _ _ => 0x0#64
/-- R409. -/
def infoPIER_CLD_PORT_ERR : RegInfo where
  base := 0x3F900021008
  dims := [(4, 0x100000000), (10, 0x20)]
  flds := [⟨15, 0, .ro, .cont⟩, ⟨31, 16, .ro, .cont⟩, ⟨33, 32, .ro, .cont⟩, ⟨34, 34, .w1c, .cold⟩, ⟨35, 35, .w1c, .cold⟩, ⟨36, 36, .ro, .never⟩]
  rst := fun _ _ => 0x0#64
/-- R409. -/
def infoPIER_CLD_PORT_CTL : RegInfo where
  base := 0x3F900021010
  dims := [(4, 0x100000000), (10, 0x20)]
  flds := [⟨0, 0, .wo, .cont⟩, ⟨2, 1, .rw, .cont⟩]
  rst := fun _ _ => 0x6#64
/-- R375. -/
def infoP0_CLC_CFG : RegInfo where
  base := 0x3F900022000
  dims := []
  flds := [⟨1, 0, .rws, .mod⟩, ⟨2, 2, .wo, .mod⟩, ⟨15, 8, .rws, .mod⟩]
  rst := fun _ _ => 0x6400#64
/-- R375. -/
def infoP0_CLC_STAT : RegInfo where
  base := 0x3F900022008
  dims := []
  flds := [⟨0, 0, .ro, .ep⟩, ⟨1, 1, .ro, .ep⟩, ⟨6, 2, .ro, .ep⟩, ⟨7, 7, .ro, .ep⟩, ⟨17, 8, .ro, .ep⟩]
  rst := fun _ _ => 0x0#64
/-- R375. -/
def infoP0_CLC_ERR : RegInfo where
  base := 0x3F900022010
  dims := []
  flds := [⟨31, 0, .ro, .cold⟩, ⟨47, 32, .ro, .cold⟩, ⟨55, 48, .ro, .cold⟩, ⟨56, 56, .w1c, .cold⟩]
  rst := fun _ _ => 0x0#64
/-- R58. -/
def infoRAW_HOST_CFG : RegInfo where
  base := 0x3F900022018
  dims := []
  flds := [⟨0, 0, .rw, .ep⟩, ⟨51, 30, .rw, .ep⟩]
  rst := fun _ _ => 0x0#64
/-- R278. -/
def infoFAR_HOME_DIR_STAT : RegInfo where
  base := 0x3F900023000
  dims := []
  flds := [⟨21, 0, .ro, .cont⟩, ⟨28, 22, .ro, .cont⟩, ⟨47, 32, .ro, .cont⟩, ⟨63, 48, .ro, .cold⟩]
  rst := fun _ _ => 0x0#64
/-- R278. -/
def infoFAR_HOME_DIR_CNT : RegInfo where
  base := 0x3F900023008
  dims := []
  flds := [⟨31, 0, .ro, .cont⟩, ⟨63, 32, .ro, .cont⟩]
  rst := fun _ _ => 0x0#64
/-- R278. -/
def infoFAR_HOME_DIR_ERR : RegInfo where
  base := 0x3F900023010
  dims := []
  flds := [⟨0, 0, .w1c, .cold⟩, ⟨1, 1, .w1c, .cold⟩, ⟨15, 8, .ro, .cold⟩, ⟨33, 16, .ro, .cold⟩]
  rst := fun _ _ => 0x0#64
/-- R278. -/
def infoFAR_HOME_DIR_CTL : RegInfo where
  base := 0x3F900023018
  dims := []
  flds := [⟨0, 0, .wo, .cont⟩, ⟨1, 1, .wo, .cont⟩]
  rst := fun _ _ => 0x0#64
/-- R462. -/
def infoPIER_ERR_STATUS : RegInfo where
  base := 0x3F900024000
  dims := [(4, 0x100000000), (128, 0x20)]
  flds := [⟨0, 0, .w1c, .cold⟩, ⟨1, 1, .w1c, .cold⟩, ⟨2, 2, .ro, .cold⟩, ⟨7, 4, .ro, .cold⟩, ⟨15, 8, .ro, .cold⟩, ⟨31, 16, .ro, .cold⟩, ⟨39, 32, .ro, .cold⟩, ⟨63, 40, .ro, .cold⟩]
  rst := fun _ ix => BitVec.ofNat 64 ((0x3000 + ix.headD 0 * 256 + ix.getD 1 0) * 2^16)
/-- R462. -/
def infoPIER_ERR_ADDR : RegInfo where
  base := 0x3F900024008
  dims := [(4, 0x100000000), (128, 0x20)]
  flds := [⟨63, 0, .ro, .cold⟩]
  rst := fun _ _ => 0x0#64
/-- R462. -/
def infoPIER_ERR_SYND : RegInfo where
  base := 0x3F900024010
  dims := [(4, 0x100000000), (128, 0x20)]
  flds := [⟨63, 0, .ro, .cold⟩]
  rst := fun _ _ => 0x0#64
/-- R462. -/
def infoPIER_ERR_TIME : RegInfo where
  base := 0x3F900024018
  dims := [(4, 0x100000000), (128, 0x20)]
  flds := [⟨63, 0, .ro, .cold⟩]
  rst := fun _ _ => 0x0#64
/-- R317. -/
def infoHBM_THR_CURVE : RegInfo where
  base := 0x3FD00000000
  dims := [(2, 0x8)]
  flds := [⟨7, 0, .rws, .cold⟩, ⟨23, 16, .rws, .cold⟩, ⟨39, 32, .rws, .cold⟩, ⟨55, 48, .rws, .cold⟩, ⟨13, 8, .rws, .cold⟩, ⟨29, 24, .rws, .cold⟩, ⟨45, 40, .rws, .cold⟩, ⟨61, 56, .rws, .cold⟩]
  rst := fun _ ix => if ix.headD 0 = 0 then 0x1F6427632F61375F#64 else 0x36807670F661765#64
/-- R317. -/
def infoHBM_THR_CTL : RegInfo where
  base := 0x3FD00000010
  dims := []
  flds := [⟨3, 0, .rws, .cold⟩]
  rst := fun _ _ => 0x2#64
/-- R317. -/
def infoHBM_SCRUB_CTL : RegInfo where
  base := 0x3FD00000018
  dims := []
  flds := [⟨0, 0, .rws, .cold⟩, ⟨8, 1, .rws, .cold⟩]
  rst := fun _ _ => 0x31#64
/-- R317. -/
def infoHBM_SCRUB_STAT : RegInfo where
  base := 0x3FD00000020
  dims := []
  flds := [⟨18, 0, .ro, .cold⟩, ⟨47, 32, .ro, .cold⟩, ⟨63, 48, .ro, .cold⟩]
  rst := fun _ _ => 0x0#64
/-- R317. -/
def infoHBM_RETIRE_CTL : RegInfo where
  base := 0x3FD00000028
  dims := []
  flds := [⟨3, 0, .rw, .cold⟩, ⟨8, 4, .rw, .cold⟩, ⟨61, 61, .ro, .cold⟩, ⟨63, 63, .wo, .cold⟩]
  rst := fun _ _ => 0x0#64
/-- R317. -/
def infoHBM_REGION : RegInfo where
  base := 0x3FD00000100
  dims := [(32, 0x8)]
  flds := [⟨11, 0, .ro, .never⟩, ⟨13, 12, .ro, .cold⟩, ⟨27, 16, .ro, .cold⟩, ⟨49, 32, .ro, .cold⟩]
  rst := fun a _ => BitVec.ofNat 64 (2^a.stacks - 1)
/-- R317. -/
def infoHBM_STK_STAT : RegInfo where
  base := 0x3FD00010000
  dims := [(12, 0x2000)]
  flds := [⟨7, 0, .ro, .cold⟩, ⟨10, 8, .ro, .cold⟩, ⟨16, 11, .ro, .cold⟩, ⟨17, 17, .w1c, .cold⟩, ⟨18, 18, .ro, .cold⟩, ⟨31, 24, .ro, .cold⟩, ⟨63, 32, .ro, .never⟩]
  rst := fun _ _ => 0x1F800#64
/-- R317. -/
def infoHBM_THR_STAT : RegInfo where
  base := 0x3FD00010008
  dims := [(12, 0x2000)]
  flds := [⟨31, 0, .ro, .cold⟩, ⟨47, 32, .ro, .cold⟩]
  rst := fun _ _ => 0x0#64
/-- R317. -/
def infoHBM_ERR_CNT : RegInfo where
  base := 0x3FD00010010
  dims := [(12, 0x2000)]
  flds := [⟨15, 0, .ro, .cold⟩, ⟨31, 16, .ro, .cold⟩, ⟨47, 32, .ro, .cold⟩, ⟨63, 48, .ro, .cold⟩]
  rst := fun _ _ => 0x0#64
/-- R317. -/
def infoHBM_PPR_STAT : RegInfo where
  base := 0x3FD00010018
  dims := [(12, 0x2000)]
  flds := [⟨11, 0, .ro, .cold⟩, ⟨23, 12, .ro, .never⟩, ⟨31, 24, .ro, .never⟩, ⟨47, 32, .ro, .cold⟩]
  rst := fun _ _ => 0x0#64
/-- R278. -/
def infoHBM_HOME_DIR_STAT : RegInfo where
  base := 0x3FD00010020
  dims := [(12, 0x2000)]
  flds := [⟨21, 0, .ro, .cont⟩, ⟨28, 22, .ro, .cont⟩, ⟨47, 32, .ro, .cont⟩, ⟨63, 48, .ro, .cold⟩]
  rst := fun _ _ => 0x0#64
/-- R278. -/
def infoHBM_HOME_DIR_CNT : RegInfo where
  base := 0x3FD00010028
  dims := [(12, 0x2000)]
  flds := [⟨31, 0, .ro, .cont⟩, ⟨63, 32, .ro, .cont⟩]
  rst := fun _ _ => 0x0#64
/-- R278. -/
def infoHBM_HOME_DIR_ERR : RegInfo where
  base := 0x3FD00010030
  dims := [(12, 0x2000)]
  flds := [⟨0, 0, .w1c, .cold⟩, ⟨1, 1, .w1c, .cold⟩, ⟨15, 8, .ro, .cold⟩, ⟨33, 16, .ro, .cold⟩]
  rst := fun _ _ => 0x0#64
/-- R278. -/
def infoHBM_HOME_DIR_CTL : RegInfo where
  base := 0x3FD00010038
  dims := [(12, 0x2000)]
  flds := [⟨0, 0, .wo, .cont⟩, ⟨1, 1, .wo, .cont⟩]
  rst := fun _ _ => 0x0#64
/-- R462. -/
def infoHBM_ERR_STATUS : RegInfo where
  base := 0x3FD00011000
  dims := [(12, 0x2000), (128, 0x20)]
  flds := [⟨0, 0, .w1c, .cold⟩, ⟨1, 1, .w1c, .cold⟩, ⟨2, 2, .ro, .cold⟩, ⟨7, 4, .ro, .cold⟩, ⟨15, 8, .ro, .cold⟩, ⟨31, 16, .ro, .cold⟩, ⟨39, 32, .ro, .cold⟩, ⟨63, 40, .ro, .cold⟩]
  rst := fun _ ix => BitVec.ofNat 64 ((0x4000 + ix.headD 0 * 256 + ix.getD 1 0) * 2^16)
/-- R462. -/
def infoHBM_ERR_ADDR : RegInfo where
  base := 0x3FD00011008
  dims := [(12, 0x2000), (128, 0x20)]
  flds := [⟨63, 0, .ro, .cold⟩]
  rst := fun _ _ => 0x0#64
/-- R462. -/
def infoHBM_ERR_SYND : RegInfo where
  base := 0x3FD00011010
  dims := [(12, 0x2000), (128, 0x20)]
  flds := [⟨63, 0, .ro, .cold⟩]
  rst := fun _ _ => 0x0#64
/-- R462. -/
def infoHBM_ERR_TIME : RegInfo where
  base := 0x3FD00011018
  dims := [(12, 0x2000), (128, 0x20)]
  flds := [⟨63, 0, .ro, .cold⟩]
  rst := fun _ _ => 0x0#64
/-- R317. -/
def infoHBM_FCLASS : RegInfo where
  base := 0x3FD00100000
  dims := [(8192, 0x8)]
  flds := [⟨63, 0, .rw, .cold⟩]
  rst := fun _ _ => 0xFFFFFFFFFFFFFFFF#64
/-- The register map (chapters 00 to 21). -/
def regInfo : RegId → RegInfo
  | .KST_ASSY_INFO => infoKST_ASSY_INFO
  | .KST_DIE_INFO => infoKST_DIE_INFO
  | .KST_MOD_ID => infoKST_MOD_ID
  | .KST_FC_CNT => infoKST_FC_CNT
  | .KST_PWR_MODE => infoKST_PWR_MODE
  | .KST_POLICY_OWN => infoKST_POLICY_OWN
  | .ATTR_INVAL => infoATTR_INVAL
  | .RAW_HBM_ATTR => infoRAW_HBM_ATTR
  | .KST_BOARD_STAT => infoKST_BOARD_STAT
  | .KST_ORD_STAT => infoKST_ORD_STAT
  | .KST_COLL_ID => infoKST_COLL_ID
  | .KST_COLL_WIN => infoKST_COLL_WIN
  | .KST_COLL_MEMB => infoKST_COLL_MEMB
  | .KST_COLL_BUF => infoKST_COLL_BUF
  | .KST_COLL_BUSY => infoKST_COLL_BUSY
  | .KST_REVOKE_CNT => infoKST_REVOKE_CNT
  | .KST_REVOKE_ENT => infoKST_REVOKE_ENT
  | .PLC_PT_BASE => infoPLC_PT_BASE
  | .PLC_OBJ_BASE => infoPLC_OBJ_BASE
  | .PLC_FAR_CFG => infoPLC_FAR_CFG
  | .PLC_AGE_CTL => infoPLC_AGE_CTL
  | .PLC_POOL_STAT => infoPLC_POOL_STAT
  | .PLC_STAT => infoPLC_STAT
  | .TNS_CAP => infoTNS_CAP
  | .TNS_EST => infoTNS_EST
  | .TNS_EVENT => infoTNS_EVENT
  | .TNS_DEFER => infoTNS_DEFER
  | .KST_PD_CTL => infoKST_PD_CTL
  | .KST_KC_TARGET => infoKST_KC_TARGET
  | .KST_CORE_CTL => infoKST_CORE_CTL
  | .KST_CORE_STAT => infoKST_CORE_STAT
  | .KST_QS_EXCL => infoKST_QS_EXCL
  | .KST_QS_EXCL_ACT => infoKST_QS_EXCL_ACT
  | .KST_HART_STAT => infoKST_HART_STAT
  | .KST_ERR_SUM => infoKST_ERR_SUM
  | .KST_ERR_LOG_STAT => infoKST_ERR_LOG_STAT
  | .KST_ERR_LOG_IDX => infoKST_ERR_LOG_IDX
  | .KST_ERR_LOG_ENT => infoKST_ERR_LOG_ENT
  | .KST_RAS_CTL => infoKST_RAS_CTL
  | .KST_RAS_STAT => infoKST_RAS_STAT
  | .KST_CORE_RETIRED => infoKST_CORE_RETIRED
  | .KST_GAUGE_CTL => infoKST_GAUGE_CTL
  | .KST_GAUGE_REQ => infoKST_GAUGE_REQ
  | .KST_GAUGE_STAT => infoKST_GAUGE_STAT
  | .KST_RETIRE => infoKST_RETIRE
  | .KST_BOOT_STAT => infoKST_BOOT_STAT
  | .KST_BOOT_CTL => infoKST_BOOT_CTL
  | .KST_SLOT => infoKST_SLOT
  | .KST_SET_CTL => infoKST_SET_CTL
  | .KST_SET_STAT => infoKST_SET_STAT
  | .KST_ID_STAT => infoKST_ID_STAT
  | .KST_PARK => infoKST_PARK
  | .KST_CLD_PORT_STAT => infoKST_CLD_PORT_STAT
  | .KST_CLD_PORT_ERR => infoKST_CLD_PORT_ERR
  | .KST_CLD_PORT_CTL => infoKST_CLD_PORT_CTL
  | .CORE_COH_STAT => infoCORE_COH_STAT
  | .SYSC_COH_STAT => infoSYSC_COH_STAT
  | .KST_ERR_STATUS => infoKST_ERR_STATUS
  | .KST_ERR_ADDR => infoKST_ERR_ADDR
  | .KST_ERR_SYND => infoKST_ERR_SYND
  | .KST_ERR_TIME => infoKST_ERR_TIME
  | .CTX_MODE => infoCTX_MODE
  | .CTX_RSV_CTL => infoCTX_RSV_CTL
  | .CTX_POOL => infoCTX_POOL
  | .KST_MBOX_CTL => infoKST_MBOX_CTL
  | .KST_MBOX_ARG_OFF => infoKST_MBOX_ARG_OFF
  | .KST_MBOX_STAT => infoKST_MBOX_STAT
  | .KST_MBOX_INT => infoKST_MBOX_INT
  | .RING_BASE => infoRING_BASE
  | .RING_CPL => infoRING_CPL
  | .RING_CTL => infoRING_CTL
  | .RING_STAT => infoRING_STAT
  | .RING_ABORT => infoRING_ABORT
  | .RING_DB => infoRING_DB
  | .CLX_RT => infoCLX_RT
  | .CLX_LOST => infoCLX_LOST
  | .CLX_STAY_CFG => infoCLX_STAY_CFG
  | .SPAN_FC_CNT => infoSPAN_FC_CNT
  | .SPAN_AC_CNT => infoSPAN_AC_CNT
  | .SPAN_DIE_INFO => infoSPAN_DIE_INFO
  | .SPAN_SPARE_MAP => infoSPAN_SPARE_MAP
  | .SPAN_TILE_LOST => infoSPAN_TILE_LOST
  | .SPAN_CACHE_CTL => infoSPAN_CACHE_CTL
  | .SPAN_CACHE_STAT => infoSPAN_CACHE_STAT
  | .SPAN_CACHE_PERF => infoSPAN_CACHE_PERF
  | .SPAN_CMAINT_CTL => infoSPAN_CMAINT_CTL
  | .SPAN_CMAINT_ADDR => infoSPAN_CMAINT_ADDR
  | .SPAN_CMAINT_LEN => infoSPAN_CMAINT_LEN
  | .SPAN_CMAINT_SIG => infoSPAN_CMAINT_SIG
  | .SPAN_CMAINT_STAT => infoSPAN_CMAINT_STAT
  | .SPAN_COH_STAT => infoSPAN_COH_STAT
  | .TR_CTL => infoTR_CTL
  | .TR_WIN => infoTR_WIN
  | .TR_SYNC => infoTR_SYNC
  | .TR_Q_BASE => infoTR_Q_BASE
  | .TR_Q_STAT => infoTR_Q_STAT
  | .TR_STAT => infoTR_STAT
  | .TR_FLAGS => infoTR_FLAGS
  | .TR_DB => infoTR_DB
  | .SPAN_PWR_CTL => infoSPAN_PWR_CTL
  | .SPAN_PWR_STAT => infoSPAN_PWR_STAT
  | .SPAN_DROOP_STAT => infoSPAN_DROOP_STAT
  | .SPAN_VF_CURVE => infoSPAN_VF_CURVE
  | .SPAN_CLD_PORT_STAT => infoSPAN_CLD_PORT_STAT
  | .SPAN_CLD_PORT_ERR => infoSPAN_CLD_PORT_ERR
  | .SPAN_CLD_PORT_CTL => infoSPAN_CLD_PORT_CTL
  | .SPAN_ERR_STATUS => infoSPAN_ERR_STATUS
  | .SPAN_ERR_ADDR => infoSPAN_ERR_ADDR
  | .SPAN_ERR_SYND => infoSPAN_ERR_SYND
  | .SPAN_ERR_TIME => infoSPAN_ERR_TIME
  | .TILE_CTL => infoTILE_CTL
  | .TILE_STAT => infoTILE_STAT
  | .TILE_ENTRY => infoTILE_ENTRY
  | .TILE_ARG => infoTILE_ARG
  | .TILE_EXC => infoTILE_EXC
  | .TILE_EXC_ADDR => infoTILE_EXC_ADDR
  | .TILE_SAVE_BASE => infoTILE_SAVE_BASE
  | .TILE_IMEM_SRC => infoTILE_IMEM_SRC
  | .TILE_IMEM_LOAD => infoTILE_IMEM_LOAD
  | .TILE_PROG_ID => infoTILE_PROG_ID
  | .TILE_STAY_WIN => infoTILE_STAY_WIN
  | .TILE_MOVE_STAT => infoTILE_MOVE_STAT
  | .TILE_EPOCH => infoTILE_EPOCH
  | .TILE_MMA_CTL => infoTILE_MMA_CTL
  | .TILE_MMA_STAT => infoTILE_MMA_STAT
  | .TILE_MMA_PERF => infoTILE_MMA_PERF
  | .TILE_MMA_KSTEP => infoTILE_MMA_KSTEP
  | .TILE_FMT_FLAGS => infoTILE_FMT_FLAGS
  | .TILE_FMT_CTL => infoTILE_FMT_CTL
  | .TILE_SR_SEED => infoTILE_SR_SEED
  | .TILE_AMAX => infoTILE_AMAX
  | .FMT_DESC => infoFMT_DESC
  | .PIER_FC_CNT => infoPIER_FC_CNT
  | .PIER_DIE_INFO => infoPIER_DIE_INFO
  | .PIER_EPOCH_STAT => infoPIER_EPOCH_STAT
  | .LAT_FLAGS => infoLAT_FLAGS
  | .LAT_STAT => infoLAT_STAT
  | .LAT_Q_BASE => infoLAT_Q_BASE
  | .LAT_Q_CTL => infoLAT_Q_CTL
  | .LAT_Q_STAT => infoLAT_Q_STAT
  | .LAT_DB => infoLAT_DB
  | .CLX_LINK_STAT => infoCLX_LINK_STAT
  | .CLX_LINK_ERR => infoCLX_LINK_ERR
  | .CLX_LINK_CTL => infoCLX_LINK_CTL
  | .PIER_CLD_PORT_STAT => infoPIER_CLD_PORT_STAT
  | .PIER_CLD_PORT_ERR => infoPIER_CLD_PORT_ERR
  | .PIER_CLD_PORT_CTL => infoPIER_CLD_PORT_CTL
  | .P0_CLC_CFG => infoP0_CLC_CFG
  | .P0_CLC_STAT => infoP0_CLC_STAT
  | .P0_CLC_ERR => infoP0_CLC_ERR
  | .RAW_HOST_CFG => infoRAW_HOST_CFG
  | .FAR_HOME_DIR_STAT => infoFAR_HOME_DIR_STAT
  | .FAR_HOME_DIR_CNT => infoFAR_HOME_DIR_CNT
  | .FAR_HOME_DIR_ERR => infoFAR_HOME_DIR_ERR
  | .FAR_HOME_DIR_CTL => infoFAR_HOME_DIR_CTL
  | .PIER_ERR_STATUS => infoPIER_ERR_STATUS
  | .PIER_ERR_ADDR => infoPIER_ERR_ADDR
  | .PIER_ERR_SYND => infoPIER_ERR_SYND
  | .PIER_ERR_TIME => infoPIER_ERR_TIME
  | .HBM_THR_CURVE => infoHBM_THR_CURVE
  | .HBM_THR_CTL => infoHBM_THR_CTL
  | .HBM_SCRUB_CTL => infoHBM_SCRUB_CTL
  | .HBM_SCRUB_STAT => infoHBM_SCRUB_STAT
  | .HBM_RETIRE_CTL => infoHBM_RETIRE_CTL
  | .HBM_REGION => infoHBM_REGION
  | .HBM_STK_STAT => infoHBM_STK_STAT
  | .HBM_THR_STAT => infoHBM_THR_STAT
  | .HBM_ERR_CNT => infoHBM_ERR_CNT
  | .HBM_PPR_STAT => infoHBM_PPR_STAT
  | .HBM_HOME_DIR_STAT => infoHBM_HOME_DIR_STAT
  | .HBM_HOME_DIR_CNT => infoHBM_HOME_DIR_CNT
  | .HBM_HOME_DIR_ERR => infoHBM_HOME_DIR_ERR
  | .HBM_HOME_DIR_CTL => infoHBM_HOME_DIR_CTL
  | .HBM_ERR_STATUS => infoHBM_ERR_STATUS
  | .HBM_ERR_ADDR => infoHBM_ERR_ADDR
  | .HBM_ERR_SYND => infoHBM_ERR_SYND
  | .HBM_ERR_TIME => infoHBM_ERR_TIME
  | .HBM_FCLASS => infoHBM_FCLASS

/-- Registers 0 and up, in address-map order. -/
def regs0 : List RegId :=
  [.KST_ASSY_INFO, .KST_DIE_INFO, .KST_MOD_ID, .KST_FC_CNT, .KST_PWR_MODE, .KST_POLICY_OWN, .ATTR_INVAL, .RAW_HBM_ATTR, .KST_BOARD_STAT, .KST_ORD_STAT, .KST_COLL_ID, .KST_COLL_WIN, .KST_COLL_MEMB, .KST_COLL_BUF, .KST_COLL_BUSY, .KST_REVOKE_CNT, .KST_REVOKE_ENT, .PLC_PT_BASE, .PLC_OBJ_BASE, .PLC_FAR_CFG]

/-- Registers 20 and up, in address-map order. -/
def regs1 : List RegId :=
  [.PLC_AGE_CTL, .PLC_POOL_STAT, .PLC_STAT, .TNS_CAP, .TNS_EST, .TNS_EVENT, .TNS_DEFER, .KST_PD_CTL, .KST_KC_TARGET, .KST_CORE_CTL, .KST_CORE_STAT, .KST_QS_EXCL, .KST_QS_EXCL_ACT, .KST_HART_STAT, .KST_ERR_SUM, .KST_ERR_LOG_STAT, .KST_ERR_LOG_IDX, .KST_ERR_LOG_ENT, .KST_RAS_CTL, .KST_RAS_STAT]

/-- Registers 40 and up, in address-map order. -/
def regs2 : List RegId :=
  [.KST_CORE_RETIRED, .KST_GAUGE_CTL, .KST_GAUGE_REQ, .KST_GAUGE_STAT, .KST_RETIRE, .KST_BOOT_STAT, .KST_BOOT_CTL, .KST_SLOT, .KST_SET_CTL, .KST_SET_STAT, .KST_ID_STAT, .KST_PARK, .KST_CLD_PORT_STAT, .KST_CLD_PORT_ERR, .KST_CLD_PORT_CTL, .CORE_COH_STAT, .SYSC_COH_STAT, .KST_ERR_STATUS, .KST_ERR_ADDR, .KST_ERR_SYND]

/-- Registers 60 and up, in address-map order. -/
def regs3 : List RegId :=
  [.KST_ERR_TIME, .CTX_MODE, .CTX_RSV_CTL, .CTX_POOL, .KST_MBOX_CTL, .KST_MBOX_ARG_OFF, .KST_MBOX_STAT, .KST_MBOX_INT, .RING_BASE, .RING_CPL, .RING_CTL, .RING_STAT, .RING_ABORT, .RING_DB, .CLX_RT, .CLX_LOST, .CLX_STAY_CFG, .SPAN_FC_CNT, .SPAN_AC_CNT, .SPAN_DIE_INFO]

/-- Registers 80 and up, in address-map order. -/
def regs4 : List RegId :=
  [.SPAN_SPARE_MAP, .SPAN_TILE_LOST, .SPAN_CACHE_CTL, .SPAN_CACHE_STAT, .SPAN_CACHE_PERF, .SPAN_CMAINT_CTL, .SPAN_CMAINT_ADDR, .SPAN_CMAINT_LEN, .SPAN_CMAINT_SIG, .SPAN_CMAINT_STAT, .SPAN_COH_STAT, .TR_CTL, .TR_WIN, .TR_SYNC, .TR_Q_BASE, .TR_Q_STAT, .TR_STAT, .TR_FLAGS, .TR_DB, .SPAN_PWR_CTL]

/-- Registers 100 and up, in address-map order. -/
def regs5 : List RegId :=
  [.SPAN_PWR_STAT, .SPAN_DROOP_STAT, .SPAN_VF_CURVE, .SPAN_CLD_PORT_STAT, .SPAN_CLD_PORT_ERR, .SPAN_CLD_PORT_CTL, .SPAN_ERR_STATUS, .SPAN_ERR_ADDR, .SPAN_ERR_SYND, .SPAN_ERR_TIME, .TILE_CTL, .TILE_STAT, .TILE_ENTRY, .TILE_ARG, .TILE_EXC, .TILE_EXC_ADDR, .TILE_SAVE_BASE, .TILE_IMEM_SRC, .TILE_IMEM_LOAD, .TILE_PROG_ID]

/-- Registers 120 and up, in address-map order. -/
def regs6 : List RegId :=
  [.TILE_STAY_WIN, .TILE_MOVE_STAT, .TILE_EPOCH, .TILE_MMA_CTL, .TILE_MMA_STAT, .TILE_MMA_PERF, .TILE_MMA_KSTEP, .TILE_FMT_FLAGS, .TILE_FMT_CTL, .TILE_SR_SEED, .TILE_AMAX, .FMT_DESC, .PIER_FC_CNT, .PIER_DIE_INFO, .PIER_EPOCH_STAT, .LAT_FLAGS, .LAT_STAT, .LAT_Q_BASE, .LAT_Q_CTL, .LAT_Q_STAT]

/-- Registers 140 and up, in address-map order. -/
def regs7 : List RegId :=
  [.LAT_DB, .CLX_LINK_STAT, .CLX_LINK_ERR, .CLX_LINK_CTL, .PIER_CLD_PORT_STAT, .PIER_CLD_PORT_ERR, .PIER_CLD_PORT_CTL, .P0_CLC_CFG, .P0_CLC_STAT, .P0_CLC_ERR, .RAW_HOST_CFG, .FAR_HOME_DIR_STAT, .FAR_HOME_DIR_CNT, .FAR_HOME_DIR_ERR, .FAR_HOME_DIR_CTL, .PIER_ERR_STATUS, .PIER_ERR_ADDR, .PIER_ERR_SYND, .PIER_ERR_TIME, .HBM_THR_CURVE]

/-- Registers 160 and up, in address-map order. -/
def regs8 : List RegId :=
  [.HBM_THR_CTL, .HBM_SCRUB_CTL, .HBM_SCRUB_STAT, .HBM_RETIRE_CTL, .HBM_REGION, .HBM_STK_STAT, .HBM_THR_STAT, .HBM_ERR_CNT, .HBM_PPR_STAT, .HBM_HOME_DIR_STAT, .HBM_HOME_DIR_CNT, .HBM_HOME_DIR_ERR, .HBM_HOME_DIR_CTL, .HBM_ERR_STATUS, .HBM_ERR_ADDR, .HBM_ERR_SYND, .HBM_ERR_TIME, .HBM_FCLASS]

/-- All registers, in address-map order. -/
def allRegs : List RegId :=
  List.flatten [regs0, regs1, regs2, regs3, regs4, regs5, regs6, regs7, regs8]

/-- R5. -/
def KST_ASSY_INFO.ASSY_CODE : Fld := ⟨7, 0⟩
/-- R5. -/
def KST_ASSY_INFO.SPAN_COUNT : Fld := ⟨11, 8⟩
/-- R5. -/
def KST_ASSY_INFO.HBM_STACKS : Fld := ⟨15, 12⟩
/-- R5. -/
def KST_ASSY_INFO.PIER_COUNT : Fld := ⟨18, 16⟩
/-- R5. -/
def KST_ASSY_INFO.PKG_STEPPING : Fld := ⟨31, 20⟩
/-- R409. -/
def DIE_INFO.DIE_KIND : Fld := ⟨3, 0⟩
/-- R409. -/
def DIE_INFO.DIE_IDX : Fld := ⟨7, 4⟩
/-- R409. -/
def DIE_INFO.STEPPING : Fld := ⟨19, 8⟩
/-- R409. -/
def DIE_INFO.PROTO_VER : Fld := ⟨27, 20⟩
/-- R409. -/
def DIE_INFO.FEAT : Fld := ⟨47, 32⟩
/-- R409. -/
def DIE_INFO.COMPAT_MIN : Fld := ⟨55, 48⟩
/-- R409. -/
def DIE_INFO.COMPAT_MAX : Fld := ⟨63, 56⟩
/-- R41. -/
def KST_MOD_ID.MOD_ID : Fld := ⟨14, 0⟩
/-- R41. -/
def KST_MOD_ID.VALID : Fld := ⟨15, 15⟩
/-- R41. -/
def KST_MOD_ID.ACT_ID : Fld := ⟨30, 16⟩
/-- R41. -/
def KST_MOD_ID.ACT_VALID : Fld := ⟨31, 31⟩
/-- R23. -/
def KST_FC_CNT.COUNT : Fld := ⟨63, 0⟩
/-- R27. -/
def KST_PWR_MODE.MODE : Fld := ⟨1, 0⟩
/-- R27. -/
def KST_PWR_MODE.PENDING : Fld := ⟨2, 2⟩
/-- R27. -/
def KST_PWR_MODE.FIXED_BREAK : Fld := ⟨3, 3⟩
/-- R31. -/
def KST_POLICY_OWN.OWN_TENSION : Fld := ⟨0, 0⟩
/-- R31. -/
def KST_POLICY_OWN.OWN_PLACEMENT : Fld := ⟨1, 1⟩
/-- R31. -/
def KST_POLICY_OWN.OWN_TRESTLE : Fld := ⟨2, 2⟩
/-- R31. -/
def KST_POLICY_OWN.OWN_GAUGE : Fld := ⟨3, 3⟩
/-- R31. -/
def KST_POLICY_OWN.OWN_RETIRE : Fld := ⟨4, 4⟩
/-- R31. -/
def KST_POLICY_OWN.ACK : Fld := ⟨20, 16⟩
/-- R56. -/
def ATTR_INVAL.PAGE_IDX : Fld := ⟨19, 0⟩
/-- R56. -/
def ATTR_INVAL.ALL : Fld := ⟨20, 20⟩
/-- R56. -/
def ATTR_INVAL.BUSY : Fld := ⟨62, 62⟩
/-- R56. -/
def ATTR_INVAL.GO : Fld := ⟨63, 63⟩
/-- R57. -/
def RAW_HBM_ATTR.RTYPE : Fld := ⟨1, 0⟩
/-- R57. -/
def RAW_HBM_ATTR.BAR_EN : Fld := ⟨2, 2⟩
/-- R500. -/
def KST_BOARD_STAT.VIN_DV : Fld := ⟨9, 0⟩
/-- R500. -/
def KST_BOARD_STAT.IN_C : Fld := ⟨16, 10⟩
/-- R500. -/
def KST_BOARD_STAT.OUT_C : Fld := ⟨23, 17⟩
/-- R500. -/
def KST_BOARD_STAT.STRAP : Fld := ⟨24, 24⟩
/-- R500. -/
def KST_BOARD_STAT.VRA_EXT : Fld := ⟨25, 25⟩
/-- R253. -/
def KST_ORD_STAT.DISCARD_CNT : Fld := ⟨31, 0⟩
/-- R253. -/
def KST_ORD_STAT.RESET_DROP_CNT : Fld := ⟨47, 32⟩
/-- R253. -/
def KST_ORD_STAT.UNREACH : Fld := ⟨48, 48⟩
/-- R253. -/
def KST_ORD_STAT.PD_DRAIN_FAIL : Fld := ⟨49, 49⟩
/-- R231. -/
def KST_COLL_ID.COLL_ID : Fld := ⟨15, 0⟩
/-- R231. -/
def KST_COLL_ID.VALID : Fld := ⟨16, 16⟩
/-- R231. -/
def KST_COLL_ID.ACTIVE : Fld := ⟨17, 17⟩
/-- R231. -/
def KST_COLL_ID.AUTO_FAIL : Fld := ⟨18, 18⟩
/-- R231. -/
def KST_COLL_ID.FAILED : Fld := ⟨19, 19⟩
/-- R231. -/
def KST_COLL_ID.ABORT : Fld := ⟨20, 20⟩
/-- R231. -/
def KST_COLL_ID.CTX_ID : Fld := ⟨31, 24⟩
/-- R231. -/
def KST_COLL_ID.RUN : Fld := ⟨47, 32⟩
/-- R201. -/
def TILE_STAY_WIN.SPAN_BASE : Fld := ⟨9, 0⟩
/-- R201. -/
def TILE_STAY_WIN.SPAN_COUNT : Fld := ⟨20, 10⟩
/-- R201. -/
def TILE_STAY_WIN.KST_BASE : Fld := ⟨32, 21⟩
/-- R201. -/
def TILE_STAY_WIN.KST_COUNT : Fld := ⟨45, 33⟩
/-- R231. -/
def KST_COLL_MEMB.MEMB_BASE : Fld := ⟨41, 12⟩
/-- R231. -/
def KST_COLL_BUF.BUF_BASE : Fld := ⟨41, 4⟩
/-- R231. -/
def KST_COLL_BUF.BUF_COUNT : Fld := ⟨50, 42⟩
/-- R231. -/
def KST_COLL_BUSY.ACTIVE : Fld := ⟨63, 0⟩
/-- R231. -/
def KST_REVOKE_CNT.COUNT : Fld := ⟨31, 0⟩
/-- R231. -/
def KST_REVOKE_CNT.REVOKE_OVF : Fld := ⟨32, 32⟩
/-- R231. -/
def KST_REVOKE_ENT.TAG : Fld := ⟨40, 0⟩
/-- R231. -/
def KST_REVOKE_ENT.CAUSE : Fld := ⟨42, 41⟩
/-- R231. -/
def KST_REVOKE_ENT.LINES : Fld := ⟨58, 43⟩
/-- R231. -/
def KST_REVOKE_ENT.VALID : Fld := ⟨63, 63⟩
/-- R351. -/
def PLC_PT_BASE.BASE : Fld := ⟨41, 21⟩
/-- R351. -/
def PLC_FAR_CFG.EN : Fld := ⟨0, 0⟩
/-- R351. -/
def PLC_FAR_CFG.PAGES_M1 : Fld := ⟨20, 1⟩
/-- R351. -/
def PLC_FAR_CFG.BASE : Fld := ⟨51, 21⟩
/-- R351. -/
def PLC_AGE_CTL.PERIOD_MS : Fld := ⟨7, 0⟩
/-- R351. -/
def PLC_AGE_CTL.PROMOTE_MAX : Fld := ⟨15, 8⟩
/-- R351. -/
def PLC_POOL_STAT.POOL : Fld := ⟨19, 0⟩
/-- R351. -/
def PLC_POOL_STAT.FREE : Fld := ⟨39, 20⟩
/-- R351. -/
def PLC_POOL_STAT.RAW : Fld := ⟨59, 40⟩
/-- R351. -/
def PLC_STAT.MOVE_CNT : Fld := ⟨31, 0⟩
/-- R351. -/
def PLC_STAT.ABANDON_CNT : Fld := ⟨47, 32⟩
/-- R351. -/
def PLC_STAT.PIN_BREAK : Fld := ⟨48, 48⟩
/-- R351. -/
def PLC_STAT.OVERCOMMIT : Fld := ⟨49, 49⟩
/-- R351. -/
def PLC_STAT.TBL_MOVED : Fld := ⟨50, 50⟩
/-- R434. -/
def TNS_CAP.USER_CAP_W : Fld := ⟨12, 0⟩
/-- R434. -/
def TNS_CAP.CAP_W : Fld := ⟨28, 16⟩
/-- R434. -/
def TNS_EST.EST_W : Fld := ⟨12, 0⟩
/-- R434. -/
def TNS_EST.MEAN_W : Fld := ⟨28, 16⟩
/-- R434. -/
def TNS_EST.MEAS_W : Fld := ⟨44, 32⟩
/-- R434. -/
def TNS_EST.GAIN : Fld := ⟨55, 48⟩
/-- R434. -/
def TNS_EST.CAL_FAIL : Fld := ⟨56, 56⟩
/-- R434. -/
def TNS_EVENT.VRA_CNT : Fld := ⟨15, 0⟩
/-- R434. -/
def TNS_EVENT.OT_CNT : Fld := ⟨31, 16⟩
/-- R434. -/
def TNS_EVENT.GUARD_CNT : Fld := ⟨47, 32⟩
/-- R434. -/
def TNS_EVENT.VRA_ACTIVE : Fld := ⟨48, 48⟩
/-- R434. -/
def TNS_EVENT.VRA_SEEN : Fld := ⟨49, 49⟩
/-- R434. -/
def TNS_EVENT.OT_SEEN : Fld := ⟨50, 50⟩
/-- R434. -/
def TNS_EVENT.REF_LOST : Fld := ⟨51, 51⟩
/-- R434. -/
def TNS_DEFER.DEFER_US : Fld := ⟨31, 0⟩
/-- R434. -/
def TNS_DEFER.DEFER_CNT : Fld := ⟨47, 32⟩
/-- R434. -/
def TNS_DEFER.EXPIRE_CNT : Fld := ⟨63, 48⟩
/-- R434. -/
def KST_PD_CTL.CORE_PD_OFF : Fld := ⟨7, 0⟩
/-- R434. -/
def KST_PD_CTL.CORE_PD_ON : Fld := ⟨15, 8⟩
/-- R434. -/
def KST_PD_CTL.PIER_PD_OFF : Fld := ⟨23, 16⟩
/-- R434. -/
def KST_PD_CTL.PIER_PD_ON : Fld := ⟨31, 24⟩
/-- R434. -/
def KST_KC_TARGET.MHZ_50 : Fld := ⟨6, 0⟩
/-- R388. -/
def KST_CORE_CTL.RESET : Fld := ⟨0, 0⟩
/-- R388. -/
def KST_CORE_CTL.HOLD : Fld := ⟨1, 1⟩
/-- R388. -/
def KST_CORE_CTL.RVEC : Fld := ⟨47, 6⟩
/-- R388. -/
def KST_CORE_STAT.STATE : Fld := ⟨1, 0⟩
/-- R388. -/
def KST_CORE_STAT.KC_MHZ : Fld := ⟨13, 2⟩
/-- R388. -/
def KST_QS_EXCL.EXCL : Fld := ⟨63, 0⟩
/-- R388. -/
def KST_QS_EXCL_ACT.EXCL_ACT : Fld := ⟨63, 0⟩
/-- R388. -/
def KST_HART_STAT.RUN : Fld := ⟨3, 0⟩
/-- R388. -/
def KST_HART_STAT.RESTART_CNT : Fld := ⟨23, 8⟩
/-- R388. -/
def KST_HART_STAT.LS_MISMATCH_CNT : Fld := ⟨31, 24⟩
/-- R462. -/
def KST_ERR_SUM.SPAN : Fld := ⟨7, 0⟩
/-- R462. -/
def KST_ERR_SUM.KST : Fld := ⟨8, 8⟩
/-- R462. -/
def KST_ERR_SUM.PIER : Fld := ⟨12, 9⟩
/-- R462. -/
def KST_ERR_SUM.HBM : Fld := ⟨24, 13⟩
/-- R462. -/
def KST_ERR_SUM.MAXCLASS : Fld := ⟨31, 28⟩
/-- R462. -/
def KST_ERR_LOG_STAT.NEXT : Fld := ⟨11, 0⟩
/-- R462. -/
def KST_ERR_LOG_STAT.WRAP_CNT : Fld := ⟨63, 32⟩
/-- R462. -/
def KST_ERR_LOG_IDX.IDX : Fld := ⟨11, 0⟩
/-- R462. -/
def ERRLOG.UNIT : Fld := ⟨15, 0⟩
/-- R462. -/
def ERRLOG.CLASS : Fld := ⟨19, 16⟩
/-- R462. -/
def ERRLOG.STATUS : Fld := ⟨31, 24⟩
/-- R462. -/
def ERRLOG.CAUSE : Fld := ⟨39, 32⟩
/-- R462. -/
def ERRLOG.REQ : Fld := ⟨55, 40⟩
/-- R462. -/
def ERRLOG.ADDR : Fld := ⟨63, 0⟩
/-- R462. -/
def ERRLOG.SYND : Fld := ⟨63, 0⟩
/-- R462. -/
def ERRLOG.TIME : Fld := ⟨63, 0⟩
/-- R462. -/
def KST_RAS_CTL.CORE : Fld := ⟨5, 0⟩
/-- R462. -/
def KST_RAS_CTL.CORE_RETIRE : Fld := ⟨6, 6⟩
/-- R462. -/
def KST_RAS_CTL.CONT_REQ : Fld := ⟨8, 8⟩
/-- R462. -/
def KST_RAS_CTL.CONT_RESUME : Fld := ⟨9, 9⟩
/-- R462. -/
def KST_RAS_CTL.VEC : Fld := ⟨26, 16⟩
/-- R462. -/
def KST_RAS_CTL.CORE_IID : Fld := ⟨37, 27⟩
/-- R462. -/
def KST_RAS_STAT.CONT_ACTIVE : Fld := ⟨0, 0⟩
/-- R462. -/
def KST_RAS_STAT.CONT_EVENT : Fld := ⟨3, 1⟩
/-- R462. -/
def KST_RAS_STAT.STORM : Fld := ⟨4, 4⟩
/-- R462. -/
def KST_RAS_STAT.LAST_CAUSE : Fld := ⟨15, 8⟩
/-- R462. -/
def KST_RAS_STAT.CONT_CNT : Fld := ⟨31, 16⟩
/-- R462. -/
def KST_CORE_RETIRED.RETIRED : Fld := ⟨63, 0⟩
/-- R462. -/
def KST_GAUGE_CTL.PERIOD_MIN : Fld := ⟨8, 0⟩
/-- R462. -/
def KST_GAUGE_CTL.DEFER_MIN : Fld := ⟨13, 9⟩
/-- R462. -/
def KST_GAUGE_CTL.MAX_SPAN : Fld := ⟨15, 14⟩
/-- R462. -/
def KST_GAUGE_CTL.MAX_CORE : Fld := ⟨18, 16⟩
/-- R462. -/
def KST_GAUGE_REQ.KIND : Fld := ⟨0, 0⟩
/-- R462. -/
def KST_GAUGE_REQ.SPAN : Fld := ⟨3, 1⟩
/-- R462. -/
def KST_GAUGE_REQ.UNIT : Fld := ⟨10, 4⟩
/-- R462. -/
def KST_GAUGE_REQ.RESULT : Fld := ⟨57, 56⟩
/-- R462. -/
def KST_GAUGE_REQ.BUSY : Fld := ⟨62, 62⟩
/-- R462. -/
def KST_GAUGE_REQ.GO : Fld := ⟨63, 63⟩
/-- R462. -/
def KST_GAUGE_STAT.RUN_CNT : Fld := ⟨23, 0⟩
/-- R462. -/
def KST_GAUGE_STAT.PREEMPT_CNT : Fld := ⟨39, 24⟩
/-- R462. -/
def KST_GAUGE_STAT.FAIL_CNT : Fld := ⟨47, 40⟩
/-- R462. -/
def KST_GAUGE_STAT.OVERDUE_CNT : Fld := ⟨63, 48⟩
/-- R462. -/
def KST_RETIRE.INC : Fld := ⟨7, 0⟩
/-- R462. -/
def KST_RETIRE.THRESH : Fld := ⟨23, 8⟩
/-- R462. -/
def KST_RETIRE.LEAK : Fld := ⟨39, 24⟩
/-- R462. -/
def KST_RETIRE.LEAK_UNIT : Fld := ⟨41, 40⟩
/-- R462. -/
def KST_RETIRE.WIN : Fld := ⟨42, 42⟩
/-- R462. -/
def KST_RETIRE.ACTION : Fld := ⟨51, 48⟩
/-- R485. -/
def KST_BOOT_STAT.STAGE : Fld := ⟨3, 0⟩
/-- R485. -/
def KST_BOOT_STAT.SLOT : Fld := ⟨4, 4⟩
/-- R485. -/
def KST_BOOT_STAT.TRIAL : Fld := ⟨5, 5⟩
/-- R485. -/
def KST_BOOT_STAT.FALLBACK : Fld := ⟨6, 6⟩
/-- R485. -/
def KST_BOOT_STAT.RCVY_CAUSE : Fld := ⟨15, 8⟩
/-- R485. -/
def KST_BOOT_STAT.BOOT_CNT : Fld := ⟨31, 16⟩
/-- R485. -/
def KST_BOOT_STAT.BOOT_MS : Fld := ⟨63, 32⟩
/-- R485. -/
def KST_BOOT_CTL.NEXT_SLOT : Fld := ⟨0, 0⟩
/-- R485. -/
def KST_BOOT_CTL.SELECT : Fld := ⟨1, 1⟩
/-- R485. -/
def KST_BOOT_CTL.CONFIRM : Fld := ⟨2, 2⟩
/-- R485. -/
def KST_BOOT_CTL.CASTOFF : Fld := ⟨3, 3⟩
/-- R485. -/
def KST_BOOT_CTL.MOD_RESET : Fld := ⟨4, 4⟩
/-- R485. -/
def KST_BOOT_CTL.RECOVERY : Fld := ⟨5, 5⟩
/-- R485. -/
def KST_BOOT_CTL.CONFIRM_MIN : Fld := ⟨23, 16⟩
/-- R485. -/
def KST_SLOT.READY : Fld := ⟨0, 0⟩
/-- R485. -/
def KST_SLOT.WRITING : Fld := ⟨1, 1⟩
/-- R485. -/
def KST_SLOT.TRIAL : Fld := ⟨2, 2⟩
/-- R485. -/
def KST_SLOT.CONFIRMED : Fld := ⟨3, 3⟩
/-- R485. -/
def KST_SLOT.FAIL_CNT : Fld := ⟨15, 8⟩
/-- R485. -/
def KST_SLOT.SVN : Fld := ⟨23, 16⟩
/-- R485. -/
def KST_SLOT.KEYSLOT : Fld := ⟨31, 24⟩
/-- R485. -/
def KST_SLOT.VERSION : Fld := ⟨63, 32⟩
/-- R485. -/
def KST_SET_CTL.SCOPE : Fld := ⟨3, 0⟩
/-- R485. -/
def KST_SET_CTL.DEFAULT : Fld := ⟨62, 62⟩
/-- R485. -/
def KST_SET_CTL.STORE : Fld := ⟨63, 63⟩
/-- R485. -/
def KST_SET_STAT.BUSY : Fld := ⟨0, 0⟩
/-- R485. -/
def KST_SET_STAT.PENDING : Fld := ⟨1, 1⟩
/-- R485. -/
def KST_SET_STAT.DIRTY : Fld := ⟨2, 2⟩
/-- R485. -/
def KST_SET_STAT.DEFAULT_PEND : Fld := ⟨3, 3⟩
/-- R485. -/
def KST_SET_STAT.STATUS : Fld := ⟨15, 8⟩
/-- R485. -/
def KST_SET_STAT.BUDGET : Fld := ⟨22, 16⟩
/-- R485. -/
def KST_SET_STAT.COMMIT_CNT : Fld := ⟨47, 32⟩
/-- R485. -/
def KST_SET_STAT.WEAR_PM : Fld := ⟨57, 48⟩
/-- R485. -/
def KST_ID_STAT.PUF_OK : Fld := ⟨0, 0⟩
/-- R485. -/
def KST_ID_STAT.DEVID_READY : Fld := ⟨1, 1⟩
/-- R485. -/
def KST_ID_STAT.ALIAS_READY : Fld := ⟨2, 2⟩
/-- R485. -/
def KST_ID_STAT.PUF_FAIL : Fld := ⟨3, 3⟩
/-- R485. -/
def KST_ID_STAT.KEY_VALID : Fld := ⟨7, 4⟩
/-- R485. -/
def KST_ID_STAT.KEY_REVOKED : Fld := ⟨11, 8⟩
/-- R375. -/
def KST_PARK.PARKED : Fld := ⟨0, 0⟩
/-- R375. -/
def KST_PARK.DRAINING : Fld := ⟨1, 1⟩
/-- R375. -/
def KST_PARK.CAUSE : Fld := ⟨3, 2⟩
/-- R375. -/
def KST_PARK.EPOCH : Fld := ⟨63, 32⟩
/-- R409. -/
def CLD_PORT_STAT.STATE : Fld := ⟨3, 0⟩
/-- R409. -/
def CLD_PORT_STAT.WIDTH : Fld := ⟨5, 4⟩
/-- R409. -/
def CLD_PORT_STAT.FORCED : Fld := ⟨6, 6⟩
/-- R409. -/
def CLD_PORT_STAT.REPAIR_USED : Fld := ⟨10, 8⟩
/-- R409. -/
def CLD_PORT_STAT.ACT_FEAT : Fld := ⟨31, 16⟩
/-- R409. -/
def CLD_PORT_STAT.PEER_VER : Fld := ⟨39, 32⟩
/-- R409. -/
def CLD_PORT_STAT.PEER_STEPPING : Fld := ⟨51, 40⟩
/-- R409. -/
def CLD_PORT_STAT.PEER_KIND : Fld := ⟨55, 52⟩
/-- R409. -/
def CLD_PORT_STAT.PEER_IDX : Fld := ⟨59, 56⟩
/-- R409. -/
def CLD_PORT_ERR.CRC_CNT : Fld := ⟨15, 0⟩
/-- R409. -/
def CLD_PORT_ERR.RETRAIN_CNT : Fld := ⟨31, 16⟩
/-- R409. -/
def CLD_PORT_ERR.FAIL_STREAK : Fld := ⟨33, 32⟩
/-- R409. -/
def CLD_PORT_ERR.NOT_COMPAT : Fld := ⟨34, 34⟩
/-- R409. -/
def CLD_PORT_ERR.DEGRADE : Fld := ⟨35, 35⟩
/-- R409. -/
def CLD_PORT_ERR.RETIRED : Fld := ⟨36, 36⟩
/-- R409. -/
def CLD_PORT_CTL.RETRAIN : Fld := ⟨0, 0⟩
/-- R409. -/
def CLD_PORT_CTL.MAX_WIDTH : Fld := ⟨2, 1⟩
/-- R278. -/
def COH_AGENT_STAT.NACK_CNT : Fld := ⟨31, 0⟩
/-- R278. -/
def COH_AGENT_STAT.STARVE_CNT : Fld := ⟨47, 32⟩
/-- R278. -/
def COH_AGENT_STAT.MAX_RUN : Fld := ⟨55, 48⟩
/-- R462. -/
def ERR_STATUS.VALID : Fld := ⟨0, 0⟩
/-- R462. -/
def ERR_STATUS.OVERFLOW : Fld := ⟨1, 1⟩
/-- R462. -/
def ERR_STATUS.ADDR_VALID : Fld := ⟨2, 2⟩
/-- R462. -/
def ERR_STATUS.CLASS : Fld := ⟨7, 4⟩
/-- R462. -/
def ERR_STATUS.STATUS : Fld := ⟨15, 8⟩
/-- R462. -/
def ERR_STATUS.UNIT : Fld := ⟨31, 16⟩
/-- R462. -/
def ERR_STATUS.CAUSE : Fld := ⟨39, 32⟩
/-- R462. -/
def ERR_STATUS.COUNT : Fld := ⟨63, 40⟩
/-- R462. -/
def ERR_ADDR.ADDR : Fld := ⟨63, 0⟩
/-- R462. -/
def ERR_SYND.SYND : Fld := ⟨63, 0⟩
/-- R462. -/
def ERR_TIME.FC : Fld := ⟨63, 0⟩
/-- R27. -/
def CTX_MODE.INTEG : Fld := ⟨0, 0⟩
/-- R27. -/
def CTX_MODE.ACT_PROT : Fld := ⟨1, 1⟩
/-- R27. -/
def CTX_MODE.ORDER : Fld := ⟨2, 2⟩
/-- R253. -/
def CTX_RSV_CTL.GRAN : Fld := ⟨2, 0⟩
/-- R351. -/
def CTX_POOL.RESERVE : Fld := ⟨19, 0⟩
/-- R351. -/
def CTX_POOL.LIMIT : Fld := ⟨39, 20⟩
/-- R351. -/
def CTX_POOL.CHARGED : Fld := ⟨59, 40⟩
/-- R387. -/
def KST_MBOX_CTL.CODE : Fld := ⟨15, 0⟩
/-- R387. -/
def KST_MBOX_CTL.TAG : Fld := ⟨23, 16⟩
/-- R387. -/
def KST_MBOX_CTL.HOST : Fld := ⟨24, 24⟩
/-- R387. -/
def KST_MBOX_CTL.INT_EN : Fld := ⟨25, 25⟩
/-- R387. -/
def KST_MBOX_CTL.ARG : Fld := ⟨56, 32⟩
/-- R387. -/
def KST_MBOX_CTL.GO : Fld := ⟨63, 63⟩
/-- R387. -/
def KST_MBOX_ARG_OFF.OFF : Fld := ⟨26, 7⟩
/-- R387. -/
def KST_MBOX_STAT.STATUS : Fld := ⟨7, 0⟩
/-- R387. -/
def KST_MBOX_STAT.TAG : Fld := ⟨15, 8⟩
/-- R387. -/
def KST_MBOX_STAT.BUSY : Fld := ⟨16, 16⟩
/-- R388. -/
def KST_MBOX_INT.VEC : Fld := ⟨10, 0⟩
/-- R388. -/
def KST_MBOX_INT.IID : Fld := ⟨22, 12⟩
/-- R388. -/
def KST_MBOX_INT.CORE : Fld := ⟨29, 24⟩
/-- R388. -/
def KST_MBOX_INT.TARGET : Fld := ⟨31, 30⟩
/-- R375. -/
def RING_BASE.LOG2_SIZE : Fld := ⟨3, 0⟩
/-- R375. -/
def RING_BASE.HOST : Fld := ⟨4, 4⟩
/-- R375. -/
def RING_BASE.ADDR : Fld := ⟨51, 6⟩
/-- R375. -/
def RING_CPL.HOST : Fld := ⟨0, 0⟩
/-- R375. -/
def RING_CPL.ADDR : Fld := ⟨51, 3⟩
/-- R375. -/
def RING_CTL.EN : Fld := ⟨0, 0⟩
/-- R375. -/
def RING_CTL.DISABLE : Fld := ⟨1, 1⟩
/-- R375. -/
def RING_CTL.ABORT_EN : Fld := ⟨2, 2⟩
/-- R375. -/
def RING_CTL.PRIO : Fld := ⟨5, 4⟩
/-- R375. -/
def RING_CTL.INT_EN : Fld := ⟨6, 6⟩
/-- R375. -/
def RING_CTL.CTX_ID : Fld := ⟨15, 8⟩
/-- R375. -/
def RING_CTL.VEC : Fld := ⟨26, 16⟩
/-- R375. -/
def RING_STAT.HEAD : Fld := ⟨11, 0⟩
/-- R375. -/
def RING_STAT.DISABLE_PENDING : Fld := ⟨12, 12⟩
/-- R375. -/
def RING_STAT.BUSY : Fld := ⟨13, 13⟩
/-- R375. -/
def RING_STAT.STOPPED : Fld := ⟨14, 14⟩
/-- R375. -/
def RING_STAT.ERR : Fld := ⟨15, 15⟩
/-- R375. -/
def RING_STAT.STOP_STATUS : Fld := ⟨23, 16⟩
/-- R375. -/
def RING_STAT.STOP_SEQ : Fld := ⟨55, 24⟩
/-- R375. -/
def RING_ABORT.SEQ : Fld := ⟨31, 0⟩
/-- R375. -/
def RING_ABORT.RESULT : Fld := ⟨39, 32⟩
/-- R375. -/
def RING_ABORT.BUSY : Fld := ⟨62, 62⟩
/-- R375. -/
def RING_ABORT.GO : Fld := ⟨63, 63⟩
/-- R375. -/
def RING_DB.TAIL : Fld := ⟨11, 0⟩
/-- R409. -/
def CLX_RT.LINK_MASK : Fld := ⟨23, 0⟩
/-- R409. -/
def CLX_RT.NEXT : Fld := ⟨28, 24⟩
/-- R409. -/
def CLX_RT.NEXT_EN : Fld := ⟨29, 29⟩
/-- R409. -/
def CLX_RT.ALT : Fld := ⟨34, 30⟩
/-- R409. -/
def CLX_RT.ALT_EN : Fld := ⟨35, 35⟩
/-- R409. -/
def CLX_RT.VALID : Fld := ⟨63, 63⟩
/-- R409. -/
def CLX_LOST.LOST : Fld := ⟨63, 0⟩
/-- R409. -/
def CLX_STAY_CFG.HOP_MAX : Fld := ⟨4, 0⟩
/-- R409. -/
def CLX_STAY_CFG.STAY_DROP : Fld := ⟨47, 16⟩
/-- R23. -/
def SPAN_AC_CNT.COUNT : Fld := ⟨63, 0⟩
/-- R126. -/
def SPAN_SPARE_MAP.LOG_ID : Fld := ⟨5, 0⟩
/-- R126. -/
def SPAN_SPARE_MAP.USED : Fld := ⟨6, 6⟩
/-- R126. -/
def SPAN_SPARE_MAP.FT : Fld := ⟨7, 7⟩
/-- R126. -/
def SPAN_SPARE_MAP.FAILED : Fld := ⟨8, 8⟩
/-- R126. -/
def SPAN_TILE_LOST.LOST : Fld := ⟨63, 0⟩
/-- R298. -/
def SPAN_CACHE_CTL.EN : Fld := ⟨0, 0⟩
/-- R298. -/
def SPAN_CACHE_CTL.FORCE : Fld := ⟨1, 1⟩
/-- R298. -/
def SPAN_CACHE_CTL.SKEIN_WAYS : Fld := ⟨7, 4⟩
/-- R298. -/
def SPAN_CACHE_STAT.DIS_PENDING : Fld := ⟨0, 0⟩
/-- R298. -/
def SPAN_CACHE_STAT.INV_CLEAN : Fld := ⟨1, 1⟩
/-- R298. -/
def SPAN_CACHE_STAT.STALE_EN : Fld := ⟨2, 2⟩
/-- R298. -/
def SPAN_CACHE_STAT.DIRTY_LOST : Fld := ⟨3, 3⟩
/-- R298. -/
def SPAN_CACHE_STAT.VEB_OCC : Fld := ⟨17, 8⟩
/-- R298. -/
def SPAN_CACHE_STAT.DIRTY_AT_DIS : Fld := ⟨43, 24⟩
/-- R298. -/
def SPAN_CACHE_PERF.VEB_RECALL_CNT : Fld := ⟨31, 0⟩
/-- R298. -/
def SPAN_CACHE_PERF.VEB_FULL_STALL : Fld := ⟨63, 32⟩
/-- R298. -/
def SPAN_CMAINT_CTL.OP : Fld := ⟨1, 0⟩
/-- R298. -/
def SPAN_CMAINT_CTL.TARGET : Fld := ⟨2, 2⟩
/-- R298. -/
def SPAN_CMAINT_CTL.SCOPE : Fld := ⟨3, 3⟩
/-- R298. -/
def SPAN_CMAINT_CTL.WAY_MASK : Fld := ⟨19, 4⟩
/-- R298. -/
def SPAN_CMAINT_CTL.SIG_EN : Fld := ⟨20, 20⟩
/-- R298. -/
def SPAN_CMAINT_CTL.INT_EN : Fld := ⟨21, 21⟩
/-- R298. -/
def SPAN_CMAINT_CTL.ABORT : Fld := ⟨62, 62⟩
/-- R298. -/
def SPAN_CMAINT_CTL.GO : Fld := ⟨63, 63⟩
/-- R298. -/
def SPAN_CMAINT_ADDR.ADDR : Fld := ⟨41, 7⟩
/-- R298. -/
def SPAN_CMAINT_LEN.LINES : Fld := ⟨34, 0⟩
/-- R298. -/
def SPAN_CMAINT_SIG.INDEX : Fld := ⟨11, 0⟩
/-- R298. -/
def SPAN_CMAINT_SIG.HOME : Fld := ⟨15, 12⟩
/-- R298. -/
def SPAN_CMAINT_STAT.BUSY : Fld := ⟨0, 0⟩
/-- R298. -/
def SPAN_CMAINT_STAT.DONE : Fld := ⟨1, 1⟩
/-- R298. -/
def SPAN_CMAINT_STAT.ERR : Fld := ⟨2, 2⟩
/-- R298. -/
def SPAN_CMAINT_STAT.STATUS : Fld := ⟨15, 8⟩
/-- R298. -/
def SPAN_CMAINT_STAT.PROGRESS : Fld := ⟨50, 16⟩
/-- R298. -/
def SPAN_CMAINT_STAT.SKIP_CNT : Fld := ⟨63, 51⟩
/-- R351. -/
def TR_CTL.EN : Fld := ⟨0, 0⟩
/-- R351. -/
def TR_CTL.GO : Fld := ⟨1, 1⟩
/-- R351. -/
def TR_CTL.DISABLE : Fld := ⟨2, 2⟩
/-- R351. -/
def TR_CTL.ABORT_EN : Fld := ⟨3, 3⟩
/-- R351. -/
def TR_WIN.SLOTS : Fld := ⟨1, 0⟩
/-- R351. -/
def TR_WIN.SLOT_128K : Fld := ⟨15, 8⟩
/-- R351. -/
def TR_SYNC.START_IDX : Fld := ⟨9, 0⟩
/-- R351. -/
def TR_SYNC.READY_IDX : Fld := ⟨19, 10⟩
/-- R351. -/
def TR_SYNC.DONE_IDX : Fld := ⟨29, 20⟩
/-- R351. -/
def TR_SYNC.RELEASE_CNT : Fld := ⟨36, 30⟩
/-- R231. -/
def LAT_Q_BASE.LOG2_SIZE : Fld := ⟨3, 0⟩
/-- R231. -/
def LAT_Q_BASE.BASE : Fld := ⟨41, 6⟩
/-- R351. -/
def TR_Q_STAT.HEAD : Fld := ⟨11, 0⟩
/-- R351. -/
def TR_Q_STAT.DISABLE_PENDING : Fld := ⟨12, 12⟩
/-- R351. -/
def TR_Q_STAT.BUSY : Fld := ⟨13, 13⟩
/-- R351. -/
def TR_Q_STAT.LAYER : Fld := ⟨45, 14⟩
/-- R351. -/
def TR_STAT.MISS_CNT : Fld := ⟨15, 0⟩
/-- R351. -/
def TR_STAT.SHADOW_CNT : Fld := ⟨31, 16⟩
/-- R351. -/
def TR_STAT.RETRY_CNT : Fld := ⟨47, 32⟩
/-- R351. -/
def TR_STAT.SPILL_CNT : Fld := ⟨63, 48⟩
/-- R351. -/
def TR_FLAGS.DL_MISS : Fld := ⟨0, 0⟩
/-- R351. -/
def TR_FLAGS.SHADOW : Fld := ⟨1, 1⟩
/-- R351. -/
def TR_FLAGS.POISON : Fld := ⟨2, 2⟩
/-- R351. -/
def TR_FLAGS.REPLICA_USED : Fld := ⟨3, 3⟩
/-- R231. -/
def LAT_DB.TAIL : Fld := ⟨11, 0⟩
/-- R434. -/
def SPAN_PWR_CTL.TARGET_MHZ : Fld := ⟨10, 0⟩
/-- R434. -/
def SPAN_PWR_CTL.PD_OFF : Fld := ⟨23, 16⟩
/-- R434. -/
def SPAN_PWR_CTL.FMAX_MHZ : Fld := ⟨42, 32⟩
/-- R434. -/
def SPAN_PWR_STAT.AC_MHZ : Fld := ⟨10, 0⟩
/-- R434. -/
def SPAN_PWR_STAT.EFF_MHZ : Fld := ⟨21, 11⟩
/-- R434. -/
def SPAN_PWR_STAT.VOLT_MV : Fld := ⟨31, 22⟩
/-- R434. -/
def SPAN_PWR_STAT.PD_ON : Fld := ⟨39, 32⟩
/-- R434. -/
def SPAN_PWR_STAT.PD_PEND : Fld := ⟨47, 40⟩
/-- R434. -/
def SPAN_PWR_STAT.TJ_C : Fld := ⟨55, 48⟩
/-- R434. -/
def SPAN_PWR_STAT.DROOP_ACT : Fld := ⟨56, 56⟩
/-- R434. -/
def SPAN_PWR_STAT.OT_FAST : Fld := ⟨57, 57⟩
/-- R434. -/
def SPAN_DROOP_STAT.DROOP_CNT : Fld := ⟨23, 0⟩
/-- R434. -/
def SPAN_DROOP_STAT.CHG_ABANDON : Fld := ⟨31, 24⟩
/-- R434. -/
def SPAN_DROOP_STAT.STRETCH_CYC : Fld := ⟨63, 32⟩
/-- R434. -/
def SPAN_VF_CURVE.FREQ_MHZ : Fld := ⟨10, 0⟩
/-- R434. -/
def SPAN_VF_CURVE.VOLT_MV : Fld := ⟨21, 12⟩
/-- R434. -/
def SPAN_VF_CURVE.AGE_MV : Fld := ⟨27, 22⟩
/-- R434. -/
def SPAN_VF_CURVE.WITHDRAWN : Fld := ⟨28, 28⟩
/-- R148. -/
def TILE_CTL.START : Fld := ⟨0, 0⟩
/-- R148. -/
def TILE_CTL.RESET : Fld := ⟨1, 1⟩
/-- R148. -/
def TILE_CTL.PREEMPT : Fld := ⟨2, 2⟩
/-- R148. -/
def TILE_CTL.RESTORE : Fld := ⟨3, 3⟩
/-- R148. -/
def TILE_CTL.ABORT : Fld := ⟨4, 4⟩
/-- R148. -/
def TILE_CTL.DISABLE : Fld := ⟨5, 5⟩
/-- R148. -/
def TILE_STAT.STATE : Fld := ⟨3, 0⟩
/-- R148. -/
def TILE_STAT.DISABLE_PENDING : Fld := ⟨4, 4⟩
/-- R148. -/
def TILE_STAT.RESETTING : Fld := ⟨5, 5⟩
/-- R148. -/
def TILE_STAT.CTX_ID : Fld := ⟨15, 8⟩
/-- R148. -/
def TILE_ENTRY.PC : Fld := ⟨16, 0⟩
/-- R148. -/
def TILE_ENTRY.CTX_ID : Fld := ⟨24, 17⟩
/-- R148. -/
def TILE_ENTRY.RANK : Fld := ⟨41, 32⟩
/-- R148. -/
def TILE_ENTRY.COUNT_M1 : Fld := ⟨51, 42⟩
/-- R148. -/
def TILE_ARG.ARG : Fld := ⟨63, 0⟩
/-- R148. -/
def TILE_EXC.CAUSE : Fld := ⟨7, 0⟩
/-- R148. -/
def TILE_EXC.STREAM : Fld := ⟨9, 8⟩
/-- R148. -/
def TILE_EXC.MULTI : Fld := ⟨10, 10⟩
/-- R148. -/
def TILE_EXC.PC : Fld := ⟨32, 16⟩
/-- R148. -/
def TILE_EXC_ADDR.ADDR : Fld := ⟨63, 0⟩
/-- R148. -/
def TILE_SAVE_BASE.MEM : Fld := ⟨0, 0⟩
/-- R148. -/
def TILE_SAVE_BASE.BASE : Fld := ⟨41, 21⟩
/-- R148. -/
def TILE_IMEM_SRC.ADDR : Fld := ⟨41, 6⟩
/-- R148. -/
def TILE_IMEM_LOAD.DST_BLK : Fld := ⟨10, 0⟩
/-- R148. -/
def TILE_IMEM_LOAD.BLOCKS : Fld := ⟨23, 12⟩
/-- R148. -/
def TILE_IMEM_LOAD.STATUS : Fld := ⟨31, 24⟩
/-- R148. -/
def TILE_IMEM_LOAD.ERR : Fld := ⟨61, 61⟩
/-- R148. -/
def TILE_IMEM_LOAD.BUSY : Fld := ⟨62, 62⟩
/-- R148. -/
def TILE_IMEM_LOAD.GO : Fld := ⟨63, 63⟩
/-- R148. -/
def TILE_PROG_ID.TAG : Fld := ⟨63, 0⟩
/-- R201. -/
def TILE_MOVE_STAT.FIRST_STATUS : Fld := ⟨7, 0⟩
/-- R201. -/
def TILE_MOVE_STAT.UNREACH : Fld := ⟨8, 8⟩
/-- R201. -/
def TILE_MOVE_STAT.HOSTLOST : Fld := ⟨9, 9⟩
/-- R201. -/
def TILE_MOVE_STAT.ACTIVE : Fld := ⟨12, 10⟩
/-- R201. -/
def TILE_MOVE_STAT.FAIL_CNT : Fld := ⟨47, 32⟩
/-- R201. -/
def TILE_EPOCH.NEXT_SEQ : Fld := ⟨15, 0⟩
/-- R201. -/
def TILE_EPOCH.OPEN : Fld := ⟨16, 16⟩
/-- R201. -/
def TILE_EPOCH.UNRESOLVED : Fld := ⟨19, 17⟩
/-- R201. -/
def TILE_EPOCH.REVOKED_D : Fld := ⟨20, 20⟩
/-- R201. -/
def TILE_EPOCH.REVOKE_CNT : Fld := ⟨47, 32⟩
/-- R126. -/
def TILE_MMA_CTL.GATE_DIS : Fld := ⟨0, 0⟩
/-- R126. -/
def TILE_MMA_CTL.INJ_ONCE : Fld := ⟨1, 1⟩
/-- R126. -/
def TILE_MMA_STAT.BUSY : Fld := ⟨0, 0⟩
/-- R126. -/
def TILE_MMA_STAT.VERDICT_PEND : Fld := ⟨1, 1⟩
/-- R126. -/
def TILE_MMA_STAT.SHAPE : Fld := ⟨3, 2⟩
/-- R126. -/
def TILE_MMA_STAT.RETRYING : Fld := ⟨4, 4⟩
/-- R126. -/
def TILE_MMA_STAT.MISMATCH_CNT : Fld := ⟨23, 8⟩
/-- R126. -/
def TILE_MMA_STAT.RETRY_PASS_CNT : Fld := ⟨39, 24⟩
/-- R126. -/
def TILE_MMA_PERF.FEED_STALL : Fld := ⟨31, 0⟩
/-- R126. -/
def TILE_MMA_PERF.BANK_STALL : Fld := ⟨63, 32⟩
/-- R126. -/
def TILE_MMA_KSTEP.ACTIVE : Fld := ⟨63, 0⟩
/-- R88. -/
def TILE_FMT_FLAGS.FMT_OVF : Fld := ⟨0, 0⟩
/-- R88. -/
def TILE_FMT_FLAGS.FMT_UNF : Fld := ⟨1, 1⟩
/-- R88. -/
def TILE_FMT_FLAGS.FMT_INV : Fld := ⟨2, 2⟩
/-- R88. -/
def TILE_FMT_FLAGS.D_OVF : Fld := ⟨8, 8⟩
/-- R88. -/
def TILE_FMT_FLAGS.D_UNF : Fld := ⟨9, 9⟩
/-- R88. -/
def TILE_FMT_FLAGS.D_INV : Fld := ⟨10, 10⟩
/-- R89. -/
def TILE_FMT_CTL.RPT_OVF : Fld := ⟨0, 0⟩
/-- R89. -/
def TILE_FMT_CTL.RPT_UNF : Fld := ⟨1, 1⟩
/-- R83. -/
def TILE_SR_SEED.SEED : Fld := ⟨63, 0⟩
/-- R100. -/
def TILE_AMAX.FRAC : Fld := ⟨22, 0⟩
/-- R100. -/
def TILE_AMAX.EXP : Fld := ⟨32, 23⟩
/-- R100. -/
def TILE_AMAX.NAN_SEEN : Fld := ⟨33, 33⟩
/-- R100. -/
def TILE_AMAX.SCALE : Fld := ⟨47, 40⟩
/-- R100. -/
def TILE_AMAX.AUTO : Fld := ⟨48, 48⟩
/-- R100. -/
def TILE_AMAX.MARGIN : Fld := ⟨51, 49⟩
/-- R100. -/
def TILE_AMAX.DSLOT : Fld := ⟨55, 52⟩
/-- R100. -/
def TILE_AMAX.ROLL : Fld := ⟨63, 63⟩
/-- R78. -/
def FMT_DESC.OVF_MODE : Fld := ⟨0, 0⟩
/-- R78. -/
def FMT_DESC.RND : Fld := ⟨2, 1⟩
/-- R78. -/
def FMT_DESC.BLK : Fld := ⟨4, 3⟩
/-- R78. -/
def FMT_DESC.SLOT : Fld := ⟨11, 8⟩
/-- R78. -/
def FMT_DESC.U_WIDTH : Fld := ⟨19, 16⟩
/-- R78. -/
def FMT_DESC.U_EBITS : Fld := ⟨22, 20⟩
/-- R78. -/
def FMT_DESC.U_BIAS : Fld := ⟨28, 24⟩
/-- R78. -/
def FMT_DESC.U_SPECIAL : Fld := ⟨30, 29⟩
/-- R78. -/
def FMT_DESC.U_VALID : Fld := ⟨63, 63⟩
/-- R231. -/
def PIER_EPOCH_STAT.HELD : Fld := ⟨16, 0⟩
/-- R231. -/
def PIER_EPOCH_STAT.REC : Fld := ⟨33, 17⟩
/-- R231. -/
def PIER_EPOCH_STAT.EPOCHS : Fld := ⟨43, 34⟩
/-- R231. -/
def PIER_EPOCH_STAT.BP : Fld := ⟨44, 44⟩
/-- R231. -/
def LAT_FLAGS.OVF : Fld := ⟨0, 0⟩
/-- R231. -/
def LAT_FLAGS.UNF : Fld := ⟨1, 1⟩
/-- R231. -/
def LAT_FLAGS.INV : Fld := ⟨2, 2⟩
/-- R231. -/
def LAT_STAT.DROP_CNT : Fld := ⟨31, 0⟩
/-- R231. -/
def LAT_STAT.REFUSED : Fld := ⟨47, 32⟩
/-- R231. -/
def LAT_Q_CTL.EN : Fld := ⟨0, 0⟩
/-- R231. -/
def LAT_Q_CTL.DISABLE : Fld := ⟨1, 1⟩
/-- R231. -/
def LAT_Q_CTL.ABORT_EN : Fld := ⟨2, 2⟩
/-- R231. -/
def LAT_Q_CTL.CTX_ID : Fld := ⟨15, 8⟩
/-- R231. -/
def LAT_Q_STAT.HEAD : Fld := ⟨11, 0⟩
/-- R231. -/
def LAT_Q_STAT.DISABLE_PENDING : Fld := ⟨12, 12⟩
/-- R231. -/
def LAT_Q_STAT.BUSY : Fld := ⟨13, 13⟩
/-- R409. -/
def CLX_LINK_STAT.STATE : Fld := ⟨3, 0⟩
/-- R409. -/
def CLX_LINK_STAT.LANES : Fld := ⟨7, 4⟩
/-- R409. -/
def CLX_LINK_STAT.SPARE_USED : Fld := ⟨8, 8⟩
/-- R409. -/
def CLX_LINK_STAT.PEER_MOD : Fld := ⟨26, 12⟩
/-- R409. -/
def CLX_LINK_STAT.PEER_VALID : Fld := ⟨27, 27⟩
/-- R409. -/
def CLX_LINK_STAT.PEER_LINK : Fld := ⟨32, 28⟩
/-- R409. -/
def CLX_LINK_STAT.RT_MISMATCH : Fld := ⟨33, 33⟩
/-- R409. -/
def CLX_LINK_STAT.PEER_VER : Fld := ⟨41, 34⟩
/-- R409. -/
def CLX_LINK_STAT.ACT_FEAT : Fld := ⟨57, 42⟩
/-- R409. -/
def CLX_LINK_ERR.REPLAY_CNT : Fld := ⟨15, 0⟩
/-- R409. -/
def CLX_LINK_ERR.RETRAIN_CNT : Fld := ⟨31, 16⟩
/-- R409. -/
def CLX_LINK_ERR.FEC_CE_CNT : Fld := ⟨47, 32⟩
/-- R409. -/
def CLX_LINK_ERR.DOWN : Fld := ⟨48, 48⟩
/-- R409. -/
def CLX_LINK_ERR.DEGRADE : Fld := ⟨49, 49⟩
/-- R409. -/
def CLX_LINK_ERR.NOT_COMPAT : Fld := ⟨50, 50⟩
/-- R409. -/
def CLX_LINK_ERR.RETIRED : Fld := ⟨51, 51⟩
/-- R409. -/
def CLX_LINK_CTL.EN : Fld := ⟨0, 0⟩
/-- R409. -/
def CLX_LINK_CTL.RETRAIN : Fld := ⟨1, 1⟩
/-- R409. -/
def CLX_LINK_CTL.RETIRE : Fld := ⟨2, 2⟩
/-- R409. -/
def CLX_LINK_CTL.LANE : Fld := ⟨6, 3⟩
/-- R409. -/
def CLX_LINK_CTL.LANE_RETIRE : Fld := ⟨7, 7⟩
/-- R375. -/
def P0_CLC_CFG.MODE : Fld := ⟨1, 0⟩
/-- R375. -/
def P0_CLC_CFG.EP_RESET : Fld := ⟨2, 2⟩
/-- R375. -/
def P0_CLC_CFG.DRAIN_MS : Fld := ⟨15, 8⟩
/-- R375. -/
def P0_CLC_STAT.LINK_UP : Fld := ⟨0, 0⟩
/-- R375. -/
def P0_CLC_STAT.CXL : Fld := ⟨1, 1⟩
/-- R375. -/
def P0_CLC_STAT.LANES : Fld := ⟨6, 2⟩
/-- R375. -/
def P0_CLC_STAT.HWIN_VALID : Fld := ⟨7, 7⟩
/-- R375. -/
def P0_CLC_STAT.HWIN : Fld := ⟨17, 8⟩
/-- R375. -/
def P0_CLC_ERR.DROP_CNT : Fld := ⟨31, 0⟩
/-- R375. -/
def P0_CLC_ERR.PCIE_DROP : Fld := ⟨47, 32⟩
/-- R375. -/
def P0_CLC_ERR.EPR_CNT : Fld := ⟨55, 48⟩
/-- R375. -/
def P0_CLC_ERR.LOST : Fld := ⟨56, 56⟩
/-- R58. -/
def RAW_HOST_CFG.EN : Fld := ⟨0, 0⟩
/-- R58. -/
def RAW_HOST_CFG.BASE : Fld := ⟨51, 30⟩
/-- R278. -/
def HOME_DIR_STAT.ENTRIES : Fld := ⟨21, 0⟩
/-- R278. -/
def HOME_DIR_STAT.PRIO_PTR : Fld := ⟨28, 22⟩
/-- R278. -/
def HOME_DIR_STAT.PIN_NACK_CNT : Fld := ⟨47, 32⟩
/-- R278. -/
def HOME_DIR_STAT.HOST_POISON_CNT : Fld := ⟨63, 48⟩
/-- R278. -/
def HOME_DIR_CNT.NACK_CNT : Fld := ⟨31, 0⟩
/-- R278. -/
def HOME_DIR_CNT.BACKINV_CNT : Fld := ⟨63, 32⟩
/-- R278. -/
def HOME_DIR_ERR.CE : Fld := ⟨0, 0⟩
/-- R278. -/
def HOME_DIR_ERR.UE : Fld := ⟨1, 1⟩
/-- R278. -/
def HOME_DIR_ERR.CE_CNT : Fld := ⟨15, 8⟩
/-- R278. -/
def HOME_DIR_ERR.SET : Fld := ⟨33, 16⟩
/-- R278. -/
def HOME_DIR_CTL.INJ_CE : Fld := ⟨0, 0⟩
/-- R278. -/
def HOME_DIR_CTL.INJ_UE : Fld := ⟨1, 1⟩
/-- R317. -/
def HBM_THR_CURVE.T : Fld := ⟨7, 0⟩
/-- R317. -/
def HBM_THR_CURVE.SHARE_M1 : Fld := ⟨13, 8⟩
/-- R317. -/
def HBM_THR_CTL.HYST : Fld := ⟨3, 0⟩
/-- R317. -/
def HBM_SCRUB_CTL.EN : Fld := ⟨0, 0⟩
/-- R317. -/
def HBM_SCRUB_CTL.PERIOD_H : Fld := ⟨8, 1⟩
/-- R317. -/
def HBM_SCRUB_STAT.FRAME : Fld := ⟨18, 0⟩
/-- R317. -/
def HBM_SCRUB_STAT.PASS_CNT : Fld := ⟨47, 32⟩
/-- R317. -/
def HBM_SCRUB_STAT.LAST_CE : Fld := ⟨63, 48⟩
/-- R317. -/
def HBM_RETIRE_CTL.STACK : Fld := ⟨3, 0⟩
/-- R317. -/
def HBM_RETIRE_CTL.CHANNEL : Fld := ⟨8, 4⟩
/-- R317. -/
def HBM_RETIRE_CTL.ERR : Fld := ⟨61, 61⟩
/-- R317. -/
def HBM_RETIRE_CTL.GO : Fld := ⟨63, 63⟩
/-- R317. -/
def HBM_REGION.LIVE : Fld := ⟨11, 0⟩
/-- R317. -/
def HBM_REGION.STATE : Fld := ⟨13, 12⟩
/-- R317. -/
def HBM_REGION.PEND : Fld := ⟨27, 16⟩
/-- R317. -/
def HBM_REGION.HOLD_CNT : Fld := ⟨49, 32⟩
/-- R317. -/
def HBM_STK_STAT.TEMP : Fld := ⟨7, 0⟩
/-- R317. -/
def HBM_STK_STAT.STATE : Fld := ⟨10, 8⟩
/-- R317. -/
def HBM_STK_STAT.SHARE_M1 : Fld := ⟨16, 11⟩
/-- R317. -/
def HBM_STK_STAT.SENSOR_FAIL : Fld := ⟨17, 17⟩
/-- R317. -/
def HBM_STK_STAT.HI_REFRESH : Fld := ⟨18, 18⟩
/-- R317. -/
def HBM_STK_STAT.MAX_TEMP : Fld := ⟨31, 24⟩
/-- R317. -/
def HBM_STK_STAT.CH_RETIRED : Fld := ⟨63, 32⟩
/-- R317. -/
def HBM_THR_STAT.THR_US : Fld := ⟨31, 0⟩
/-- R317. -/
def HBM_THR_STAT.SHUT_CNT : Fld := ⟨47, 32⟩
/-- R317. -/
def HBM_ERR_CNT.CE_CNT : Fld := ⟨15, 0⟩
/-- R317. -/
def HBM_ERR_CNT.UE_CNT : Fld := ⟨31, 16⟩
/-- R317. -/
def HBM_ERR_CNT.DE_CNT : Fld := ⟨47, 32⟩
/-- R317. -/
def HBM_ERR_CNT.POISON_RD : Fld := ⟨63, 48⟩
/-- R317. -/
def HBM_PPR_STAT.SOFT_CNT : Fld := ⟨11, 0⟩
/-- R317. -/
def HBM_PPR_STAT.HARD_CNT : Fld := ⟨23, 12⟩
/-- R317. -/
def HBM_PPR_STAT.HARD_PEND : Fld := ⟨31, 24⟩
/-- R317. -/
def HBM_PPR_STAT.NO_SPARE_CNT : Fld := ⟨47, 32⟩
/-- R317. -/
def HBM_FCLASS.CLASS : Fld := ⟨63, 0⟩

end Sys2Proof.Machine
end

