-- ==== Sys2Proof/Machine/State.lean ====
section
/-!
DEFINITION. Machine/State.lean: the state of the module as plain data: every register (one list, by address),
and what the spec gives the module beside its registers. `State.reset` is the state right after a cold reset.
Sparse maps are lists of (key, value) with keys strictly rising and no entry equal to the default.
-/

namespace Sys2Proof.Machine

/-- Why the machine stops. No command of the block stops it by a fault: the spec gives every command an
effect, so no meaning raises this and it is safe. -/
inductive Fault
  /-- Raised by no command; it keeps the type inhabited. Safe. -/
  | none
deriving DecidableEq, Repr

/-- Why a command is refused. -/
inductive Refusal
  /-- A command without a meaning in this model yet. Raised by Dispatch only; safe. -/
  | notModelled (mnemonic : String)
deriving DecidableEq, Repr

/-- Board and power inputs (R487 to R494): pins and supplies as the module sees them. -/
structure Board where
  /-- The PWR_EN pin. -/
  pwrEn : Bool
  /-- Rails in regulation, the PWR_GOOD pin. -/
  pwrGood : Bool
  /-- The intermediate bus converter is on. -/
  convOn : Bool
  /-- MOD_RESET_N held low (the module stays in reset). -/
  rstLow : Bool
  /-- RCVY_STRAP_N asserted. -/
  strap : Bool
  /-- REFCLK within the limits of R432. -/
  refOk : Bool
  /-- THERMTRIP_N latched low until PWR_EN has been low for 1 s. -/
  tripped : Bool
  /-- VR_ALERT_N driven by a module regulator or the converter. -/
  alertInt : Bool
  /-- VR_ALERT_N driven by the system. -/
  alertExt : Bool
  /-- PWR_EN has fallen and 1 s has not yet passed (R490). -/
  lowHold : Bool
  /-- MOD_RESET_N was released before PWR_GOOD and the module holds itself in reset (R489). -/
  rstHold : Bool
deriving DecidableEq, Repr

/-- One entry of the Keystone error summary log (R438, R462). -/
structure LogEnt where
  unit : Nat
  cls : Nat
  status : Nat
  cause : Nat
  req : Nat
  addr : BitVec 64
  synd : BitVec 64
  time : BitVec 64
deriving DecidableEq, Repr

/-- One leaky bucket of the retire table (R442): its level and the periods already accounted. -/
structure Bucket where
  level : Nat
  stamp : Nat
deriving DecidableEq, Repr

/-- The error-collection state outside the registers (R438, R439, R442, R453). -/
structure Ras where
  /-- The log, by index (R438). -/
  log : List (Nat × LogEnt)
  /-- Buckets by row and unit. -/
  buckets : List (Nat × Bucket)
  /-- FC time of the last interrupt of R439. -/
  lastIrq : Option Nat
  /-- FC times of the triggers of the last containment resets (R453). -/
  contTimes : List Nat
  /-- Cache enables to give back at event 6 of R449. -/
  savedEn : Nat
  /-- Codewords to poison at event 3 (R450, R453). -/
  poisonAt : List Nat
  /-- A core whose access was suppressed at event 1. -/
  suppressed : Option Nat
  /-- Gauge: units under test, (kind * 1024 + span * 128 + unit). -/
  underTest : List Nat
  /-- Gauge: units due. -/
  due : List Nat
  /-- Gauge: units whose overdue record has been written. -/
  overdue : List Nat
  /-- Units deferred and preempted for a test. -/
  preempted : List Nat
  /-- The pending software test of KST_GAUGE_REQ. -/
  gaugeReq : Option Nat
  /-- FC times of lockstep mismatches (R381). -/
  lsTimes : List Nat
  /-- Cores whose row of the retire table has reached its threshold, which KMH2 has still to retire (R443, R446). -/
  coreRetiring : List Nat
  /-- Cores whose saved state is held for SVC_CORE_STATUS. -/
  coreSaved : List Nat
deriving DecidableEq, Repr

/-- The contents of a 128-byte line with its marks by 32-byte sector: poisoned (R305) and error-marked (R306). -/
structure LineVal where
  data : BitVec 1024
  pz : BitVec 4
  er : BitVec 4
deriving DecidableEq, Repr

/-- A message or signal the module sends out: interrupts, responses, link frames and Stay messages. -/
inductive OutMsg
  /-- Host interrupt vector (R356, R388, R439). -/
  | hostIrq (vec : Nat)
  /-- IMSIC identity to an application core (R388, R439). -/
  | coreIrq (core iid : Nat)
  /-- Response to a host, PCIe or peer request: requester kind, status, data. -/
  | resp (who status : Nat) (data : List (BitVec 8))
  /-- RISC-V access fault of a core (R39, R62). -/
  | coreFault (core addr : Nat)
  /-- Data returned to a core load. -/
  | coreData (core : Nat) (data : List (BitVec 8))
  /-- Write of the masked bytes of a line of a peer module over a Claden-X link (R404), with its epoch tag (R192). -/
  | peerWrite (module local_ link : Nat) (v : LineVal) (mask : BitVec 128) (tag : Option Nat)
  /-- Read request to a peer module over a Claden-X link. -/
  | peerRead (module local_ link bytes : Nat)
  /-- Write of the masked bytes of a line of host memory, by host physical address. -/
  | hostWrite (addr : Nat) (v : LineVal) (mask : BitVec 128)
  /-- Coherent read request of the far home (R273). Kind 0: the current data; 2: data with ownership; 3: ownership of a
  line it holds shared; 16 more as a CXL.cache request (R275). -/
  | hostRead (addr bytes kind : Nat)
  /-- A Stay message (R204 to R206): class, destination module, Claden-X link, hop count, kind and arguments. Kinds
  0xD0 to 0xD6 are the operations of R198, 0xD7 a probe, 0xD8 a withdrawal, 0xE0 a result, 0xE1 a release, 0xE2 a
  probe answer, 0xE3 a refused registration, 0xE4 a registration, 0xF0 CONFIRM, 0xF1 REVOKE, 0xF2 HOLD, 0xF3 UP. -/
  | stay (cls dest link hops kind : Nat) (args : List Nat)
  /-- A coherence message (R258): kind code, home or agent, line and arguments; 16 more as a CXL back-invalidate snoop
  (R275). -/
  | coh (kind dest line : Nat) (args : List Nat)
  /-- A Lattice frame: destination port, descriptor, payload. -/
  | latFrame (port desc : Nat) (args : List Nat)
  /-- A link-layer action (R391 to R403): port or link and action code. -/
  | link (port action : Nat)
  /-- Anything on the MCTP bus (R484). -/
  | mctp (kind : Nat) (args : List Nat)
  /-- An interrupt of a management hart: hart and source. Hart 2: 3 HBM shutdown, 4 scrub; hart 3: 1 maintenance
  done, 2 epoch revoked, 5 table moved, 6 tile faulted. -/
  | kmhIrq (hart src : Nat)
  /-- A pin or supply action: code and value. -/
  | pin (code value : Nat)
deriving DecidableEq, Repr

/-- Counters of time (R23): FC cycles since the last cold reset, the FC offset of each die at its last
release from reset being zero, and the AC phase accumulators of the Spans. -/
structure Clk where
  fc : Nat
  acAcc : List (Nat × Nat)
deriving DecidableEq, Repr

/-- An instruction in a stream queue (R133). `kind`: 0 an instruction, 1 illegal (R152), 2 a fetch fault
(R133), 3 an instruction word with a parity error. -/
structure QEnt where
  tag : Nat
  pc : Nat
  kind : Nat
  w0 : BitVec 64
  w1 : BitVec 64
  /-- Bytes already done, for a MOV restored from a save record (R186). -/
  prog : Nat
  /-- The token of a Stay arrival already made (R200). -/
  arrived : Option Nat
deriving DecidableEq, Repr

/-- What an instruction in flight still holds on the scoreboard and the range tracker (R134, R135). -/
structure Use where
  tag : Nat
  stream : Nat
  /-- It occupies its stream: no later instruction of the stream issues. -/
  busy : Bool
  reads : List Nat
  writes : List Nat
  /-- Tile-memory line ranges read (lo, hi). -/
  rdR : List (Nat × Nat)
  /-- Tile-memory line ranges written. -/
  wrR : List (Nat × Nat)
  /-- It holds every later memory access (R199) or the types of a fence (R238): 0 none, 1 loads, 2 stores,
  3 all. -/
  hold : Nat
  /-- The identifiers held by a fence; 0 covers all (R239). -/
  hmask : Nat
deriving DecidableEq, Repr

/-- One accumulator bank (R92, R112): shape 0 Knit, 1 Purl-32, 2 Purl-8, 3 none; integer class; cells of 34
bits (32 and the extension), unlisted cells +0. -/
structure Bank where
  shape : Nat
  int : Bool
  cells : List (Nat × BitVec 34)
deriving DecidableEq, Repr

/-- A bank without shape. -/
def Bank.none : Bank := ⟨3, false, []⟩

/-- An MMA from issue to verdict (R110 to R122). `st`: 0 issued, 1 entered, 2 final, 3 failed its retry (R122). -/
structure MmaRec where
  tag : Nat
  pc : Nat
  w0 : BitVec 64
  w1 : BitVec 64
  st : Nat
  /-- Operand descriptors read at issue (R160). -/
  da : BitVec 64
  db : BitVec 64
  /-- FMT_DESC words of A and B at issue (R163). -/
  fda : BitVec 64
  fdb : BitVec 64
  /-- FMT_INV held until the verdict (R91). -/
  inv : Bool
  /-- The generator at the start of the operation (R85). -/
  srSeed : BitVec 64
  srLeft : Nat
  /-- This run is the retry after a failed verdict (R120). -/
  retry : Bool
  /-- Its first verdict is made to fail (R126), and it has failed so. -/
  inj : Bool
  injFailed : Bool
  /-- The bank as this MMA left it when it became final: its committed image once the verdict passes (R118). -/
  res : Bank
  /-- SPAN_AC_CNT by which its last K step has entered the array (R110); 0 once it certainly has. -/
  enterBy : Nat
deriving DecidableEq, Repr

/-- A DRAIN from issue to its last effect (R111, R113). `st`: 0 queued, 1 started, 2 released, 3 written. -/
structure DrainRec where
  tag : Nat
  pc : Nat
  w0 : BitVec 64
  w1 : BitVec 64
  st : Nat
  /-- Destination descriptor read at issue. -/
  dd : BitVec 64
  /-- FMT_DESC word of the destination slot, read at issue (R79). -/
  desc : Nat
  /-- Converted bytes to write: runs of consecutive bytes by offset. -/
  data : List (Nat × List (BitVec 8))
  /-- Flags held until the verdicts (R91): bit 0 overflow, 1 underflow, 2 invalid. -/
  flags : Nat
  /-- The largest magnitude gathered, joined EXP and FRAC, and whether a NaN was seen (R100). -/
  top : Nat
  nan : Bool
  /-- Tags of the MMAs whose verdicts its updates wait for. -/
  deps : List Nat
  /-- Shape and class of the bank when it issued. -/
  shape : Nat
  int : Bool
  /-- It is executed again in a retry (R120). -/
  again : Bool
deriving DecidableEq, Repr

/-- An active MOV (R184). -/
structure MoveRec where
  tag : Nat
  pc : Nat
  w0 : BitVec 64
  w1 : BitVec 64
  src : BitVec 64
  dst : BitVec 64
  len : Nat
  /-- Bytes already written before a restore (R186). -/
  prog : Nat
  status : Nat
deriving DecidableEq, Repr

/-- A pointer load (LD, LDR, VLD) waiting for its data (R155). -/
structure LoadRec where
  tag : Nat
  pc : Nat
  w0 : BitVec 64
  ptr : BitVec 64
  /-- The active bytes of a VLD. -/
  mask : BitVec 512
  /-- The data of an STC. -/
  val : BitVec 64
  /-- In ORDERED mode, bytes of a VLD read so far, by offset (R238). -/
  got : List (Nat × BitVec 8)
deriving DecidableEq, Repr

/-- Writes of one instruction outside the module that await their acknowledgement (R185, R248): identifier, target
module (0 for the host), the local address of each written line and the FC time of issue. -/
structure WriteRec where
  tag : Nat
  strm : Nat
  /-- true = peer module `target`, false = host memory. -/
  peer : Bool
  target : Nat
  addrs : List Nat
  /-- A Strict write to host memory (R239). -/
  strict : Bool
  issued : Nat
  /-- The FC time from which its link-loss timeout runs (R248, R251). -/
  timer : Nat
deriving DecidableEq, Repr

/-- A fence in progress (R187): the covered writes still outstanding are those in `outs` with a lower tag. -/
structure FenceRec where
  tag : Nat
  pc : Nat
  w0 : BitVec 64
  rd : Nat
  scope : Nat
  type : Nat
  smask : Nat
  status : Nat
deriving DecidableEq, Repr

/-- A Stay operation whose result is awaited (R198, R200). `ph`: 0 held by its fence, 1 its message travels, 2 its
result travels back, 3 registered at its home, 4 refused for want of an entry, 5 its release travels back. -/
structure StayRec where
  tag : Nat
  pc : Nat
  w0 : BitVec 64
  ref : BitVec 64
  val : Nat
  wait : Bool
  /-- Its counter is on another module. -/
  far : Bool
  ph : Nat
  /-- The token of an arrival already made (SBAR). -/
  tok : Option Nat
  /-- VALUE and STATUS of the result. -/
  res : Nat
  stat : Nat
  /-- The fence status written to STATUS when it is not OK (R199). -/
  fstat : Nat
  /-- FC time of the last message about a remote wait (R200). -/
  heard : Nat
  /-- When its message to a counter of the module was sent, as a count of such messages (R206). -/
  sent : Nat
deriving DecidableEq, Repr

/-- A tile as a program sees it (R128), with its queues and what is in flight. Registers of the register
region are in `State.regs`. -/
structure Tile where
  sregs : List (Nat × BitVec 64)
  vregs : List (Nat × BitVec 4096)
  pregs : List (Nat × BitVec 512)
  /-- Tile memory (R106), unlisted bytes zero. -/
  mem : List (Nat × BitVec 8)
  /-- Lines with their poison bit set (R508). -/
  poison : List Nat
  /-- Lines that hold a parity error (R441). -/
  badMem : List Nat
  /-- Instruction memory by word index (R131), unlisted words zero. -/
  imem : List (Nat × BitVec 64)
  /-- Instruction words with a parity error. -/
  badImem : List Nat
  pc : Nat
  nextTag : Nat
  /-- Fetch waits for a branch, or has reached END or a fault (R133). -/
  fetchHold : Bool
  qs : List QEnt
  qv : List QEnt
  qm : List QEnt
  qx : List QEnt
  uses : List Use
  /-- The lines of the reserved granule, by resolved location; empty without a reservation (R190). -/
  resv : List Nat
  acc0 : Bank
  acc1 : Bank
  /-- Shape (3 none) and class of each bank in program order, as the next instruction sees it (R112). -/
  ishape0 : Nat
  iint0 : Bool
  ishape1 : Nat
  iint1 : Bool
  com0 : Bank
  com1 : Bank
  mmas : List MmaRec
  drains : List DrainRec
  /-- A pending INJ_ONCE (R126). -/
  inj : Bool
  /-- The bank under retry (R120). -/
  retryBank : Option Nat
  moves : List MoveRec
  loads : List LoadRec
  outs : List WriteRec
  /-- Writes of the dispatch that were discarded: identifier, plus 16 on loss of the host (R187, R249). -/
  wfail : List Nat
  fence : Option FenceRec
  stays : List StayRec
  /-- Unused stochastic draws (R83). -/
  srLeft : Nat
  /-- An exception has been raised and the tile is stopping: its tag (R137). -/
  excTag : Option Nat
  /-- TILE_PROG_ID written since the last START (R131). -/
  progWritten : Bool
  /-- RESET or ABORT held during PREEMPTING or RESTORING (R141). -/
  heldReset : Bool
  heldAbort : Bool
  /-- ABORT has been written while RUNNING, and the tile is not yet IDLE (R141, R368). -/
  aborting : Bool
  /-- Retirement in progress: event of R123 reached, 0 none. -/
  retiring : Nat
  /-- Window of the granule size in force for the dispatch (R245). -/
  gran : Nat
  /-- Consecutive STCs that have failed (R247). -/
  stcFails : Nat
  /-- Ordering mode in force for the dispatch (R27). -/
  ordered : Bool
  /-- A dispatch has been started and not yet ended on every one of its tiles. -/
  started : Bool
  /-- This tile has reached IDLE in it. -/
  ended : Bool
  /-- The dispatch of queue service it runs, by serial number; 0 for a START written directly (R386). -/
  disp : Nat
  /-- The RESTORE in progress has checked its record (R146). -/
  restored : Bool
  /-- The Trestle layers its dispatch has consumed (R347): bit n for status n, bit 16 a late one, bit 17 a shadow. -/
  layer : Nat
  /-- Layers its dispatch has consumed that have no status yet (R347, R366). -/
  wants : List Nat
  /-- A read of the dispatch has met UNREACHABLE (R249, R366). -/
  rfail : Bool
  /-- Queue contents read from a save record, by stream. -/
  saved : List (Nat × QEnt)
  /-- Source address and context of the program load under way, as they stood at GO (R131, R512). -/
  ldSrc : Nat
  ldCtx : Nat
deriving DecidableEq, Repr

/-- An epoch of a sending tile, from opening to resolution (R192 to R195). -/
structure Epoch where
  tile : Nat
  seq : Nat
  integ : Bool
  closed : Bool
  /-- Unresolved MMA verdicts it depends on, by tag. -/
  deps : List Nat
  failed : Bool
  /-- 128-byte writes sent, per module. -/
  sent : List (Nat × Nat)
  /-- Inbound OPTIMISTIC epochs it depends on (R455), by tag. -/
  inbound : List Nat
  /-- FC time of its first peer-bound write. -/
  first : Nat
deriving DecidableEq, Repr

/-- A line in a caching agent (R259). `st`: 1 S, 2 E, 3 O, 4 M. `comp`: no Comp is still awaited (R263). -/
structure CLine where
  st : Nat
  v : LineVal
  way : Nat
  comp : Bool
deriving DecidableEq, Repr

/-- An entry of a victim-eviction buffer (R284), oldest first in its Span. -/
structure VebEnt where
  span : Nat
  line : Nat
  st : Nat
  v : LineVal
  sent : Bool
  /-- A snoop has been answered from it (R285). -/
  snooped : Bool
  /-- It was written back by the maintenance engine (R291). -/
  maint : Bool
deriving DecidableEq, Repr

/-- A directory entry (R261). `st`: 1 SH, 2 OX, 3 OO. `use`: order of use; `bad`: corrupted bits (R272). -/
structure DirEnt where
  st : Nat
  owner : Nat
  sharers : BitVec 96
  use : Nat
  bad : Nat
deriving DecidableEq, Repr

/-- The coherence messages (chapter 10). -/
inductive MsgK
  | rds | rdu | upg | rdo | wru | wb | evc | compack
  | snps | snpu | snpi | snpx | snpo
  | data | grant | comp | nack | fwddata
  | rspi | rsps | rspo | rspdata | wback
deriving DecidableEq, Repr

/-- A coherence message under way between an agent and the home of its line. `arg`: the granted state of Data,
Grant and FwdData (0 I, 1 S, 2 E, 4 M), the reason of a NACK, the requester of a snoop; `fwd` and `wbSent` as
the flags of a response; `fin`: a grant for which no Comp follows. -/
structure CohMsg where
  k : MsgK
  line : Nat
  agent : Nat
  arg : Nat
  fwd : Bool
  wbSent : Bool
  fin : Bool
  v : LineVal
deriving DecidableEq, Repr

/-- The open transaction of a line at its home (R264). `wait`: agents whose answers are awaited. -/
structure Txn where
  k : MsgK
  req : Nat
  wait : List Nat
  /-- Comp follows once every answer is in. -/
  comp : Bool
  /-- The grant has been made; CompAck closes it. -/
  granted : Bool
  /-- Data of a WrU with its byte mask. -/
  v : LineVal
  mask : BitVec 128
  /-- The owner's answer: it forwarded data, and the state it keeps (0 I, 1 S, 3 O, 5 E or M kept). -/
  fwd : Bool
  after : Nat
  /-- Dirty data returned under SnpX. -/
  back : Option LineVal
  /-- A WB that has left the answering agent and must still arrive (R277). -/
  wbWait : Option Nat
  /-- Agents whose WB has arrived since the transaction opened (R277). -/
  wbGot : List Nat
  /-- A back-invalidation (R271); the request that waits for the entry. -/
  evict : Option (MsgK × Nat × Nat)
deriving DecidableEq, Repr

/-- A request of an agent that has not completed (R267, R268). -/
structure AReq where
  agent : Nat
  line : Nat
  k : MsgK
  nacks : Nat
  starve : Bool
  /-- It has been NACKed and waits to retry. -/
  waiting : Bool
  v : LineVal
  mask : BitVec 128
  /-- It is an access that allocates nothing, which its issuer itself puts to the home again. -/
  whole : Bool
deriving DecidableEq, Repr

/-- What a home holds beside its directory: pending-grant slots (R266) with the FC cycle of their last NACK,
waiting STARVE requests (R268) and armed injections (R272). -/
structure HomeX where
  pend : List (Nat × Nat)
  lastNack : List (Nat × (Nat × Nat))
  starve : List (Nat × Nat)
  injCe : Bool
  injUe : Bool
deriving DecidableEq, Repr

/-- A running maintenance operation of a Span cache (R287 to R292). -/
structure MaintRec where
  op : Nat
  byWay : Bool
  all : Bool
  mask : Nat
  addr : Nat
  len : Nat
  skein : Bool
  aborted : Bool
  scanned : Bool
  status : Nat
  /-- Sets or lines examined so far. -/
  pos : Nat
deriving DecidableEq, Repr

/-- Memory and coherence: HBM by physical location ((stack * 32 + channel) * 2^31 + offset, R301), caches by
agent * 2^48 + line, directories by line. A line number is its physical location / 128, or 2^47 + host
physical address / 128 for host memory (R48, R256). -/
structure Mem where
  /-- Bytes; an unlisted byte is 0, or 0x08 at each eighth byte of a frame in `patF` (R52). -/
  hbm : List (Nat × BitVec 8)
  /-- Frames that hold an initialised Placement Table. -/
  patF : List Nat
  /-- Poisoned sectors (physical location / 32). -/
  pz : List Nat
  /-- Sectors with bit errors: 1 correctable under class C, 2 not. -/
  er : List (Nat × Nat)
  /-- Frames whose sectors are stored under class D, but for those in `odd`; in other frames the sectors in
  `odd` are (R307). -/
  frmD : List Nat
  odd : List Nat
  /-- Faulty rows without repair, and soft repairs recorded, by row key. -/
  rows : List (Nat × Nat)
  lines : List (Nat × CLine)
  vebs : List VebEnt
  dirs : List (Nat × DirEnt)
  dirUse : Nat
  txns : List (Nat × Txn)
  /-- End of the hold of a granted line, as an FC count (R265). -/
  holds : List (Nat × Nat)
  homes : List (Nat × HomeX)
  net : List CohMsg
  reqs : List AReq
  maint : List (Nat × MaintRec)
  /-- Old entries that translations may still use (R55), by page. -/
  stale : List (Nat × BitVec 64)
  /-- Activity bits (R322): HBM frames, and 2^20 + page for host-backed pages. -/
  act : List Nat
  /-- Reservation sets of the cores (R245): core and line. -/
  coreRsv : List (Nat × Nat)
  /-- Far lines written to the host and not yet acknowledged, oldest first (R371), each with its requester (R438). -/
  farPend : List (Nat × Nat)
  /-- Far lines whose data the host has still to answer (R273). -/
  farRd : List Nat
  /-- Copies in caching agents with a bad word (R283, R448), by agent and line: 1 a correctable one, 2 uncorrectable
  data, 3 an uncorrectable tag. -/
  cacheErr : List (Nat × Nat)
  /-- Spans in which an eviction waits for the full buffer (R286). -/
  vebStall : List Nat
deriving DecidableEq, Repr

/-- A Stay counter (R198). -/
structure Ctr where
  value : BitVec 32
  target : BitVec 32
  gen : BitVec 32
deriving DecidableEq, Repr

/-- Who waits at a counter (R209): a tile of the module, or a waiter of another module by its own number, with the class
in which its release goes back. -/
inductive Waiter
  | tile (t tag : Nat)
  | remote (m id cls : Nat)
deriving DecidableEq, Repr

/-- A wait registration (R209): a barrier wait for a generation other than `val`, or an event wait for a value. -/
structure WaitReg where
  home : Nat
  idx : Nat
  who : Waiter
  barrier : Bool
  val : BitVec 32
deriving DecidableEq, Repr

/-- A Stay message that waits for a Claden-X link (R405). -/
structure StayMsg where
  cls : Nat
  dest : Nat
  kind : Nat
  hops : Nat
  args : List Nat
deriving DecidableEq, Repr

/-- The Stay network and the collective registrations beside their registers (R207 to R215): counters by
home * 4096 + index (home 8 is the Keystone), member bitmaps, held clears of ACTIVE, and for each failed COLL_ID
the number of descriptors each Lattice queue had posted (R215). `stamp` counts the messages that tiles have sent to
counters of the module (R206); `heldRel` are the registrations whose release waits for their running descriptors (R212). -/
structure StayNet where
  ctrs : List (Nat × Ctr)
  waits : List WaitReg
  memb : List (Nat × BitVec 32768)
  heldClr : List Nat
  cuts : List (Nat × (Nat × Nat))
  /-- Messages that wait for a link. -/
  held : List StayMsg
  stamp : Nat
  heldRel : List Nat
deriving DecidableEq, Repr

/-- A GATED write held at an epoch gate (R216). -/
structure HeldW where
  pier : Nat
  addr : Nat
  v : LineVal
  mask : BitVec 128
deriving DecidableEq, Repr

/-- An inbound epoch until its resolution (R216 to R218, R455). `recs`: recorded lines by Pier; a line number doubled,
or a tile-memory line (512 tiles of 8,192) doubled plus one. -/
structure EpochIn where
  tag : Nat
  /-- Arrivals not yet reported, by Pier. -/
  unrep : List (Nat × Nat)
  count : Nat
  confirm : Option Nat
  held : List HeldW
  recs : List (Nat × Nat)
  first : Nat
  ctxs : List Nat
deriving DecidableEq, Repr

/-- The epoch gates (R216 to R219): unresolved epochs, the tags of resolved ones, and late messages counted. -/
structure Gate where
  eps : List EpochIn
  resolved : List Nat
  late : Nat
deriving DecidableEq, Repr

/-- A Lattice frame or row staged at a Pier (R225). -/
structure LatFrame where
  port : Nat
  coll : Nat
  step : Nat
  off : Nat
  data : List (BitVec 8)
  poison : Bool
deriving DecidableEq, Repr

/-- A running Lattice descriptor (R221 to R230). `stat` folds statuses in the order of R15; index entries whose answer
is awaited are in `rows`; `made` holds the offsets of the 256-byte blocks whose outputs have been produced; `fin`: it
ends early. -/
structure LatRun where
  words : List (BitVec 64)
  slot : Nat
  frames : List LatFrame
  made : List Nat
  rows : List Nat
  dropped : Nat
  stat : Nat
  fin : Bool
deriving DecidableEq, Repr

/-- A Lattice or Trestle queue: tail, descriptors posted and started so far, re-reads of the head's SEQ, and the
number posted when DISABLE was written (R221, R222, R231). -/
structure LatQ where
  tail : Nat
  posted : Nat
  started : Nat
  tries : Nat
  cut : Option Nat
  run : Option LatRun
deriving DecidableEq, Repr

/-- The Lattice engines: queues by 16 * Pier + queue, staged frames by Pier, and the completion words that a containment
reset still owes: context, address and word (R231). -/
structure Lat where
  qs : List (Nat × LatQ)
  staged : List (Nat × LatFrame)
  owed : List (Nat × Nat × Nat)
deriving DecidableEq, Repr


/-- Controller state of the stacks beside their registers (R310 to R312): the curve entry in force (its number plus
one), consecutive failed readings, and the corrections of the scrub pass in progress (R308). -/
structure HbmX where
  ent : List (Nat × Nat)
  fails : List (Nat × Nat)
  scrubCe : Nat
deriving DecidableEq, Repr

/-- A page move in progress (R324): its destination, and the page that takes the frame it leaves (R331). -/
structure PageMove where
  page : Nat
  toFar : Bool
  dst : Nat
  next : Option Nat
deriving DecidableEq, Repr

/-- A page the engine is to place. `kind`: 0 promotion (R333), 1 out of a retiring region (R335), 2 return of a
PIN_NEAR page (R335). -/
structure PageWant where
  page : Nat
  kind : Nat
deriving DecidableEq, Repr

/-- The placement engine (R328 to R336): firmware frames, frames reserved for raw use, the region whose turn it is,
moves, pages to place, pages not tried before the next sweep, PIN_NEAR pages that wait to return, pages whose held
accesses have been released (R321), the page that the invalidation under way is for (1,048,576: every page, R55), and the
pages that were moving from the host when it was lost (R46). -/
structure Plc where
  fw : List Nat
  raw : List Nat
  turn : Nat
  moves : List PageMove
  wants : List PageWant
  skip : List Nat
  back : List Nat
  expired : List Nat
  inval : Nat
  lost : List Nat
deriving DecidableEq, Repr

/-- A Trestle layer from its start until it has arrived (R337 to R348): its number, descriptor, status so far,
whether the shadow is fetched, whether it missed, and lines already obtained by a retry, by offset. -/
structure TrLayer where
  n : Nat
  words : List (BitVec 64)
  stat : Nat
  shadow : Bool
  missed : Bool
  got : List (Nat × LineVal)
deriving DecidableEq, Repr

/-- The Trestle engine of a Span: ring position, whether numbering runs since GO, the next layer, layers in flight
(oldest first), T(n) at key n + 1 (R342), statuses of layers that have arrived (256 added for a late one, 512 for a shadow), and Skein lines with their layer. -/
structure TrSpan where
  tail : Nat
  posted : Nat
  started : Nat
  tries : Nat
  cut : Option Nat
  go : Bool
  next : Nat
  run : List TrLayer
  times : List (Nat × Nat)
  stats : List (Nat × Nat)
  inst : List (Nat × Nat)
deriving DecidableEq, Repr


/-- A command ring beside its registers (R362, R363): tail, descriptors posted, slots read, re-reads of the head,
descriptors that passed and wait to start (number and words), the lowest number without a recorded completion and the
recorded ones above it, and the number posted when DISABLE was written. -/
structure Ring where
  tail : Nat
  posted : Nat
  read : Nat
  tries : Nat
  elig : List (Nat × List (BitVec 64))
  low : Nat
  recs : List Nat
  cut : Option Nat
deriving DecidableEq, Repr

/-- A started dispatch or MARKER (R364 to R368): serial number, ring, number in the ring, words, tiles (none for a
MARKER), statuses folded by R15, a status that an abort has fixed, S_ bits (from bit 0), unresolved inbound epochs it
waits for (R455), its Stay window and whether it was ended. -/
structure Disp where
  id : Nat
  ring : Nat
  num : Nat
  words : List (BitVec 64)
  tiles : List Nat
  stat : Nat
  force : Option Nat
  bits : Nat
  deps : List Nat
  win : Nat
  ending : Bool
  aborted : Bool
deriving DecidableEq, Repr

/-- A completion word recorded but not yet written: ring, number, whether it goes to host memory, address, word and
interrupt vector. -/
structure Owed where
  ring : Nat
  num : Nat
  host : Bool
  addr : Nat
  word : Nat
  vec : Option Nat
deriving DecidableEq, Repr

/-- Queue service (R359 to R369): rings, dispatches, the last serial number, the ring after which the rotating order
goes on (R365), rings whose head has waited 1 ms (oldest first), and words still to be written. -/
structure Queue where
  rings : List (Nat × Ring)
  disps : List Disp
  last : Nat
  turn : Nat
  starve : List Nat
  owed : List Owed
deriving DecidableEq, Repr

/-- The host port beside its registers (R356): the MSI-X table, an unlisted byte being 0 but for the mask bit of each
entry, pending vectors, and the MODE in force (R353). -/
structure Clc where
  msix : List (Nat × BitVec 8)
  pba : List Nat
  mode : Nat
deriving DecidableEq, Repr


/-- A service call from its acceptance to its end (R383, R384): mailbox (256 the system one, 257 MCTP), code, argument
block (host memory or a local address), INT_EN, whether it has begun, its status once it has been carried out, and the
outputs from word 16. -/
structure Call where
  mbox : Nat
  code : Nat
  host : Bool
  addr : Nat
  int : Bool
  begun : Bool
  stat : Option Nat
  outs : List (BitVec 64)
deriving DecidableEq, Repr

/-- The Keystone beside its registers: cores whose reset is under way (R379), calls in order of acceptance, and the last
estimate of a peer's counter (R24): FC and offset then, by destination. -/
structure Kst where
  coreRst : List Nat
  calls : List Call
  offs : List (Nat × Nat × Int)
deriving DecidableEq, Repr

/-- A Claden-D link beside its registers (R394 to R397), by its first port: faulty lanes at the receivers of its first
and second end as stored and as last found; the width forced (0 none), its commit awaited; in probation, with the CRC
failures so far; the forced width that the settings store holds (0 none). -/
structure CldX where
  mapA : BitVec 64
  mapB : BitVec 64
  curA : BitVec 64
  curB : BitVec 64
  forced : Nat
  commit : Bool
  prob : Bool
  crc : Nat
  kept : Nat
deriving DecidableEq, Repr

/-- A Claden-X link beside its registers (R398 to R402): lanes retired (bit mask), whether a cold reset has come since
they were found, and corrected symbols not yet counted in thousands. -/
structure ClxX where
  bad : Nat
  fresh : Bool
  ce : Nat
deriving DecidableEq, Repr

/-- The virtual channels of a Claden-X link (R399): frames that wait, oldest first, each with its channel (0 REQ, 1 RSP,
2 LAT), and the next place in the rotation RSP, RSP, REQ, LAT. -/
structure VcX where
  q : List (Nat × OutMsg)
  turn : Nat
deriving DecidableEq, Repr

/-- The links: Claden-D by 32 * die + port of the first end (die 0 to 7 a Span, 8 the Keystone, 9 + p Pier p), Claden-X
by link; the virtual channels of each Claden-X link; the link that each bucket of a module has (R406), by 16 * module +
bucket; the port of each of the 16 buckets of a Claden-D bundle (R392), by 32 * first die + second die, and buckets that
take no message until their old port is clear, by 16 * bundle + bucket; the link and FC of the last Stay message to a
module (R405). -/
structure Links where
  cld : List (Nat × CldX)
  clx : List (Nat × ClxX)
  vc : List (Nat × VcX)
  xb : List (Nat × Nat)
  db : List (Nat × List Nat)
  dold : List (Nat × Nat)
  stayOn : List (Nat × (Nat × Nat))
deriving DecidableEq, Repr

/-- A frequency change in progress (R424). `ph`: 0 the voltage rises, 1 waiting for quiet detectors, 2 the idle PLL
locks, 3 locked and waiting to switch, 4 the voltage falls. -/
structure FreqChg where
  mhz : Nat
  mv : Nat
  ph : Nat
deriving DecidableEq, Repr

/-- A control step of Tension (R419): mode, cap and frequencies of the Spans and core groups, and when it arose. -/
structure CapStep where
  mode : Nat
  cap : Nat
  acs : List Nat
  kcs : List Nat
  since : Nat
deriving DecidableEq, Repr

/-- Tension and the hardware under it (R411 to R433): frequency changes by unit (Spans 0 to 7, core groups 8 to 15),
Spans with a detector not quiet, sixteenths taken by the guard, units under the fast limit (Piers 16 to 19), estimates of
the last 10 ms (newest first), the deferred step and the FC time up to which none is deferred, the cap less 10 %,
domains switching off and waking (8 * Span + group, 64 + core group, 72 + 2 * Pier + domain), domains not tried again
before an FC time, the reference (0 present, 1 PLLs hold, 2 clocks stopped), the mode in force, the mode and cap of a
step whose frequency changes still run, the frequency of each core group (unlisted 3,000 MHz), and the estimates before
GAIN of the last millisecond (newest first). `lim` holds 24 while KMH1 does not run (R380), 25 from the release of the alert line until Tension raises the clocks (R427);
`hot` lists the units last read at 95 °C or more (R428); `vfAt`: when Tension last committed a curve (R423). -/
structure Pwr where
  chg : List (Nat × FreqChg)
  trips : List Nat
  guard : Nat
  lim : List Nat
  est : List Nat
  defer : Option CapStep
  noDefer : Nat
  calLow : Bool
  offs : List Nat
  wakes : List Nat
  retry : List (Nat × Nat)
  ref : Nat
  mode : Nat
  next : Option (Nat × Nat)
  kc : List (Nat × Nat)
  raw : List Nat
  hot : List Nat
  vfAt : Option Nat
deriving DecidableEq, Repr

/-- A commit of the settings store (R465 to R467): scope, the mailboxes whose calls it answers (none for
KST_SET_CTL), and the values as accepted. -/
structure Commit where
  scope : Nat
  who : List (Option Nat)
  vals : List (Nat × BitVec 64)
deriving DecidableEq, Repr

/-- Boot, settings and identity beside their registers (R464 to R485): the last event of R476 reached (0 before the
first), whether a cold reset led to it, the default slot, the slot selected for a trial, RECOVERY requested, the cause
of a Recovery that lasts until a cold reset, FC at event 1, the last event of R485 (0
none) and the mailboxes that wait for it; the commit that runs and the one held, FC times of the commits of scope 0,
whether DEFAULT applied; minimum SVN by KIND, SVN by 8 * slot + KIND and REVOKE by slot; the SPDM requests answered so
far, and the MCTP endpoint number; whether a module reset follows the Cast-off (R475), whether the next Cast-on falls back,
and the retire buckets that Cast-off has committed; records in the journal since its last compaction, erases of its most worn
block, and erases of the reserved blocks that take firmware records after those (R464, R466, R468). -/
structure Boot where
  event : Nat
  cold : Bool
  dflt : Nat
  trial : Option Nat
  rcvy : Bool
  stuck : Nat
  start : Nat
  off : Nat
  offWho : List (Option Nat)
  run : Option Commit
  held : Option Commit
  times : List Nat
  minSvn : List (Nat × Nat)
  svn : List (Nat × Nat)
  revoke : List (Nat × Nat)
  spdm : Nat
  eid : Nat
  offReset : Bool
  fall : Bool
  buckets : List (Nat × Bucket)
  recs : Nat
  erases : Nat
  spare : Nat
deriving DecidableEq, Repr

/-- The state of the module. -/
structure State where
  /-- The assembly (R3): LKF-X12 (assumption 3). -/
  asm : Assembly
  /-- The commands that wait, first in, first out. -/
  pending : List Instr
  /-- The model's own counter of free values drawn so far (assumption 2). -/
  freeCtr : Nat
  /-- Every register of chapter 21 by local address; an unlisted register holds its reset value. -/
  regs : List (Nat × BitVec 64)
  /-- Pins and supplies. -/
  board : Board
  /-- Counters of time. -/
  clk : Clk
  /-- Error collection, containment and Gauge state. -/
  ras : Ras
  /-- The logical tiles, by 64 * Span + tile; an unlisted tile is idle and zero. -/
  tiles : List (Nat × Tile)
  /-- Epochs of sending tiles not yet resolved, oldest first (R194). -/
  epochs : List Epoch
  /-- Everything the module has sent out, oldest first. -/
  out : List OutMsg
  /-- HBM, caches, directories and coherence. -/
  mem : Mem
  /-- Committed values of the settings store and the firmware records, by register address (R13, R467). -/
  store : List (Nat × BitVec 64)
  /-- Stay counters, waits and collectives. -/
  stay : StayNet
  /-- The epoch gates. -/
  gate : Gate
  /-- The Lattice engines. -/
  lat : Lat
  /-- HBM controllers beside their registers. -/
  hbmx : HbmX
  /-- The placement engine. -/
  plc : Plc
  /-- The Trestle engines, by Span. -/
  tr : List (Nat × TrSpan)
  /-- Queue service. -/
  q : Queue
  /-- The host port. -/
  clc : Clc
  /-- The Keystone's harts and calls. -/
  kst : Kst
  /-- The links. -/
  links : Links
  /-- Tension. -/
  pwr : Pwr
  /-- Boot, settings and identity. -/
  boot : Boot
deriving DecidableEq, Repr

/-- The module right after a cold reset with its supplies up, Cast-on at its first event (R13, R476,
assumption 4): KMH0 has started, so KST_HART_STAT (0x3F0_0000_5480) reads RUN = 1; every other register holds its reset
value. -/
def State.reset : State where
  asm := .x12
  pending := []
  freeCtr := 0
  regs := [(0x3F000005480, 1)]
  board := ⟨true, true, true, false, false, true, false, false, false, false, false⟩
  clk := ⟨0, []⟩
  ras := ⟨[], [], none, [], 0, [], none, [], [], [], [], none, [], [], []⟩
  tiles := []
  epochs := []
  out := []
  mem := ⟨[], [], [], [], [], [], [], [], [], [], 0, [], [], [], [], [], [], [], [], [], [], [], [], []⟩
  store := []
  stay := ⟨[], [], [], [], [], [], 0, []⟩
  gate := ⟨[], [], 0⟩
  lat := ⟨[], [], []⟩
  hbmx := ⟨[], [], 0⟩
  plc := ⟨[], [], 0, [], [], [], [], [], 0, []⟩
  tr := []
  q := ⟨[], [], 0, 0, [], []⟩
  clc := ⟨[], [], 0⟩
  kst := ⟨[], [], []⟩
  links := ⟨[], [], [], [], [], [], []⟩
  pwr := ⟨[], [], 0, [], [], none, 0, false, [], [], [], 0, 0, none, [], [], [], none⟩
  boot := ⟨1, true, 0, none, false, 0, 0, 0, [], none, none, [], [], [], [], 0, 0, false, false, [], 0, 0, 0⟩

end Sys2Proof.Machine
end

