-- ==== Sys2Proof/Machine/Ops.lean ====
section
/-!
DEFINITION. Machine/Ops.lean: the shared operations: sparse maps, registers and their generic write (R8 to
R13), time, free values, the error banks, the log, the interrupt of R439 and the retire buckets.
-/

namespace Sys2Proof.Machine

/-! Sparse maps: keys strictly rising, no entry equal to the default. -/

/-- The value at a key. -/
def mget {α : Type} (d : α) (m : List (Nat × α)) (k : Nat) : α :=
  match m with
  | [] => d
  | (j, v) :: r => if j = k then v else mget d r k

/-- The entry at a key, if listed. -/
def mfind {α : Type} (m : List (Nat × α)) (k : Nat) : Option α :=
  match m with
  | [] => none
  | (j, v) :: r => if j = k then some v else mfind r k

/-- Removal of a key. -/
def mdel {α : Type} (m : List (Nat × α)) (k : Nat) : List (Nat × α) :=
  match m with
  | [] => []
  | (j, v) :: r => if j = k then mdel r k else (j, v) :: mdel r k

/-- Insertion of a key that is not listed, before the first greater one. -/
def mput {α : Type} (m : List (Nat × α)) (k : Nat) (x : α) : List (Nat × α) :=
  match m with
  | [] => [(k, x)]
  | (j, v) :: r => if k < j then (k, x) :: (j, v) :: r else (j, v) :: mput r k x

/-- Insertion or replacement at a key. -/
def mins {α : Type} (m : List (Nat × α)) (k : Nat) (x : α) : List (Nat × α) := mput (mdel m k) k x

/-- A write that keeps the canonical form: writing the default removes the entry. -/
def mset {α : Type} [DecidableEq α] (d : α) (m : List (Nat × α)) (k : Nat) (x : α) : List (Nat × α) :=
  if x = d then mdel m k else mins m k x

/-- The canonical form of a sparse map with keys from `lo` up. -/
def mwfFrom {α : Type} [DecidableEq α] (d : α) (lo : Nat) : List (Nat × α) → Bool
  | [] => true
  | (j, v) :: r => decide (lo ≤ j) && decide (v ≠ d) && mwfFrom d (j + 1) r

/-- The canonical form of a sparse map. -/
def mwf {α : Type} [DecidableEq α] (d : α) (m : List (Nat × α)) : Bool := mwfFrom d 0 m

/-- Insertion into a strictly rising list of numbers. -/
def sins (l : List Nat) (k : Nat) : List Nat :=
  match l with
  | [] => [k]
  | j :: r => if j = k then l else if k < j then k :: l else j :: sins r k

/-- Removal from a list of numbers. -/
def sdel (l : List Nat) (k : Nat) : List Nat := l.filter (· != k)

/-- Writing consecutive bytes into a byte map (little-endian order is the caller's, R7). -/
def mbytes (m : List (Nat × BitVec 8)) (a : Nat) (bs : List (BitVec 8)) : List (Nat × BitVec 8) :=
  match bs with
  | [] => m
  | b :: r => mbytes (mset 0 m a b) (a + 1) r

/-- Reading `n` consecutive bytes. -/
def mread (m : List (Nat × BitVec 8)) (a n : Nat) : List (BitVec 8) :=
  (List.range n).map (fun i => mget 0 m (a + i))

/-- The little-endian number of a list of bytes (R7). -/
def leNat (bs : List (BitVec 8)) : Nat :=
  match bs with
  | [] => 0
  | b :: r => b.toNat + 256 * leNat r

/-- The `n` little-endian bytes of a number (R7). -/
def leBytes (n v : Nat) : List (BitVec 8) :=
  match n with
  | 0 => []
  | n + 1 => BitVec.ofNat 8 v :: leBytes n (v / 256)

/-! Registers. -/

/-- The local address of a register copy (R503). -/
def regAddr (r : RegId) (ix : List Nat) : Nat :=
  (regInfo r).base + ((ix.zip (regInfo r).dims).map (fun p => p.1 * p.2.2)).sum

/-- The register value (hardware view): listed, or the reset value. -/
def State.rd (s : State) (r : RegId) (ix : List Nat) : Nat :=
  match mfind s.regs (regAddr r ix) with
  | some v => v.toNat
  | none => ((regInfo r).rst s.asm ix).toNat

/-- Hardware write of a whole register. -/
def State.wr (s : State) (r : RegId) (ix : List Nat) (v : Nat) : State :=
  { s with regs := mset ((regInfo r).rst s.asm ix) s.regs (regAddr r ix) (BitVec.ofNat 64 v) }

/-- A field of a number. -/
def fget (w : Nat) (f : Fld) : Nat := (w >>> f.lo) % 2 ^ (f.hi + 1 - f.lo)

/-- Replacement of a field of a number; the value is cut to the field. -/
def fput (w : Nat) (f : Fld) (v : Nat) : Nat :=
  w % 2 ^ f.lo + (v % 2 ^ (f.hi + 1 - f.lo)) * 2 ^ f.lo + (w >>> (f.hi + 1)) * 2 ^ (f.hi + 1)

/-- A field of a register. -/
def State.fld (s : State) (r : RegId) (ix : List Nat) (f : Fld) : Nat := fget (s.rd r ix) f

/-- A one-bit field as a Bool. -/
def State.bit (s : State) (r : RegId) (ix : List Nat) (f : Fld) : Bool := s.fld r ix f == 1

/-- Hardware write of one field. -/
def State.setFld (s : State) (r : RegId) (ix : List Nat) (f : Fld) (v : Nat) : State :=
  s.wr r ix (fput (s.rd r ix) f v)

/-- A counter field that stops at its largest value. -/
def State.satInc (s : State) (r : RegId) (ix : List Nat) (f : Fld) (n : Nat) : State :=
  s.setFld r ix f (min (2 ^ (f.hi + 1 - f.lo) - 1) (s.fld r ix f + n))

/-- A counter field that wraps. -/
def State.wrapInc (s : State) (r : RegId) (ix : List Nat) (f : Fld) (n : Nat) : State :=
  s.setFld r ix f (s.fld r ix f + n)

/-- A Nat from a Bool. -/
def b2n (b : Bool) : Nat := if b then 1 else 0

/-- The copy of an array register an offset names, or none: `off` from the base. -/
def ixOf (dims : List (Nat × Nat)) (off : Nat) : Option (List Nat) :=
  match dims with
  | [] => if off = 0 then some [] else none
  | (n, st) :: r =>
    if off / st < n then (ixOf r (off % st)).map (fun l => off / st :: l) else none

/-- Blocks of an error bank that exist (R436): die, block, assembly-independent part. -/
def errBlockExists (die blk : Nat) : Bool :=
  match die with
  | 1 => decide (blk ≤ 0x43) || (decide (0x50 ≤ blk) && decide (blk ≤ 0x54)) ||
      (decide (0x60 ≤ blk) && decide (blk < 0x60 + 30))
  | 2 => decide (blk ≤ 0x47) || blk == 0x54 || (decide (0x60 ≤ blk) && decide (blk < 0x60 + 24))
  | 3 => decide (blk ≤ 0x05) || (decide (0x08 ≤ blk) && decide (blk ≤ 0x0E)) || blk == 0x54 ||
      (decide (0x60 ≤ blk) && decide (blk < 0x60 + 10))
  | _ => decide (blk < 0x20) || (decide (0x40 ≤ blk) && decide (blk ≤ 0x42))

/-- Whether an error register copy is assigned (R436, R504). -/
def errIxExists (r : RegId) (ix : List Nat) : Bool :=
  match r with
  | .KST_ERR_STATUS => errBlockExists 2 (ix.getD 0 0)
  | .KST_ERR_ADDR => errBlockExists 2 (ix.getD 0 0)
  | .KST_ERR_SYND => errBlockExists 2 (ix.getD 0 0)
  | .KST_ERR_TIME => errBlockExists 2 (ix.getD 0 0)
  | .SPAN_ERR_STATUS => errBlockExists 1 (ix.getD 1 0)
  | .SPAN_ERR_ADDR => errBlockExists 1 (ix.getD 1 0)
  | .SPAN_ERR_SYND => errBlockExists 1 (ix.getD 1 0)
  | .SPAN_ERR_TIME => errBlockExists 1 (ix.getD 1 0)
  | .PIER_ERR_STATUS => errBlockExists 3 (ix.getD 1 0) &&
      (ix.getD 0 0 == 0 || !(ix.getD 1 0 == 0x0C || ix.getD 1 0 == 0x0D))
  | .PIER_ERR_ADDR => errBlockExists 3 (ix.getD 1 0) &&
      (ix.getD 0 0 == 0 || !(ix.getD 1 0 == 0x0C || ix.getD 1 0 == 0x0D))
  | .PIER_ERR_SYND => errBlockExists 3 (ix.getD 1 0) &&
      (ix.getD 0 0 == 0 || !(ix.getD 1 0 == 0x0C || ix.getD 1 0 == 0x0D))
  | .PIER_ERR_TIME => errBlockExists 3 (ix.getD 1 0) &&
      (ix.getD 0 0 == 0 || !(ix.getD 1 0 == 0x0C || ix.getD 1 0 == 0x0D))
  | .HBM_ERR_STATUS => errBlockExists 4 (ix.getD 1 0)
  | .HBM_ERR_ADDR => errBlockExists 4 (ix.getD 1 0)
  | .HBM_ERR_SYND => errBlockExists 4 (ix.getD 1 0)
  | .HBM_ERR_TIME => errBlockExists 4 (ix.getD 1 0)
  | _ => true

/-- The register at an 8-byte aligned address among a list of candidates. -/
def regIn (l : List RegId) (a : Nat) : Option (RegId × List Nat) :=
  match l with
  | [] => none
  | r :: rest =>
    let i := regInfo r
    match (if i.base ≤ a then ixOf i.dims (a - i.base) else none) with
    | some ix => if errIxExists r ix then some (r, ix) else regIn rest a
    | none => regIn rest a

/-- What an address in slices 0 to 13 reaches (R504): nothing, a block of an absent die or stack (R6, R303), or
a register copy. -/
inductive RegSel
  | undecoded
  | absent
  | reg (r : RegId) (ix : List Nat)
deriving DecidableEq, Repr

/-- Whether a register copy belongs to an absent Pier or stack. -/
def absentCopy (a : Assembly) (addr : Nat) : Bool :=
  (decide (0x3F900000000 + a.piers * 0x100000000 ≤ addr) && decide (addr < 0x3FD00000000)) ||
  (decide (0x3FD00010000 + a.stacks * 0x2000 ≤ addr) && decide (addr < 0x3FD00028000))

/-- Register decode (R504): an offset no table assigns is undecoded whatever the assembly. -/
def regSel (a : Assembly) (addr : Nat) : RegSel :=
  match regIn allRegs (addr / 8 * 8) with
  | none => .undecoded
  | some (r, ix) => if absentCopy a addr then .absent else .reg r ix

/-! Time and free values. -/

/-- FC cycles per millisecond, second, minute and hour at 1.6 GHz (R20). -/
def fcMs : Nat := 1600000
/-- FC cycles per second. -/
def fcSec : Nat := 1600000000
/-- FC cycles per microsecond. -/
def fcUs : Nat := 1600

/-- The Keystone FC counter (R23). -/
def State.kstFc (s : State) : Nat := s.rd .KST_FC_CNT []

/-- The `time` CSR of the Keystone cores (R24): KST_FC_CNT[63:4], at 100 MHz. -/
def State.timeCsr (s : State) : Nat := s.kstFc / 16

/-- The next free value of the model, as a number below `n` (n at least 1), and the counter's advance. -/
def State.freeNat (s : State) (n : Nat) : Nat × State :=
  (Config.freePick s.freeCtr % n, { s with freeCtr := s.freeCtr + 1 })

/-- The next free bit. -/
def State.freeBool (s : State) : Bool × State :=
  (Config.freeBit s.freeCtr, { s with freeCtr := s.freeCtr + 1 })

/-- A message out. -/
def State.send (s : State) (m : OutMsg) : State := { s with out := s.out ++ [m] }

/-- Module power present, the module not held in reset, and its clocks not stopped for want of a reference (R433, R489,
R491): commands act only then. -/
def State.up (s : State) : Bool := s.board.pwrGood && s.board.convOn && !s.board.rstLow && !s.board.rstHold &&
  s.pwr.ref != 2

/-- A meaning that needs a powered module out of reset; otherwise the event does not occur and nothing
changes (assumption 1). -/
def whenUp (s : State) (k : State) : Host.Outcome State Fault Refusal :=
  .next (if s.up then k else s)

/-! Errors. -/

/-- The status, address, syndrome and time registers of a unit's bank and its index (R436). -/
def bankOf (unit : Nat) : RegId × RegId × RegId × RegId × List Nat :=
  let die := unit / 4096
  let ix := unit / 256 % 16
  let blk := unit % 256
  match die with
  | 1 => (.SPAN_ERR_STATUS, .SPAN_ERR_ADDR, .SPAN_ERR_SYND, .SPAN_ERR_TIME, [ix, blk])
  | 2 => (.KST_ERR_STATUS, .KST_ERR_ADDR, .KST_ERR_SYND, .KST_ERR_TIME, [blk])
  | 3 => (.PIER_ERR_STATUS, .PIER_ERR_ADDR, .PIER_ERR_SYND, .PIER_ERR_TIME, [ix, blk])
  | _ => (.HBM_ERR_STATUS, .HBM_ERR_ADDR, .HBM_ERR_SYND, .HBM_ERR_TIME, [ix, blk])

/-- FC counter of the unit's die (R437, R462); HBM controllers use the Keystone's. -/
def dieFc (s : State) (unit : Nat) : Nat :=
  match unit / 4096 with
  | 1 => s.rd .SPAN_FC_CNT [unit / 256 % 16]
  | 3 => s.rd .PIER_FC_CNT [unit / 256 % 16]
  | _ => s.kstFc

/-- An event to be recorded (R437, R438). -/
structure ErrEv where
  unit : Nat
  cls : Nat
  cause : Nat
  status : Nat
  addr : Option Nat
  synd : Nat
  req : Nat
deriving DecidableEq, Repr

/-- Latching into the sticky bank (R437): class 0 leaves it untouched; COUNT advances for every other class. -/
def latchBank (s : State) (e : ErrEv) : State :=
  if e.cls = 0 then s
  else
    let (rs, ra, ry, rt, ix) := bankOf e.unit
    let old := s.rd rs ix
    let s := s.satInc rs ix ERR_STATUS.COUNT 1
    if fget old ERR_STATUS.VALID = 0 ∨ fget old ERR_STATUS.CLASS < e.cls then
      let w := fput (s.rd rs ix) ERR_STATUS.VALID 1
      let w := fput w ERR_STATUS.CLASS e.cls
      let w := fput w ERR_STATUS.STATUS e.status
      let w := fput w ERR_STATUS.CAUSE e.cause
      let w := fput w ERR_STATUS.ADDR_VALID (if e.addr.isSome then 1 else 0)
      (((s.wr rs ix w).wr ra ix (e.addr.getD 0)).wr ry ix e.synd).wr rt ix (dieFc s e.unit)
    else s.setFld rs ix ERR_STATUS.OVERFLOW 1

/-- Appending to the log of 4,096 entries (R438). -/
def appendLog (s : State) (e : ErrEv) : State :=
  let n := s.fld .KST_ERR_LOG_STAT [] KST_ERR_LOG_STAT.NEXT
  let ent : LogEnt := ⟨e.unit, e.cls, e.status, e.cause, e.req, BitVec.ofNat 64 (e.addr.getD 0),
    BitVec.ofNat 64 e.synd, BitVec.ofNat 64 s.kstFc⟩
  let full := s.ras.log.any (fun p => p.1 == n)
  let s := if full then s.satInc .KST_ERR_LOG_STAT [] KST_ERR_LOG_STAT.WRAP_CNT 1 else s
  let s := { s with ras := { s.ras with log := mins s.ras.log n ent } }
  s.wrapInc .KST_ERR_LOG_STAT [] KST_ERR_LOG_STAT.NEXT 1

/-- One byte of the MSI-X table (R356). -/
def State.msixByte (s : State) (a : Nat) : BitVec 8 := mget (if a % 16 = 12 then 1 else 0) s.clc.msix a

/-- A host interrupt vector: a Claden-C message, or by its MSI-X entry in CXL mode, pending while masked (R356). -/
def hostIrq (s : State) (vec : Nat) : State :=
  if s.bit .P0_CLC_STAT [] P0_CLC_STAT.CXL && (s.msixByte (vec * 16 + 12)).getLsbD 0 then
    { s with clc := { s.clc with pba := sins s.clc.pba vec } }
  else s.send (.hostIrq vec)

/-- Application cores that run (R379). -/
def State.coreRuns (s : State) (c : Nat) : Bool := s.fld .KST_CORE_STAT [c] KST_CORE_STAT.STATE == 1

/-- The interrupt of R439 for class 0x2 or higher, at most once per 1 ms; during a containment reset it waits for
event 8 (R449). -/
def rasIrq (s : State) (cls : Nat) : State :=
  if s.bit .KST_RAS_STAT [] KST_RAS_STAT.CONT_ACTIVE then s else
  let now := s.clk.fc
  let ok := match s.ras.lastIrq with
    | none => true
    | some t => decide (t + fcMs ≤ now)
  if cls < 2 ∨ ok = false then s
  else
    let s := { s with ras := { s.ras with lastIrq := some now } }
    let s := hostIrq s (s.fld .KST_RAS_CTL [] KST_RAS_CTL.VEC)
    let iid := s.fld .KST_RAS_CTL [] KST_RAS_CTL.CORE_IID
    if iid = 0 then s
    else (List.range 64).foldl (fun s c => if s.coreRuns c then s.send (.coreIrq c iid) else s) s

/-- One event: bank, log and interrupt (R437 to R439). -/
def record (s : State) (e : ErrEv) : State := rasIrq (appendLog (latchBank s e) e) e.cls

/-- A record with the usual fields. -/
def recordAt (s : State) (unit cls cause status : Nat) (addr : Option Nat) : State :=
  record s ⟨unit, cls, cause, status, addr, 0, 0xFFFF⟩

/-- A class 0 log of a discarded or refused access or write (R8, R62, R437), against the Keystone fabric
(DESIGN CHOICE, assumption 7: the spec names no unit for it). -/
def logDiscard (s : State) (addr req : Nat) : State := record s ⟨0x2054, 0, 0x0F, 0x0E, some addr, 0, req⟩

/-- A discarded configuration write of a register copy by software. -/
def discardReg (s : State) (r : RegId) (ix : List Nat) : State := logDiscard s (regAddr r ix) 0xFFFF

/-- UNIT codes (R436). -/
def unitTile (span phys : Nat) : Nat := 0x1000 + span * 256 + phys
/-- A unit of a Span. -/
def unitSpan (span blk : Nat) : Nat := 0x1000 + span * 256 + blk
/-- A unit of the Keystone. -/
def unitKst (blk : Nat) : Nat := 0x2000 + blk
/-- A unit of a Pier. -/
def unitPier (p blk : Nat) : Nat := 0x3000 + p * 256 + blk
/-- A unit of an HBM stack. -/
def unitHbm (st blk : Nat) : Nat := 0x4000 + st * 256 + blk

/-- The physical tile that serves a logical tile: the spare that SPAN_SPARE_MAP names, or its own number. -/
def physOf (s : State) (t : Nat) : Nat :=
  match (List.range 4).find? (fun k =>
    s.fld .SPAN_SPARE_MAP [t / 64] (SPAN_SPARE_MAP.USED.shift 16 k) == 1 &&
    s.fld .SPAN_SPARE_MAP [t / 64] (SPAN_SPARE_MAP.LOG_ID.shift 16 k) == t % 64 &&
    s.fld .SPAN_SPARE_MAP [t / 64] (SPAN_SPARE_MAP.FAILED.shift 16 k) == 0) with
  | some k => 64 + k
  | none => t % 64

/-- The UNIT code of the physical tile behind a logical tile (R436, R507). -/
def unitOfTile (s : State) (t : Nat) : Nat := unitTile (t / 64) (physOf s t)

/-! The retire table (R442 to R445). -/

/-- FC cycles of a leak period of a row, or none. -/
def leakFc (w : Nat) : Option Nat :=
  let n := fget w KST_RETIRE.LEAK
  if n = 0 then none
  else some (n * (match fget w KST_RETIRE.LEAK_UNIT with
    | 0 => fcMs
    | 1 => fcSec
    | 2 => 60 * fcSec
    | _ => 3600 * fcSec))

/-- The level of a bucket now: leaked at the end of every period since the cold reset, or cleared at the end
of its window (R442). -/
def bucketNow (w now : Nat) (b : Bucket) : Bucket :=
  match leakFc w with
  | none => ⟨b.level, 0⟩
  | some p =>
    let k := now / p
    if fget w KST_RETIRE.WIN = 1 then ⟨if b.stamp = k then b.level else 0, k⟩
    else ⟨b.level - (k - b.stamp), k⟩

/-- One event of a row for one unit: the state and whether the row's action is due (R442). Row 7 adds to the
bucket of row 6 (R443). -/
def retireEvent (s : State) (row unit : Nat) : State × Bool :=
  let w := s.rd .KST_RETIRE [row]
  let row' := if row = 7 then 6 else row
  let w' := s.rd .KST_RETIRE [row']
  let key := row' * 65536 + unit
  let b := bucketNow w' s.clk.fc (mget ⟨0, 0⟩ s.ras.buckets key)
  let lvl := b.level + fget w KST_RETIRE.INC
  let hit := decide (fget w' KST_RETIRE.THRESH ≤ lvl)
  let b' : Bucket := ⟨if hit then 0 else lvl, b.stamp⟩
  ({ s with ras := { s.ras with buckets := mset ⟨0, 0⟩ s.ras.buckets key b' } }, hit)

/-- While OWN_RETIRE = 1 the HBM channel, core and Claden-X lane and link rows only record (R444). -/
def retireBySoftware (s : State) (row : Nat) : Bool :=
  s.bit .KST_POLICY_OWN [] KST_POLICY_OWN.OWN_RETIRE &&
    (row == 3 || row == 4 || row == 6 || row == 7 || decide (14 ≤ row) && decide (row ≤ 16))

/-- The bucket of a row and unit cleared. -/
def clearBucket (s : State) (row unit : Nat) : State :=
  { s with ras := { s.ras with buckets := mdel s.ras.buckets (row * 65536 + unit) } }

/-- A parity error of a data path (R441): class 0x2 record and a count in row 17. Answers whether the row's
threshold was reached. -/
def parityError (s : State) (unit : Nat) (addr : Option Nat) : State × Bool :=
  let s := recordAt s unit 2 0x02 0x0C addr
  let (s, hit) := retireEvent s 17 unit
  (if hit then recordAt s unit 6 0x02 0x0C addr else s, hit)

/-! Statuses. -/

/-- The place of a status in the order of R15; OK comes last. -/
def statRank (n : Nat) : Nat :=
  match n with
  | 0x0F => 0
  | 0x08 => 1
  | 0x0A => 2
  | 0x09 => 3
  | 0x01 => 4
  | 0x0E => 5
  | 0x06 => 6
  | 0x0C => 7
  | 0x04 => 8
  | 0x07 => 9
  | 0x03 => 10
  | 0x05 => 11
  | 0x0D => 12
  | 0x0B => 13
  | _ => 14

/-- The first applicable of two statuses (R15). -/
def statFold (a b : Nat) : Nat := if statRank b < statRank a then b else a

/-- A dispatch ended from outside with a status: CANCELLED or HOST_LOST. -/
def Disp.forced (d : Disp) (st : Nat) : Disp := { d with force := some (statFold (d.force.getD 0) st) }

/-- Cast-off is under way or has ended: Gauge and placement start nothing new (R485). -/
def State.castingOff (s : State) : Bool := s.boot.off != 0 && s.boot.off != 8

/-! Management harts. -/

/-- KMHh runs (R380). -/
def hartRuns (s : State) (h : Nat) : Bool := (s.fld .KST_HART_STAT [] KST_HART_STAT.RUN >>> h) % 2 == 1

/-! Policies. -/

/-- Whether OWN bit n of KST_POLICY_OWN is set (R29). -/
def State.owned (s : State) (n : Nat) : Bool := s.fld .KST_POLICY_OWN [] ⟨n, n⟩ == 1

/-! Generic software write of a register (R9, R10). -/

/-- What a write of the given bits [hi:lo] carries: fields wholly inside keep the data, read/write fields of
the other half keep their stored value, WO and W1C fields there count as written 0 (R9). -/
def effWrite (flds : List FldInfo) (old data lo hi : Nat) : Nat :=
  flds.foldl (fun acc f =>
    let fl : Fld := ⟨f.hi, f.lo⟩
    let inside := decide (lo ≤ f.lo) && decide (f.hi ≤ hi)
    match f.ty with
    | .ro => fput acc fl 0
    | .rw => fput acc fl (if inside then fget data fl else fget old fl)
    | .rws => fput acc fl (if inside then fget data fl else fget old fl)
    | .w1c => fput acc fl (if inside then fget data fl else 0)
    | .wo => fput acc fl (if inside then fget data fl else 0)) 0

/-- The stored value after a plain write of an effective value (R10): RW and RWS fields take it, W1C bits
written 1 clear, RO and WO fields keep the stored value. -/
def plainWrite (flds : List FldInfo) (old eff : Nat) : Nat :=
  flds.foldl (fun acc f =>
    let fl : Fld := ⟨f.hi, f.lo⟩
    match f.ty with
    | .rw => fput acc fl (fget eff fl)
    | .rws => fput acc fl (fget eff fl)
    | .w1c => fput acc fl (fget old fl &&& ((2 ^ (f.hi + 1 - f.lo) - 1) - fget eff fl))
    | .ro => acc
    | .wo => acc) old

/-- A writable field that spans bits 31 and 32 (R9). -/
def spansMiddle (flds : List FldInfo) : Bool :=
  flds.any (fun f => f.ty != .ro && decide (f.lo ≤ 31) && decide (32 ≤ f.hi))

/-- The plain effect of an effective write on a register copy; a written RWS field waits for a commit (R485, DIRTY). -/
def State.plain (s : State) (r : RegId) (ix : List Nat) (eff : Nat) : State :=
  let s := s.wr r ix (plainWrite (regInfo r).flds (s.rd r ix) eff)
  if (regInfo r).flds.any (fun f => f.ty == .rws) then s.setFld .KST_SET_STAT [] KST_SET_STAT.DIRTY 1 else s

/-- The value a software read sees: WO fields and the bits of no field read zero (R10). -/
def readMask (flds : List FldInfo) (w : Nat) : Nat :=
  flds.foldl (fun acc f => if f.ty = .wo then acc else fput acc ⟨f.hi, f.lo⟩ (fget w ⟨f.hi, f.lo⟩)) 0

/-- The fields of a word; the bits of no field are zero (R10). -/
def onlyFlds (flds : List FldInfo) (w : Nat) : Nat :=
  flds.foldl (fun acc f => fput acc ⟨f.hi, f.lo⟩ (fget w ⟨f.hi, f.lo⟩)) 0

/-- The current value of a register copy committed to the settings store (R467). -/
def State.kept (s : State) (r : RegId) (ix : List Nat) : State :=
  { s with store := mins s.store (regAddr r ix) (BitVec.ofNat 64 (s.rd r ix)) }

/-- The journal still takes records (R468): its blocks, or the reserved ones, are below the wear floor. -/
def State.journalOpen (s : State) : Bool := decide (s.boot.erases < 95000) || decide (s.boot.spare < 95000)

/-- A firmware record's register is committed (R465), while the journal takes records. -/
def State.commit (s : State) (r : RegId) (ix : List Nat) : State := if s.journalOpen then s.kept r ix else s

/-- A record is appended to the journal (R466, R468; log 97): 256 of them fill its 32 blocks, and the compaction that makes
room for the next erases each block once. After the wear floor the 18 reserved blocks take 144. -/
def State.journal (s : State) : State :=
  let b := s.boot
  if b.erases < 95000 then
    if b.recs < 256 then { s with boot := { b with recs := b.recs + 1 } }
    else
      { s.setFld .KST_SET_STAT [] KST_SET_STAT.WEAR_PM ((b.erases + 1) / 100) with
        boot := { b with recs := if b.erases + 1 < 95000 then 2 else 0, erases := b.erases + 1 } }
  else if b.recs < 144 then { s with boot := { b with recs := b.recs + 1 } }
  else { s with boot := { b with recs := 2, spare := b.spare + 1 } }

/-- COMMIT_CNT: a commit of a firmware record is counted, and it adds a record to the journal. -/
def State.counted (s : State) : State :=
  if s.journalOpen then (s.wrapInc .KST_SET_STAT [] KST_SET_STAT.COMMIT_CNT 1).journal else s

/-! Resets of registers (R13, R506). -/

/-- Whether a reset of a level returns a field of a domain to its reset value. `lvl`: 0 tile, 1 containment,
2 module, 3 cold, 4 Claden-C endpoint. -/
def resetsDom (lvl : Nat) (d : RDom) : Bool :=
  match d with
  | .tile => decide (lvl ≤ 3)
  | .cont => decide (1 ≤ lvl) && decide (lvl ≤ 3)
  | .mod => decide (2 ≤ lvl) && decide (lvl ≤ 3)
  | .cold => lvl == 3
  | .ep => decide (2 ≤ lvl)
  | .never => false

/-- A register copy after a reset of a level. -/
def resetWord (lvl : Nat) (i : RegInfo) (a : Assembly) (ix : List Nat) (old : Nat) : Nat :=
  i.flds.foldl (fun acc f =>
    if resetsDom lvl f.dom then fput acc ⟨f.hi, f.lo⟩ (fget (i.rst a ix).toNat ⟨f.hi, f.lo⟩) else acc) old

/-- All registers of which `keep` does not hold after a reset of a level. -/
def resetRegs (s : State) (lvl : Nat) : State :=
  s.regs.foldl (fun s p =>
    match regIn allRegs p.1 with
    | some (r, ix) => s.wr r ix (resetWord lvl (regInfo r) s.asm ix p.2.toNat)
    | none => s) s

end Sys2Proof.Machine
end

