-- ==== Sys2Proof/Machine/StayMsg.lean ====
section
/-!
DEFINITION. Machine/StayMsg.lean: Stay messages between modules (R204 to R206, R405): the link a message takes,
what fails at its source, and messages that wait for a link.
-/

namespace Sys2Proof.Machine

/-- ACT_ID. -/
def actId (s : State) : Nat := s.fld .KST_MOD_ID [] KST_MOD_ID.ACT_ID

/-- Whether a module is marked lost (R250, R407). -/
def peerLost (s : State) (m : Nat) : Bool := (s.rd .CLX_LOST [m / 64] >>> (m % 64)) % 2 == 1

/-- A module marked lost. -/
def markLost (s : State) (m : Nat) : State := s.wr .CLX_LOST [m / 64] (s.rd .CLX_LOST [m / 64] ||| 2 ^ (m % 64))

/-- Whether a Claden-X link is ACTIVE (R400). -/
def linkActive (s : State) (l : Nat) : Bool :=
  decide (l < 6 * s.asm.piers) && s.fld .CLX_LINK_STAT [l / 6, l % 6] CLX_LINK_STAT.STATE == 6

/-- Whether the route entry of a module names a Stay link at all (R405). -/
def stayRouted (s : State) (m : Nat) : Bool :=
  s.bit .CLX_RT [m] CLX_RT.VALID && (s.bit .CLX_RT [m] CLX_RT.NEXT_EN || s.bit .CLX_RT [m] CLX_RT.ALT_EN)

/-- The link the route entry of a module gives its Stay messages: NEXT when it is ACTIVE, else ALT (R405). -/
def stayWay (s : State) (m : Nat) : Option Nat :=
  let n := s.fld .CLX_RT [m] CLX_RT.NEXT
  let a := s.fld .CLX_RT [m] CLX_RT.ALT
  if s.bit .CLX_RT [m] CLX_RT.NEXT_EN && linkActive s n then some n
  else if s.bit .CLX_RT [m] CLX_RT.ALT_EN && linkActive s a then some a
  else none

/-- Whether the replay buffer of a link may hold a Stay flit for a module (R405): the module's last one left on it and
the link is in QUICK_RETRAIN, or it left in this FC cycle (DESIGN CHOICE, log 159). -/
def stayOld (s : State) (m l : Nat) : Bool :=
  match mfind s.links.stayOn m with
  | some (o, fc) => o == l && (s.fld .CLX_LINK_STAT [l / 6, l % 6] CLX_LINK_STAT.STATE == 7 || fc == s.clk.fc)
  | none => false

/-- The link a Stay message to a module leaves on now: none while a switch from the other link must wait (R405). -/
def stayLink (s : State) (m : Nat) : Option Nat :=
  match stayWay s m with
  | none => none
  | some l => if (mfind s.links.stayOn m).any (fun o => o.1 != l && stayOld s m o.1) then none else some l

/-- A message put on its link, or held for one and behind those to its module that are held. -/
def stayPut (s : State) (x : StayMsg) : State :=
  match (if s.stay.held.any (fun y => y.dest == x.dest) then none else stayLink s x.dest) with
  | some l =>
    { s.send (.stay x.cls x.dest l x.hops x.kind x.args) with
      links := { s.links with stayOn := mins s.links.stayOn x.dest (l, s.clk.fc) } }
  | none => { s with stay := { s.stay with held := s.stay.held ++ [x] } }

/-- HOP_MAX at the source. -/
def hopMax (s : State) : Nat := s.fld .CLX_STAY_CFG [] CLX_STAY_CFG.HOP_MAX

/-- A Stay message from this module: `none` when it fails at once, for want of a route (R405) or because the module
is lost (R250). -/
def staySend (s : State) (cls m kind : Nat) (args : List Nat) : Option State :=
  if !stayRouted s m || peerLost s m then none
  else some (stayPut s ⟨cls, m, kind, hopMax s, args⟩)

/-- The same where a failure has no further effect. -/
def stayTell (s : State) (cls m kind : Nat) (args : List Nat) : State := (staySend s cls m kind args).getD s

/-- The message sent next of those that wait at a transmitter, oldest first (R205): one of the highest class, but the
oldest of a lower class once `n` = 15 messages of higher classes have gone before it. -/
def stayNext (n : Nat) (l : List StayMsg) : Option StayMsg :=
  let top := (l.map (·.cls)).foldl max 0
  match (if 15 ≤ n then l.find? (fun x => decide (x.cls < top)) else none) with
  | some x => some x
  | none => l.find? (fun x => x.cls == top)

/-- Messages that wait at a transmitter in the order in which they go (R205). -/
def stayOrder (fuel n : Nat) (l : List StayMsg) : List StayMsg :=
  match fuel with
  | 0 => []
  | k + 1 =>
    match stayNext n l with
    | none => []
    | some x =>
      let r := l.erase x
      x :: stayOrder k (if r.any (fun y => decide (y.cls < x.cls)) then n + 1 else 0) r

/-- Held messages that now have a link go, on each link in the order of R205. -/
def stayFlush (s : State) : State :=
  let go := s.stay.held.filter (fun x => (stayLink s x.dest).isSome)
  let s := { s with stay := { s.stay with held := s.stay.held.filter (fun x => (stayLink s x.dest).isNone) } }
  (List.range (6 * s.asm.piers)).foldl (fun s l =>
    let q := go.filter (fun x => stayLink s x.dest == some l)
    (stayOrder q.length 0 q).foldl stayPut s) s

end Sys2Proof.Machine
end

