-- ==== Sys2Proof/Machine/TileCore.lean ====
section
/-!
DEFINITION. Machine/TileCore.lean: the tile as a machine (chapter 05): registers, fetch (R133), the scoreboard
and the range tracker (R134, R135), predicates (R136), exceptions (R137 to R139) and the shared operation by
which a command executes the instruction at the head of a stream queue.
-/

namespace Sys2Proof.Machine

/-- A tile with nothing in it. -/
def Tile.zero : Tile where
  sregs := []
  vregs := []
  pregs := []
  mem := []
  poison := []
  badMem := []
  imem := []
  badImem := []
  pc := 0
  nextTag := 0
  fetchHold := true
  qs := []
  qv := []
  qm := []
  qx := []
  uses := []
  resv := []
  acc0 := .none
  acc1 := .none
  ishape0 := 3
  iint0 := false
  ishape1 := 3
  iint1 := false
  com0 := .none
  com1 := .none
  mmas := []
  drains := []
  inj := false
  retryBank := none
  moves := []
  loads := []
  outs := []
  wfail := []
  fence := none
  stays := []
  srLeft := 0
  excTag := none
  progWritten := false
  heldReset := false
  heldAbort := false
  aborting := false
  retiring := 0
  gran := 0
  stcFails := 0
  ordered := false
  started := false
  ended := false
  disp := 0
  restored := false
  layer := 0
  wants := []
  rfail := false
  saved := []
  ldSrc := 0
  ldCtx := 0

/-- Logical tile t = 64 * Span + tile (R35). -/
def State.tile (s : State) (t : Nat) : Tile := mget Tile.zero s.tiles t

/-- A tile written back. -/
def State.setTile (s : State) (t : Nat) (x : Tile) : State := { s with tiles := mset Tile.zero s.tiles t x }

/-- Register index of a tile's registers. -/
def tix (t : Nat) : List Nat := [t / 64, t % 64]

/-- TILE_STAT.STATE (R141). -/
def State.tstate (s : State) (t : Nat) : Nat := s.fld .TILE_STAT (tix t) TILE_STAT.STATE

/-- Change of state: STATE and DISABLE_PENDING (R142). -/
def State.setTstate (s : State) (t st : Nat) : State :=
  let s := s.setFld .TILE_STAT (tix t) TILE_STAT.STATE st
  s.setFld .TILE_STAT (tix t) TILE_STAT.DISABLE_PENDING
    (if s.bit .TILE_CTL (tix t) TILE_CTL.DISABLE ∧ st ≠ 0 then 1 else 0)

/-- Scalar register read. -/
def Tile.s (x : Tile) (n : Nat) : BitVec 64 := mget 0 x.sregs n
/-- Scalar register write. -/
def Tile.setS (x : Tile) (n : Nat) (v : BitVec 64) : Tile := { x with sregs := mset 0 x.sregs n v }
/-- Vector register read. -/
def Tile.v (x : Tile) (n : Nat) : BitVec 4096 := mget 0 x.vregs n
/-- Vector register write. -/
def Tile.setV (x : Tile) (n : Nat) (v : BitVec 4096) : Tile := { x with vregs := mset 0 x.vregs n v }
/-- Predicate register read: p0 reads as all ones (R129). -/
def Tile.p (x : Tile) (n : Nat) : BitVec 512 := if n = 0 then BitVec.allOnes 512 else mget 0 x.pregs n
/-- Predicate register write: writes of p0 are ignored (R129). -/
def Tile.setP (x : Tile) (n : Nat) (v : BitVec 512) : Tile :=
  if n = 0 then x else { x with pregs := mset 0 x.pregs n v }
/-- The governing predicate of a scalar or control instruction: bit 0 (R130, R136). -/
def Tile.predOn (x : Tile) (n : Nat) : Bool := (x.p n).getLsbD 0

/-- A bank by number. -/
def Tile.bank (x : Tile) (b : Nat) : Bank := if b = 0 then x.acc0 else x.acc1
/-- Bank write. -/
def Tile.setBank (x : Tile) (b : Nat) (k : Bank) : Tile :=
  if b = 0 then { x with acc0 := k } else { x with acc1 := k }
/-- A committed image (R118). -/
def Tile.com (x : Tile) (b : Nat) : Bank := if b = 0 then x.com0 else x.com1
/-- Committed image write. -/
def Tile.setCom (x : Tile) (b : Nat) (k : Bank) : Tile :=
  if b = 0 then { x with com0 := k } else { x with com1 := k }

/-- A queue by stream. -/
def Tile.q (x : Tile) (m : Strm) : List QEnt :=
  match m with
  | .scalar => x.qs
  | .vector => x.qv
  | .matrix => x.qm
  | .move => x.qx
/-- Queue write. -/
def Tile.setQ (x : Tile) (m : Strm) (l : List QEnt) : Tile :=
  match m with
  | .scalar => { x with qs := l }
  | .vector => { x with qv := l }
  | .matrix => { x with qm := l }
  | .move => { x with qx := l }

/-- FMT_DESC entry of a slot as a conversion uses it (R78). -/
def State.slot (s : State) (t n : Nat) : SlotDesc := ⟨n, s.rd .FMT_DESC (tix t ++ [n])⟩

/-- TILE_MMA_STAT as it reads (R126): BUSY, VERDICT_PEND and RETRYING follow from what is in the array and the drain
queue. -/
def mmaStatWord (s : State) (t : Nat) : Nat :=
  let x := s.tile t
  let w := s.rd .TILE_MMA_STAT (tix t)
  let w := fput w TILE_MMA_STAT.BUSY (b2n (x.mmas.any (fun r => decide (r.st < 2)) || x.drains.any (fun d => d.st != 3)))
  let w := fput w TILE_MMA_STAT.VERDICT_PEND (b2n (!x.mmas.isEmpty))
  fput w TILE_MMA_STAT.RETRYING (b2n x.retryBank.isSome)

/-- Format flags set in their sticky and D_ bits (R89, R177). -/
def State.setFlags (s : State) (t : Nat) (f : FFlags) : State :=
  let w := s.rd .TILE_FMT_FLAGS (tix t)
  let add := b2n f.ovf + 2 * b2n f.unf + 4 * b2n f.inv
  s.wr .TILE_FMT_FLAGS (tix t) (w ||| (add + add * 256))

/-- The generator of a tile (R83). -/
def State.gen (s : State) (t : Nat) : SrGen :=
  ⟨BitVec.ofNat 64 (s.rd .TILE_SR_SEED (tix t)), (s.tile t).srLeft⟩

/-- The generator written back. -/
def State.setGen (s : State) (t : Nat) (g : SrGen) : State :=
  let s := s.wr .TILE_SR_SEED (tix t) g.seed.toNat
  s.setTile t { s.tile t with srLeft := g.left }

/-! Scoreboard resources (R134): scalar 0 to 31, vector 32 to 47, predicate 48 to 55, AMAX 58 to 73, FMT_DESC 74
to 89, TILE_FMT_CTL 90, TILE_SR_SEED 91. -/

/-- The resource of a tile-control register index (R158). -/
def tcRes (i : Nat) : List Nat :=
  if i < 16 then [74 + i] else if i < 32 then [58 + (i - 16)] else if i = 0x20 then [90]
  else if i = 0x21 then [91] else []

/-- Sign extension of a 32-bit immediate. -/
def sx32 (v : BitVec 32) : BitVec 64 := v.signExtend 64

/-- Lines [lo, hi] of `n` bytes from offset `a` (R135); none for no byte. -/
def lineRange (a n : Nat) : List (Nat × Nat) := if n = 0 then [] else [(a / 128, (a + n - 1) / 128)]

/-- A whole tile memory, for an operand whose address is not yet known. -/
def allLines : List (Nat × Nat) := [(0, 8191)]

/-- Rows and columns of a shape (R105). -/
def shapeRows (sh : Nat) : Nat :=
  match sh with
  | 0 => 128
  | 1 => 32
  | _ => 8
/-- Columns of a shape. -/
def shapeCols (sh : Nat) : Nat :=
  match sh with
  | 0 => 128
  | 1 => 512
  | _ => 2048

/-- BASE, STRIDE and SCALE_BASE of an operand descriptor (R160). -/
def descBase (d : BitVec 64) : Nat := (d.extractLsb' 0 20).toNat
/-- STRIDE. -/
def descStride (d : BitVec 64) : Nat := (d.extractLsb' 20 20).toNat
/-- SCALE_BASE. -/
def descScale (d : BitVec 64) : Nat := (d.extractLsb' 40 20).toNat
/-- Bits [63:60]. -/
def descTop (d : BitVec 64) : Nat := (d.extractLsb' 60 4).toNat

/-- Extent in bytes of `rows` rows of `len` bytes (R161). -/
def extent (stride rows len : Nat) : Nat := (rows - 1) * stride + len

/-- The byte width of a slot of whole-byte elements, or none (R175). -/
def gatherWidth (fmt : Nat) : Option Nat :=
  if fmt ≤ 6 ∨ fmt = 10 ∨ fmt = 13 ∨ fmt = 14 then some (elemBits fmt / 8) else none

/-- The address of element i: the 64-bit sum s[SS] + idx[i] * w (R175). -/
def gatherAddr (x : Tile) (f : InsV) (w i : Nat) : Nat :=
  (x.s f.ss.toNat + BitVec.ofInt 64 (signedOf ((x.v f.vs1.toNat).toNat >>> (32 * i)) 32 * w)).toNat

/-- The active elements with their addresses, in ascending index (R175). -/
def gatherList (x : Tile) (f : InsV) (w : Nat) : List (Nat × Nat) :=
  ((List.range (min 128 (512 / w))).filter (fun i => (x.p f.pred.toNat).getLsbD (w * i))).map
    (fun i => (i, gatherAddr x f w i))

/-- The line range from the lowest to the highest active address (R175). -/
def gatherRange (x : Tile) (f : InsV) : List (Nat × Nat) :=
  match gatherWidth f.fmt.toNat with
  | none => []
  | some w =>
    match (gatherList x f w).map (·.2) with
    | [] => []
    | a :: r => [(r.foldl min a / 128, (r.foldl max a + w - 1) / 128)]

/-- Tile-memory ranges an instruction reads and writes, from the scalar registers as they stand (R135, R161). -/
def rangesOf (s : State) (t : Nat) (e : QEnt) : List (Nat × Nat) × List (Nat × Nat) :=
  let x := s.tile t
  let w := e.w0
  match opcOf w with
  | 0x10 =>
    let f := decS w
    if f.func.getLsbD 3 then ([], [])
    else (lineRange (x.s f.rs1.toNat + sx32 f.imm).toNat (2 ^ (f.func.toNat % 4)), [])
  | 0x11 =>
    let f := decS w
    if f.func.getLsbD 3 then ([], [])
    else ([], lineRange (x.s f.rs1.toNat + sx32 f.imm).toNat (2 ^ (f.func.toNat % 4)))
  | 0x53 =>
    let f := decV w
    if f.func.getLsbD 0 then ([], [])
    else (lineRange (x.s f.ss.toNat + f.imm.signExtend 64 * 128).toNat 512, [])
  | 0x54 =>
    let f := decV w
    if f.func.getLsbD 0 then ([], [])
    else ([], lineRange (x.s f.ss.toNat + f.imm.signExtend 64 * 128).toNat 512)
  | 0x55 => (gatherRange x (decV w), [])
  | 0x56 => ([], gatherRange x (decV w))
  | 0x80 =>
    let f := decMma e.w0 e.w1
    let da := x.s f.sa.toNat
    let db := x.s f.sb.toNat
    let k := f.k1.toNat + 1
    let m := f.m1.toNat + 1
    let n := f.n1.toNat + 1
    let sa := s.slot t f.fa.toNat
    let sb := s.slot t f.fb.toNat
    let ra := lineRange (descBase da) (extent (descStride da) m (elemBytes f.fa.toNat k))
    let rb := lineRange (descBase db) (extent (descStride db) k (elemBytes f.fb.toNat n))
    let ca := if sa.block = 0 then [] else lineRange (descScale da) (m * ((k + sa.block - 1) / sa.block))
    let cb := if sb.block = 0 then [] else lineRange (descScale db) (n * ((k + sb.block - 1) / sb.block))
    (ra ++ rb ++ ca ++ cb, [])
  | 0x81 =>
    let f := decDrain e.w0 e.w1
    let dd := x.s f.sd.toNat
    let rows := f.rows1.toNat + 1
    let cols := f.cols1.toNat + 1
    let sd := s.slot t f.dslot.toNat
    let r := lineRange (descBase dd) (extent (descStride dd) rows (elemBytes f.dslot.toNat cols))
    let c := if sd.block = 0 then [] else lineRange (descScale dd) (rows * (cols / sd.block))
    ([], r ++ c)
  | 0xC0 =>
    let f := decMov e.w0 e.w1
    let len := (x.s f.sl.toNat).toNat % 2 ^ 32
    let rows := f.rows1.toNat + 1
    let n (st : Nat) := if len = 0 then 0 else extent (if rows = 1 then 0 else st) rows len
    (if f.ssp = 0 then lineRange (x.s f.ss.toNat).toNat (n f.sstride.toNat) else [],
     if f.dsp = 0 then lineRange (x.s f.sd.toNat).toNat (n f.dstride.toNat) else [])
  | _ => ([], [])

/-- Registers an instruction reads and writes (R134). -/
def regUses (s : State) (t : Nat) (e : QEnt) : List Nat × List Nat :=
  let w := e.w0
  let opc := opcOf w
  let fs := decS w
  let fv := decV w
  let pr : List Nat := let p := (w.extractLsb' 9 3).toNat; if p = 0 then [] else [48 + p]
  let v2 : List Nat := if fv.bs = 1 then [fv.ss.toNat] else [32 + fv.vs2.toNat]
  let fd (n : Nat) : Nat := 74 + n
  if opc ≤ 0x01 then (pr, [])
  else if opc ≤ 0x0E then
    (pr ++ [fs.rs1.toNat] ++ (if fs.i = 1 then [] else [fs.rs2.toNat]), [fs.rd.toNat])
  else match opc with
  | 0x0F => (pr, [fs.rd.toNat])
  | 0x10 => (pr ++ [fs.rs1.toNat], [fs.rd.toNat])
  | 0x11 => (pr ++ [fs.rs1.toNat, fs.rs2.toNat], [])
  | 0x12 => (pr ++ [fs.rs1.toNat, fs.rs2.toNat], [])
  | 0x13 => (pr, [fs.rd.toNat])
  | 0x14 => (pr ++ [fs.rs1.toNat], [fs.rd.toNat])
  | 0x15 => (pr ++ tcRes (fs.imm.toNat % 4096), [fs.rd.toNat])
  | 0x16 => (pr ++ [fs.rs1.toNat], tcRes (fs.imm.toNat % 4096))
  | 0x43 => (pr ++ [32 + fv.vs1.toNat, 32 + fv.vs3.toNat, 32 + fv.vd.toNat, fd fv.fmt.toNat] ++ v2, [32 + fv.vd.toNat])
  | 0x46 => (pr ++ [32 + fv.vs1.toNat, 32 + fv.vd.toNat, fd fv.fmt.toNat], [32 + fv.vd.toNat])
  | 0x47 => (pr ++ [32 + fv.vs1.toNat, 32 + fv.vd.toNat, fd fv.fmt.toNat], [32 + fv.vd.toNat])
  | 0x4D => (pr ++ [32 + fv.vs1.toNat, 48 + fv.pd.toNat, fd fv.fmt.toNat] ++ v2, [48 + fv.pd.toNat])
  | 0x4E =>
    (pr ++ [32 + fv.vs1.toNat, 32 + fv.vd.toNat, 32 + fv.vs3.toNat, fd fv.fmt.toNat, fd fv.fmt2.toNat],
     [32 + fv.vd.toNat] ++ (if (s.slot t fv.fmt2.toNat).block = 0 then [] else [32 + fv.vs3.toNat]) ++
       (if (s.slot t fv.fmt2.toNat).stoch then [91] else []))
  | 0x4F => (pr ++ [32 + fv.vs1.toNat, 32 + fv.vd.toNat, fd fv.fmt.toNat], [32 + fv.vd.toNat])
  | 0x50 => (pr ++ [32 + fv.vs1.toNat, 32 + fv.vd.toNat, fd 1], [32 + fv.vd.toNat])
  | 0x51 => (pr ++ [32 + fv.vs1.toNat, 32 + fv.vd.toNat, fd 1], [32 + fv.vd.toNat])
  | 0x52 => (pr ++ [32 + fv.vs1.toNat, 32 + fv.vd.toNat, fd 1], [32 + fv.vd.toNat])
  | 0x53 => (pr ++ [fv.ss.toNat, 32 + fv.vd.toNat], [32 + fv.vd.toNat])
  | 0x54 => (pr ++ [fv.ss.toNat, 32 + fv.vs1.toNat], [])
  | 0x55 => (pr ++ [fv.ss.toNat, 32 + fv.vs1.toNat, 32 + fv.vd.toNat], [32 + fv.vd.toNat])
  | 0x56 => (pr ++ [fv.ss.toNat, 32 + fv.vs1.toNat, 32 + fv.vs2.toNat], [])
  | 0x57 => (pr ++ [fv.ss.toNat, 32 + fv.vd.toNat], [32 + fv.vd.toNat])
  | 0x58 => (pr ++ [32 + fv.vs1.toNat, fv.ss.toNat], [fv.ss.toNat])
  | 0x59 => (pr ++ [32 + fv.vs1.toNat, 32 + fv.vd.toNat], [32 + fv.vd.toNat])
  | 0x5A => ([48 + fv.imm.toNat % 8, 48 + fv.imm.toNat / 8 % 8], [48 + fv.pd.toNat])
  | 0x80 =>
    let f := decMma e.w0 e.w1
    ([f.sa.toNat, f.sb.toNat, fd f.fa.toNat, fd f.fb.toNat], [])
  | 0x81 =>
    let f := decDrain e.w0 e.w1
    ([f.sd.toNat, fd f.dslot.toNat],
     [58 + f.amax.toNat] ++ (if (s.slot t f.dslot.toNat).stoch then [91] else []))
  | 0x82 => ([fd 15], [58 + (w.extractLsb' 12 4).toNat])
  | 0xC0 =>
    let f := decMov e.w0 e.w1
    (pr ++ [f.ss.toNat, f.sd.toNat, f.sl.toNat], [])
  | 0xC1 => (pr, [(decFence w).rd.toNat])
  | 0xC2 => (pr ++ [(decRsv w).ra.toNat], [(decRsv w).rd.toNat])
  | 0xC3 => (pr ++ [(decRsv w).ra.toNat, (decRsv w).rb.toNat], [(decRsv w).rd.toNat])
  | 0xC4 => (pr, [(w.extractLsb' 12 5).toNat])
  | _ =>
    if 0xD0 ≤ opc then
      let f := decStay w
      (pr ++ [f.rc.toNat, f.rv.toNat], [f.rd.toNat])
    else
      -- VADD to VMAX and VAND to VSHR
      (pr ++ [32 + fv.vs1.toNat, 32 + fv.vd.toNat, fd fv.fmt.toNat] ++ v2, [32 + fv.vd.toNat])

/-- What an instruction writes besides if an earlier tile-control write has still to change the FMT_DESC entry of its
destination (R79): the generator, and the scales of a VCVT. -/
def descWrites (pendW : List Nat) (e : QEnt) : List Nat :=
  match opcOf e.w0 with
  | 0x4E => let f := decV e.w0; if pendW.contains (74 + f.fmt2.toNat) then [91, 32 + f.vs3.toNat] else []
  | 0x81 => if pendW.contains (74 + (decDrain e.w0 e.w1).dslot.toNat) then [91] else []
  | _ => []

/-- Whether an instruction reads or writes tile memory or memory outside the tile, and whether it writes. -/
def memUse (e : QEnt) : Bool × Bool :=
  match opcOf e.w0 with
  | 0x10 => (true, false)
  | 0x11 => (true, true)
  | 0x53 => (true, false)
  | 0x54 => (true, true)
  | 0x55 => (true, false)
  | 0x56 => (true, true)
  | 0x80 => (true, false)
  | 0x81 => (true, true)
  | 0xC0 => (true, true)
  | 0xC2 => (true, false)
  | 0xC3 => (true, true)
  | _ => (false, false)

/-- What an instruction holds back from later ones while it has not completed (R199, R239). -/
def holdOf (e : QEnt) : Nat × Nat :=
  match opcOf e.w0 with
  | 0xC1 => let f := decFence e.w0; (if f.type = 1 then 2 else 3, f.smask.toNat)
  | 0xD1 => (if (decStay e.w0).fs = 0 then 0 else 2, 0)
  | 0xD4 => (if (decStay e.w0).fs = 0 then 0 else 2, 0)
  | 0xD2 => (if (decStay e.w0).fs = 0 then 0 else 3, 0)
  | 0xD3 => (if (decStay e.w0).fs = 0 then 0 else 3, 0)
  | 0xD5 => (if (decStay e.w0).fs = 0 then 0 else 3, 0)
  | _ => (0, 0)

/-- Whether an instruction reads memory and whether it writes memory, tile memory included, as a fence covers it
(R239). -/
def memRW (e : BitVec 64) : Bool × Bool :=
  match opcOf e with
  | 0x10 => (true, false)
  | 0x11 => (false, true)
  | 0x53 => (true, false)
  | 0x54 => (false, true)
  | 0x55 => (true, false)
  | 0x56 => (false, true)
  | 0x80 => (true, false)
  | 0x81 => (false, true)
  | 0xC0 => (true, true)
  | 0xC2 => (true, false)
  | 0xC3 => (false, true)
  | _ => (false, false)

/-- The identifier of an instruction's accesses outside the tile (R179). -/
def strmId (e : QEnt) : Nat := if opcOf e.w0 = 0xC0 then (decMov e.w0 e.w1).strm.toNat else 0

/-- The scalar registers that give an instruction's tile-memory addresses. -/
def addrRegs (e : QEnt) : List Nat :=
  match opcOf e.w0 with
  | 0x10 => [(decS e.w0).rs1.toNat]
  | 0x11 => [(decS e.w0).rs1.toNat]
  | 0x53 => [(decV e.w0).ss.toNat]
  | 0x54 => [(decV e.w0).ss.toNat]
  | 0x55 => let f := decV e.w0; [f.ss.toNat, 32 + f.vs1.toNat, 48 + f.pred.toNat]
  | 0x56 => let f := decV e.w0; [f.ss.toNat, 32 + f.vs1.toNat, 48 + f.pred.toNat]
  | 0x80 => let f := decMma e.w0 e.w1; [f.sa.toNat, f.sb.toNat, 74 + f.fa.toNat, 74 + f.fb.toNat]
  | 0x81 => let f := decDrain e.w0 e.w1; [f.sd.toNat, 74 + f.dslot.toNat]
  | 0xC0 => let f := decMov e.w0 e.w1; [f.ss.toNat, f.sd.toNat, f.sl.toNat]
  | _ => []

/-- Everything an instruction not yet executed holds on the scoreboard, given the registers that earlier
instructions have still to write. -/
def useOf (s : State) (t : Nat) (m : Strm) (pendW : List Nat) (e : QEnt) : Use :=
  let (r, w) := regUses s t e
  let (rr, wr) := rangesOf s t e
  let unknown := (addrRegs e).any (fun a => pendW.contains a)
  let (h, hm) := holdOf e
  { tag := e.tag, stream := m.num, busy := false, reads := r, writes := w ++ descWrites pendW e,
    rdR := if unknown ∧ rr ≠ [] ∨ unknown ∧ (memUse e).1 then allLines else rr,
    wrR := if unknown ∧ (memUse e).2 then allLines else wr, hold := h, hmask := hm }

/-- Two line ranges overlap. -/
def overlaps (a b : List (Nat × Nat)) : Bool :=
  a.any (fun p => b.any (fun q => decide (p.1 ≤ q.2) && decide (q.1 ≤ p.2)))

/-- All instructions queued or in flight with a lower tag, as scoreboard entries in tag order of each stream. -/
def earlierUses (s : State) (t tag : Nat) : List Use :=
  let x := s.tile t
  let queued : List (Strm × QEnt) :=
    (x.qs.map (fun e => (Strm.scalar, e)) ++ x.qv.map (fun e => (Strm.vector, e)) ++
      x.qm.map (fun e => (Strm.matrix, e)) ++ x.qx.map (fun e => (Strm.move, e))).filter
      (fun p => decide (p.2.tag < tag))
  let pend := (queued.map (fun p => (p.2.tag, (regUses s t p.2).2))) ++ x.uses.map (fun u => (u.tag, u.writes))
  x.uses.filter (fun u => decide (u.tag < tag)) ++
    queued.map (fun p => useOf s t p.1 ((pend.filter (fun q => decide (q.1 < p.2.tag))).flatMap (·.2)) p.2)

/-- Whether a use conflicts with a later instruction (R134, R135, R199, R239). -/
def conflicts (u v : Use) (mem wr : Bool) (id : Nat) : Bool :=
  u.writes.any (fun a => v.reads.contains a || v.writes.contains a) ||
  u.reads.any (fun a => v.writes.contains a) ||
  overlaps u.wrR (v.rdR ++ v.wrR) || overlaps u.rdR v.wrR ||
  (decide (u.hold = 3) && mem || decide (u.hold = 2) && wr) &&
    (u.hmask == 0 || v.rdR != [] || v.wrR != [] || (u.hmask >>> id) % 2 == 1)

/-- A MOV whose destination is a peer module (R38, R119): it is not held by written drains that await a
verdict. -/
def peerMov (s : State) (t : Nat) (e : QEnt) : Bool :=
  let f := decMov e.w0 e.w1
  let d := (s.tile t).s f.sd.toNat
  opcOf e.w0 == 0xC0 && f.dsp == 1 && d.getLsbD 57 &&
    (d.extractLsb' 42 15).toNat != s.fld .KST_MOD_ID [] KST_MOD_ID.ACT_ID

/-- Whether the scoreboard or the range tracker holds an instruction at the head of its queue. -/
def blocked (s : State) (t : Nat) (m : Strm) (e : QEnt) : Bool :=
  let v := useOf s t m [] e
  let free := if peerMov s t e then ((s.tile t).drains.filter (fun d => d.st == 3)).map (·.tag) else []
  let us := (earlierUses s t e.tag).filter (fun u => !free.contains u.tag)
  let (mem, wr) := memUse e
  us.any (fun u => conflicts u v mem wr (strmId e)) ||
    decide (32 < ((s.tile t).uses.map (fun u => u.rdR.length + u.wrR.length)).sum + v.rdR.length + v.wrR.length)

/-- A stream that an earlier instruction occupies. -/
def streamBusy (x : Tile) (m : Strm) : Bool := x.uses.any (fun u => u.busy && u.stream == m.num)

/-! Fetch (R133). -/

/-- Whether fetch waits behind a queued entry: a branch not yet resolved, END, or an entry that raises an exception. -/
def holdsFetch (e : QEnt) : Bool :=
  e.kind != 0 || opcOf e.w0 == 0x12 || opcOf e.w0 == 0x13 || opcOf e.w0 == 0x14 || opcOf e.w0 == 0x01

/-- One fetch: the tile afterwards, or none when fetch can make no progress. A word that is illegal whatever its second
word raises ILLEGAL_INSN, whose code is the lower one, at 0x1_FFF8 too (R138). A parity error makes an entry of the scalar
stream whatever opcode the word shows, since its bits are not to be trusted (DESIGN CHOICE, log 143). -/
def fetch1 (x : Tile) : Option Tile :=
  if x.fetchHold then none
  else
    let push (m : Strm) (e : QEnt) (len : Nat) (hold : Bool) : Option Tile :=
      if (x.q m).length < 8 then
        some { x.setQ m (x.q m ++ [e]) with pc := x.pc + len, nextTag := x.nextTag + 1, fetchHold := hold }
      else none
    if 0x20000 ≤ x.pc then push .scalar ⟨x.nextTag, x.pc, 2, 0, 0, 0, none⟩ 0 true
    else
      let w0 := mget 0 x.imem (x.pc / 8)
      let two := w2Of w0
      if x.badImem.contains (x.pc / 8) || (two && x.badImem.contains (x.pc / 8 + 1)) then
        push .scalar ⟨x.nextTag, x.pc, 3, 0, 0, 0, none⟩ 0 true
      else if two ∧ x.pc = 0x1FFF8 ∧ insnLegal w0 0 then push .scalar ⟨x.nextTag, x.pc, 2, 0, 0, 0, none⟩ 0 true
      else
        let w1 := if two then mget 0 x.imem (x.pc / 8 + 1) else 0
        let m := streamOf (opcOf w0)
        let len := if two then 16 else 8
        let e : QEnt := ⟨x.nextTag, x.pc, if insnLegal w0 w1 then 0 else 1, w0, w1, 0, none⟩
        push m e len (holdsFetch e)

/-- Fetch until it stops; the queues bound the number of fetches. -/
def fetchAll (fuel : Nat) (x : Tile) : Tile :=
  match fuel with
  | 0 => x
  | n + 1 => match fetch1 x with
    | some y => fetchAll n y
    | none => x

/-! Exceptions (R137 to R139). -/

/-- Nothing of the tile still executes (R137, R157). -/
def Tile.quiet (x : Tile) : Bool :=
  x.mmas.isEmpty && x.drains.isEmpty && x.moves.isEmpty && x.loads.isEmpty && x.fence.isNone && x.stays.isEmpty &&
    x.uses.isEmpty

/-- What stays on the scoreboard of instructions that complete after a stop. -/
def keepUses (us : List Use) (keep : List Nat) : List Use := us.filter (fun u => keep.contains u.tag)

/-- The bank of a record. -/
def MmaRec.bank (r : MmaRec) : Nat := (decMma r.w0 r.w1).bank.toNat

/-- Whether a stop at SPAN_AC_CNT `ac` lets an MMA run to its verdict (R137, R143): all its K steps have entered, or it
belongs to a checksum retry. The model counts the cycles of its entry by the ticks of the clock (log 144). -/
def runsOn (x : Tile) (ac : Nat) (r : MmaRec) : Bool :=
  decide (2 ≤ r.st) || r.retry || (r.st == 1 && (decide (r.enterBy ≤ ac) || x.retryBank == some r.bank))

/-- The tile after fetch stops, queues are discarded and what must not complete is dropped (R137): MMAs that have
not wholly entered, drains not started and Stay waits go; a checksum retry runs to its verdict, with its repeated
drains. A bank holds nothing of an abandoned MMA, whose sums it would take at MMA_FINAL; TILE_FAULTED reloads it. -/
def Tile.stopAll (x : Tile) (ac : Nat) : Tile :=
  let mm := x.mmas.filter (runsOn x ac)
  let dr := x.drains.filter (fun d => d.st != 0 || d.again)
  let st := x.stays.filter (fun r => !r.wait)
  let keep := mm.map (·.tag) ++ dr.map (·.tag) ++ st.map (·.tag) ++ x.moves.map (·.tag) ++ x.loads.map (·.tag) ++
    (match x.fence with | some f => [f.tag] | none => [])
  { x with qs := [], qv := [], qm := [], qx := [], fetchHold := true, mmas := mm, drains := dr, stays := st,
           uses := keepUses x.uses keep, resv := [] }

/-- The tag of an epoch (R192). -/
def epochTag (s : State) (e : Epoch) : Nat :=
  actId s + e.tile / 64 * 2 ^ 15 + e.tile % 64 * 2 ^ 18 + e.seq * 2 ^ 24 + b2n e.integ * 2 ^ 40

/-- One closed epoch resolved (R194): CONFIRM or REVOKE to every module that received a write, with the number of
its writes. -/
def resolveOne (s : State) (e : Epoch) : State :=
  let kind := if e.failed then 0xF1 else 0xF0
  let s := e.sent.foldl (fun s p => stayTell s 2 p.1 kind [epochTag s e, p.2]) s
  let ix := tix e.tile
  let s := s.setFld .TILE_EPOCH ix TILE_EPOCH.UNRESOLVED (s.fld .TILE_EPOCH ix TILE_EPOCH.UNRESOLVED - 1)
  if e.failed then (s.setFld .TILE_EPOCH ix TILE_EPOCH.REVOKED_D 1).satInc .TILE_EPOCH ix TILE_EPOCH.REVOKE_CNT 1
  else s

/-- Whether a closed epoch can be resolved: a verdict has failed, or nothing it depends on is outstanding. -/
def Epoch.ready (e : Epoch) : Bool := e.closed && (e.failed || (e.deps.isEmpty && e.inbound.isEmpty))

/-- The Span's epoch unit resolves every epoch that is ready (R194). -/
def resolveEpochs (s : State) : State :=
  (s.epochs.filter Epoch.ready).foldl resolveOne { s with epochs := s.epochs.filter (fun e => !e.ready) }

/-- Close of a tile's open epoch (R193), resolved at once when it depends on nothing more. -/
def closeEpoch (s : State) (t : Nat) : State :=
  if s.epochs.any (fun e => e.tile == t && !e.closed) then
    let es := s.epochs.map (fun (e : Epoch) => if e.tile == t && !e.closed then { e with closed := true } else e)
    let s := { s with epochs := es }
    resolveEpochs ((s.setFld .TILE_EPOCH (tix t) TILE_EPOCH.OPEN 0).wrapInc .TILE_EPOCH (tix t)
      TILE_EPOCH.UNRESOLVED 1)
  else s

/-- The counter key of a home and an index. -/
def ctrKey (home idx : Nat) : Nat := home * 4096 + idx

/-- MODULE of a counter reference. -/
def refMod (r : BitVec 64) : Nat := (r.extractLsb' 16 15).toNat
/-- HOME. -/
def refHome (r : BitVec 64) : Nat := (r.extractLsb' 12 4).toNat
/-- INDEX. -/
def refIdx (r : BitVec 64) : Nat := (r.extractLsb' 0 12).toNat

/-- PRI of a Stay instruction. -/
def StayRec.cls (r : StayRec) : Nat := (decStay r.w0).pri.toNat

/-- The registration of a tile's wait withdrawn (R209), at its home here or by a message to its module. The message
follows a request still on its way, which it cannot overtake (R206), so it finds the registration made. -/
def withdrawWaits (s : State) (t : Nat) : State :=
  ((s.tile t).stays.filter (·.wait)).foldl (fun s r =>
    if r.far then
      if r.ph = 3 ∨ r.ph = 1 then stayTell s r.cls (refMod r.ref) 0xD8 [t, r.tag, refHome r.ref, refIdx r.ref] else s
    else
      { s with stay := { s.stay with waits := s.stay.waits.filter (fun w =>
          match w.who with
          | .tile u g => !(u == t && g == r.tag)
          | .remote _ _ _ => true) } }) s

/-- SPAN_AC_CNT of a tile's Span. -/
def State.acNow (s : State) (t : Nat) : Nat := s.rd .SPAN_AC_CNT [t / 64]

/-- The records of an exception of one stream (R137, R138): written if it is the first or has the lower tag; a further
one sets MULTI. -/
def noteExc (s : State) (t : Nat) (m : Nat) (tag cause pc addr : Nat) : State :=
  let x := s.tile t
  let rec? := match x.excTag with
    | none => true
    | some g => decide (tag < g)
  if rec? then
    let w := fput 0 TILE_EXC.CAUSE cause
    let w := fput w TILE_EXC.STREAM m
    let w := fput w TILE_EXC.PC pc
    let w := fput w TILE_EXC.MULTI (b2n x.excTag.isSome)
    (s.wr .TILE_EXC (tix t) w).wr .TILE_EXC_ADDR (tix t) addr
  else s.setFld .TILE_EXC (tix t) TILE_EXC.MULTI 1

/-- An exception of one stream (R137, R138): recorded, the waits withdrawn, the streams stopped and the epoch closed. -/
def raiseExc (s : State) (t : Nat) (m : Nat) (tag cause pc addr : Nat) : State :=
  let x := s.tile t
  let s := withdrawWaits (noteExc s t m tag cause pc addr) t
  let y := x.stopAll (s.acNow t)
  let first := match x.excTag with
    | none => tag
    | some g => min g tag
  closeEpoch (s.setTile t { y with excTag := some first }) t

/-- Every earlier instruction of a stream has completed (R137). -/
def streamClear (x : Tile) (m tag : Nat) : Bool := !x.uses.any (fun u => u.stream == m && decide (u.tag < tag))

/-- The exception of the head of a stream, raised from s' (R137): not before every earlier instruction of the stream
has completed; until then the event does not occur and s stays. -/
def faultAt (s s' : State) (t m : Nat) (e : QEnt) (cause addr : Nat) : State :=
  if streamClear (s.tile t) m e.tag then raiseExc s' t m e.tag cause e.pc addr else s

/-- The exception of a queue entry that is not an instruction (R139): cause by kind. -/
def entCause (k : Nat) : Nat :=
  match k with
  | 1 => 0x01
  | 2 => 0x08
  | _ => 0x09

/-- The faulting entry at the head of a stream whose earlier instructions have completed, lowest tag first (R137); the
matrix stream raises none during a checksum retry (R138). -/
def headFault (x : Tile) : Option (Strm × QEnt) :=
  let c := [Strm.scalar, .vector, .matrix, .move].filterMap (fun m =>
    match x.q m with
    | e :: _ =>
      if e.kind ≠ 0 ∧ ¬ x.uses.any (fun u => u.stream == m.num) ∧ ¬ (m = .matrix ∧ x.retryBank.isSome) then some (m, e)
      else none
    | [] => none)
  match c with
  | [] => none
  | h :: r => some (r.foldl (fun a b => if b.2.tag < a.2.tag then b else a) h)

/-- Fetch and the faults that reach a head, for a RUNNING tile without an exception. -/
def settle (s : State) (t : Nat) : State :=
  if s.tstate t ≠ 1 ∨ (s.tile t).excTag.isSome ∨ (s.tile t).retiring ≠ 0 then s
  else
    let s := s.setTile t (fetchAll 40 (s.tile t))
    match headFault (s.tile t) with
    | some (m, e) => raiseExc s t m.num e.tag (entCause e.kind) e.pc 0
    | none => s

/-! Execution of the head of a stream. -/

/-- What an instruction's effect answers: the state after it, or an exception with its address. -/
inductive IssueR
  | done (s : State)
  | exc (cause addr : Nat)
deriving DecidableEq, Repr

/-- The head of a stream's queue when it is this instruction and nothing holds it (R133 to R135). -/
def readyHead (s : State) (t : Nat) (m : Strm) (w0 w1 : BitVec 64) : Option QEnt :=
  if s.up ∧ t < 512 ∧ s.tstate t = 1 ∧ (s.tile t).excTag = none ∧ (s.tile t).retiring = 0 ∧
      ¬ s.bit .KST_RAS_STAT [] KST_RAS_STAT.CONT_ACTIVE then
    match (s.tile t).q m with
    | e :: _ =>
      if e.kind = 0 ∧ e.w0 = w0 ∧ e.w1 = w1 ∧ streamBusy (s.tile t) m = false ∧ blocked s t m e = false then some e
      else none
    | [] => none
  else none

/-- The queue of a stream without its head. -/
def popHead (s : State) (t : Nat) (m : Strm) : State :=
  let x := s.tile t
  s.setTile t (x.setQ m ((x.q m).drop 1))

/-- Execution of the instruction at the head of a stream: its effect, or its exception; then fetch goes on. When
the head is another instruction or is held, the event does not occur (assumption 1). -/
def issue (s : State) (t : Nat) (m : Strm) (w0 w1 : BitVec 64) (k : State → QEnt → IssueR) :
    Host.Outcome State Fault Refusal :=
  match readyHead s t m w0 w1 with
  | none => .next s
  | some e =>
    match k (popHead s t m) e with
    | .done s' => .next (settle s' t)
    | .exc cause addr => .next (faultAt s s t m.num e cause addr)

/-- An entry on the scoreboard for an instruction that completes later. -/
def addUse (s : State) (t : Nat) (u : Use) : State :=
  let x := s.tile t
  s.setTile t { x with uses := x.uses ++ [u] }

/-- Its removal, and fetch going on. -/
def endUse (s : State) (t tag : Nat) : State :=
  let x := s.tile t
  settle (s.setTile t { x with uses := x.uses.filter (fun u => u.tag != tag) }) t

end Sys2Proof.Machine
end

