-- ==== Sys2Proof/Machine/Mem.lean ====
section
/-!
DEFINITION. Machine/Mem.lean: HBM: where a raw offset lies (R301), the frame class (R49), the two codes with
their error and poison marks (R304 to R306), row repair and channel retirement (R313, R314), and the trigger of
a containment reset (R448, R449, R453).
-/

namespace Sys2Proof.Machine

/-- Two GiB, the size of a channel (R300). -/
def gib2 : Nat := 2147483648

/-- The live list of a region (R301). -/
def State.liveList (s : State) (k : Nat) : List Nat :=
  (List.range 12).filter (fun i => (s.fld .HBM_REGION [k] HBM_REGION.LIVE >>> i) % 2 = 1)

/-- The physical location of a raw offset (R301), or none where it is undecoded; a region that is re-forming is
undecoded (R314). -/
def rawResolve (s : State) (x : Nat) : Option Nat :=
  let rsize := s.asm.stacks * gib2
  let k := x / rsize
  let y := x % rsize
  if 31 < k then none
  else
    let l := s.liveList k
    let n := l.length
    if n = 0 ∨ n * gib2 ≤ y ∨ s.fld .HBM_REGION [k] HBM_REGION.STATE = 2 then none
    else
      let c := y / 512
      some ((l.getD (c % n) 0 * 32 + k) * gib2 + c / n * 512 + y % 512)

/-- The position of a number in a list. -/
def posIn (l : List Nat) (a : Nat) : Option Nat :=
  match l with
  | [] => none
  | b :: r => if b = a then some 0 else (posIn r a).map (· + 1)

/-- The raw offset of a physical location, or none when its stack has left the region. -/
def physRaw (s : State) (p : Nat) : Option Nat :=
  let k := p / gib2 % 32
  let l := s.liveList k
  match posIn l (p / gib2 / 32) with
  | none => none
  | some i =>
    let o := p % gib2
    some (k * (s.asm.stacks * gib2) + (o / 512 * l.length + i) * 512 + o % 512)

/-- The frame of a physical location (R302). -/
def frameOf (s : State) (p : Nat) : Nat :=
  match physRaw s p with
  | some x => x / 2097152
  | none => 0

/-- The class of a frame: true = C (R49). -/
def frameC (s : State) (f : Nat) : Bool := s.rd .HBM_FCLASS [f / 64] / 2 ^ (f % 64) % 2 == 1

/-- What an unlisted HBM byte reads as (R476: HBM is written with zeros; R52: the reset column of a Placement
Table entry). -/
def hbmDef (s : State) (p : Nat) : BitVec 8 :=
  if s.mem.patF.isEmpty then 0
  else if p % 8 = 0 ∧ s.mem.patF.contains (frameOf s p) then 8 else 0

/-- One byte of HBM. -/
def hbmByte (s : State) (p : Nat) : BitVec 8 := mget (hbmDef s p) s.mem.hbm p

/-- One byte written. -/
def setHbmByte (s : State) (p : Nat) (b : BitVec 8) : State :=
  { s with mem := { s.mem with hbm := mset (hbmDef s p) s.mem.hbm p b } }

/-- A number of bytes as one bit vector, byte 0 lowest (R7). -/
def packBytes (n : Nat) (bs : List (BitVec 8)) : BitVec n := BitVec.ofNat n (leNat bs)

/-- Byte i of a line. -/
def lineByte (d : BitVec 1024) (i : Nat) : BitVec 8 := d.extractLsb' (8 * i) 8

/-- Replacement of bytes of a line under a mask. -/
def mergeLine (old new : BitVec 1024) (mask : BitVec 128) : BitVec 1024 :=
  packBytes 1024 ((List.range 128).map (fun i => if mask.getLsbD i then lineByte new i else lineByte old i))

/-- A line without marks. -/
def LineVal.clean (d : BitVec 1024) : LineVal := ⟨d, 0, 0⟩

/-- A bit of a mark mask. -/
def markBit (i : Nat) (b : Bool) : BitVec 4 := if b then BitVec.ofNat 4 (2 ^ i) else 0

/-! Containment. -/

/-- The poison mark written over a codeword (or D-class sector) (R305): it replaces any error. -/
def poisonSector (s : State) (sct : Nat) : State :=
  let f := frameOf s (sct * 32)
  let l := if frameC s f then [sct / 2 * 2, sct / 2 * 2 + 1] else [sct]
  let d := !frameC s f
  let base := s.mem.frmD.contains f
  { s with mem := { s.mem with
      pz := l.foldl sins s.mem.pz
      er := s.mem.er.filter (fun e => !l.contains e.1)
      odd := l.foldl (fun o x => if d = base then sdel o x else sins o x) s.mem.odd } }

/-- A tile after event 2 of R449: every stream stops, queued and executing instructions go. -/
def Tile.contStop (x : Tile) : Tile :=
  { x with qs := [], qv := [], qm := [], qx := [], uses := [], fetchHold := true, mmas := [], drains := [],
           moves := [], loads := [], outs := [], fence := none, stays := [], resv := [], retryBank := none, aborting := false }

/-- A discarded store logged (R249, R252), against the Keystone fabric, with its requester, identifier and address. -/
def logDrop (s : State) (status req strm addr : Nat) : State := record s ⟨0x2054, 0, 0x0E, status, some addr, strm, req⟩

/-- A requester code that is a tile's (R436). -/
def tileUnit (r : Nat) : Bool := r / 4096 == 1 && decide (r % 256 < 0x44)

/-- Pending stores (R252): writes of tiles on their way, the other agents' writes to the host, by host address, and writes
held at epoch gates; each with its requester, identifier and address. -/
def pendingStores (s : State) : List (Nat × Nat × Nat) :=
  s.tiles.flatMap (fun p => p.2.outs.flatMap (fun w => w.addrs.map (fun a => (unitOfTile s p.1, w.strm, a)))) ++
    (s.mem.farPend.filter (fun w => !tileUnit w.2)).map (fun w => (w.2, 0, (w.1 - 2 ^ 47) * 128)) ++
    s.gate.eps.flatMap (fun e => e.held.map (fun h => (0xFFFC, 0, h.addr)))

/-- A trigger of a containment reset (R448, R449 events 1 and 2, R453): the record, and unless one is in
progress the stop of all work and the discard of pending stores, logged and counted (R252). `sct`: the codeword consumed. -/
def contTrigger (s : State) (unit cause errCause : Nat) (addr : Option Nat) (sct : Option Nat) : State :=
  if s.bit .KST_RAS_STAT [] KST_RAS_STAT.CONT_ACTIVE then
    let s := recordAt s unit 7 errCause 0x08 addr
    match sct with
    | none => s
    | some c =>
      let ev := s.fld .KST_RAS_STAT [] KST_RAS_STAT.CONT_EVENT
      if ev ≤ 2 ∧ ev ≠ 0 then { s with ras := { s.ras with poisonAt := sins s.ras.poisonAt c } }
      else poisonSector s c
  else
    let drop := pendingStores s
    let s := s.satInc .KST_ORD_STAT [] KST_ORD_STAT.RESET_DROP_CNT drop.length
    let s := s.setFld .KST_RAS_STAT [] KST_RAS_STAT.CONT_ACTIVE 1
    let s := recordAt s unit 7 errCause 0x08 addr
    let s := drop.foldl (fun s w => logDrop s 0x08 w.1 w.2.1 w.2.2) s
    let s := s.setFld .KST_RAS_STAT [] KST_RAS_STAT.CONT_EVENT 2
    let s := s.setFld .KST_RAS_STAT [] KST_RAS_STAT.LAST_CAUSE cause
    let s := s.satInc .KST_RAS_STAT [] KST_RAS_STAT.CONT_CNT 1
    let en := (List.range 8).foldl (fun a p =>
      if s.bit .SPAN_CACHE_CTL [p] SPAN_CACHE_CTL.EN then a + 2 ^ p else a) 0
    { s with ras := { s.ras with
                contTimes := s.ras.contTimes ++ [s.clk.fc]
                savedEn := en
                poisonAt := match sct with
                  | none => []
                  | some c => [c] }
             tiles := s.tiles.map (fun p => (p.1, p.2.contStop))
             epochs := []
             links := { s.links with vc := [] }
             mem := { s.mem with farPend := [] } }

/-- Consumption of an error-marked codeword (R306). -/
def consume (s : State) (sct : Nat) : State :=
  let c := frameC s (frameOf s (sct * 32))
  contTrigger s (unitHbm (sct * 32 / gib2 / 32) (sct * 32 / gib2 % 32)) (if c then 1 else 2) (if c then 4 else 5)
    (physRaw s (sct * 32)) (some sct)

/-- Module up, no containment reset in progress and not in Recovery (R479). -/
def State.live (s : State) : Bool :=
  s.up && !s.bit .KST_RAS_STAT [] KST_RAS_STAT.CONT_ACTIVE && s.fld .KST_BOOT_STAT [] KST_BOOT_STAT.STAGE != 15

/-- An event that needs a live module (assumption 1). -/
def whenLive (s : State) (k : State) : Host.Outcome State Fault Refusal := .next (if s.live then k else s)

/-- The last event of R449 that a containment reset under way has reached, 0 without one. -/
def contEvent (s : State) : Nat :=
  if s.bit .KST_RAS_STAT [] KST_RAS_STAT.CONT_ACTIVE then s.fld .KST_RAS_STAT [] KST_RAS_STAT.CONT_EVENT else 0

/-- Inbound memory accesses and Stay operations of peers are refused: while Parked (R373), and in a containment reset
until its event 6 (R409, R449). -/
def inboundOff (s : State) : Bool :=
  s.up && (s.bit .KST_PARK [] KST_PARK.PARKED ||
    (s.bit .KST_RAS_STAT [] KST_RAS_STAT.CONT_ACTIVE && decide (contEvent s < 6)))

/-- An inbound operation of a peer: refused at once, or served; after Cast-off no link is left to bring it (R485). -/
def whenPeer (s refused served : State) : Host.Outcome State Fault Refusal :=
  .next (if s.boot.off = 6 then s
    else if inboundOff s then refused
    else if s.live || (s.up && decide (6 ≤ contEvent s)) then served else s)

/-! Channel retirement and row repair. -/

/-- Event 1 of R314 for channel k of stack st; a region that is re-forming takes no further channel, and a channel that is
already pending is not retired again. -/
def retireChannel (s : State) (st k : Nat) : State :=
  if s.fld .HBM_REGION [k] HBM_REGION.STATE = 2 ∨ (s.fld .HBM_REGION [k] HBM_REGION.LIVE >>> st) % 2 = 0 ∨
      (s.fld .HBM_REGION [k] HBM_REGION.PEND >>> st) % 2 = 1 then s
  else
    let s := s.setFld .HBM_REGION [k] HBM_REGION.PEND (s.fld .HBM_REGION [k] HBM_REGION.PEND ||| 2 ^ st)
    let s := s.setFld .HBM_REGION [k] HBM_REGION.STATE 1
    recordAt s (unitHbm st k) 6 0x09 0 none

/-- One event of row 6 or 7 for a channel (R443, R444). -/
def channelEvent (s : State) (row st k : Nat) : State :=
  let u := unitHbm st k
  let (s, hit) := retireEvent s row u
  if hit then
    if retireBySoftware s row then recordAt s u 6 0x04 0 none else retireChannel s st k
  else s

/-- Whether a sector is stored under class D (R307). -/
def storedD (s : State) (sct : Nat) : Bool :=
  s.mem.frmD.contains (frameOf s (sct * 32)) != s.mem.odd.contains sct

/-- The state of a codeword at a read: 0 good, 1 corrected, 2 uncorrectable or detected, 3 poisoned. -/
def cwState (s : State) (c : Bool) (scts : List Nat) : Nat :=
  if scts.any (fun x => s.mem.pz.contains x) then 3
  else if scts.any (fun x => storedD s x == c) then 2
  else
    let e := (scts.map (fun x => mget 0 s.mem.er x)).foldl max 0
    if e = 0 then 0 else if c ∧ e = 1 then 1 else 2

/-- A row read and written back in a repair (R313): correctable codewords are corrected, others stay as they are. -/
def rowRewrite (s : State) (row : Nat) : State :=
  { s with mem := { s.mem with er := s.mem.er.filter (fun e =>
      !(Config.hbmRow e.1 == row && frameC s (frameOf s (e.1 * 32)) &&
        cwState s true [e.1 / 2 * 2, e.1 / 2 * 2 + 1] == 1)) } }

/-- Row repair of R313 when row 5 reaches its threshold; whether a spare row is left is a free choice. The
repair is recorded in the settings store. -/
def rowRepair (s : State) (st k row : Nat) : State :=
  let (spare, s) := s.freeBool
  if spare then
    let s := s.satInc .HBM_PPR_STAT [st] HBM_PPR_STAT.SOFT_CNT 1
    let s := s.satInc .HBM_PPR_STAT [st] HBM_PPR_STAT.HARD_PEND 1
    let s := rowRewrite (s.commit .HBM_PPR_STAT [st]).counted row
    { s with mem := { s.mem with rows := mset 0 s.mem.rows row (mget 0 s.mem.rows row + 1) } }
  else
    channelEvent (s.satInc .HBM_PPR_STAT [st] HBM_PPR_STAT.NO_SPARE_CNT 1) 7 st k

/-! The controller. -/

/-- HBM is out of service: a stack is shut down or cools (R312; every region spans every stack). Accesses to it are held. -/
def hbmOff (s : State) : Bool :=
  (List.range s.asm.stacks).any (fun k =>
    s.fld .HBM_STK_STAT [k] HBM_STK_STAT.STATE == 3 || s.fld .HBM_STK_STAT [k] HBM_STK_STAT.STATE == 4)


/-- The codewords of a line under a class: each a list of sectors of the line. -/
def cwsOf (c : Bool) (line : Nat) : List (List Nat) :=
  if c then [[line * 4, line * 4 + 1], [line * 4 + 2, line * 4 + 3]]
  else [[line * 4], [line * 4 + 1], [line * 4 + 2], [line * 4 + 3]]

/-- Counting and recording of what a read finds in one codeword (R306, R313, R442). -/
def cwCount (s : State) (c : Bool) (st k sct : Nat) (e : Nat) : State :=
  match e with
  | 0 => s
  | 1 =>
    let s := s.satInc .HBM_ERR_CNT [st] HBM_ERR_CNT.CE_CNT 1
    let s := recordAt s (unitHbm st k) 1 0x03 0 (physRaw s (sct * 32))
    let row := Config.hbmRow sct
    let (s, hit) := retireEvent s 5 (65536 + row)
    if hit then rowRepair s st k row else s
  | 2 =>
    if c then
      let s := s.satInc .HBM_ERR_CNT [st] HBM_ERR_CNT.UE_CNT 1
      channelEvent (recordAt s (unitHbm st k) 2 0x04 0x04 (physRaw s (sct * 32))) 6 st k
    else
      let s := s.satInc .HBM_ERR_CNT [st] HBM_ERR_CNT.DE_CNT 1
      recordAt s (unitHbm st k) 2 0x05 0x04 (physRaw s (sct * 32))
  | _ => s.satInc .HBM_ERR_CNT [st] HBM_ERR_CNT.POISON_RD 1

/-- A read of a line by its controller: data, marks, counts and records (R304 to R306). -/
def hbmRead (s : State) (line : Nat) : State × LineVal :=
  let p := line * 128
  let c := frameC s (frameOf s p)
  let st := p / gib2 / 32
  let k := p / gib2 % 32
  let d := packBytes 1024 ((List.range 128).map (fun i => hbmByte s (p + i)))
  let cws := (cwsOf c line).map (fun l => (l, cwState s c l))
  let marks (n : Nat) : BitVec 4 :=
    cws.foldl (fun m q => if q.2 = n then q.1.foldl (fun m x => m ||| markBit (x % 4) true) m else m) 0
  let v : LineVal := ⟨d, marks 3, marks 2⟩
  (cws.foldl (fun s q => cwCount s c st k (q.1.headD 0) q.2) s, v)

/-- Bytes of a line stored under a mask. -/
def storeBytes (s : State) (line : Nat) (d : BitVec 1024) (is : List Nat) : State :=
  is.foldl (fun s i => setHbmByte s (line * 128 + i) (lineByte d i)) s

/-- A codeword newly encoded under the frame's class: no error left, poisoned or not. -/
def encodeCw (s : State) (c : Bool) (scts : List Nat) (poison : Bool) : State :=
  let base := s.mem.frmD.contains (frameOf s (scts.headD 0 * 32))
  { s with mem := { s.mem with
      pz := scts.foldl (fun l x => if poison then sins l x else sdel l x) s.mem.pz
      er := s.mem.er.filter (fun e => !scts.contains e.1)
      odd := scts.foldl (fun o x => if (!c) = base then sdel o x else sins o x) s.mem.odd } }

/-- A write of a line under a byte mask by its controller (R304 to R306): whole codewords directly, others
merged from a read, whose errors are counted and recorded; a merge into a codeword with an error consumes it and is
suppressed. -/
def hbmWrite (s : State) (line : Nat) (v : LineVal) (mask : BitVec 128) : State :=
  let c := frameC s (frameOf s (line * 128))
  (cwsOf c line).foldl (fun s scts =>
    let is := (scts.flatMap (fun x => (List.range 32).map (fun i => x % 4 * 32 + i))).filter (fun i => mask.getLsbD i)
    let pzn := scts.any (fun x => v.pz.getLsbD (x % 4))
    if is.isEmpty then s
    else if is.length = 32 * scts.length then encodeCw (storeBytes s line v.data is) c scts pzn
    else
      let p := line * 128
      let s1 := cwCount s c (p / gib2 / 32) (p / gib2 % 32) (scts.headD 0) (if cwState s c scts = 3 then 0 else cwState s c scts)
      match cwState s c scts with
      | 3 => storeBytes s line v.data is
      | 2 => consume s1 (scts.headD 0)
      | _ => encodeCw (storeBytes s1 line v.data is) c scts pzn) s

/-- A full mask. -/
def fullMask : BitVec 128 := BitVec.allOnes 128

/-- All bytes, marks and codes of a frame removed: it holds zeros under its class (R314, R332). -/
def zeroFrame (s : State) (f : Nat) : State :=
  let inF (p : Nat) : Bool := frameOf s p == f
  let frmD := if frameC s f then sdel s.mem.frmD f else sins s.mem.frmD f
  { s with mem := { s.mem with
      hbm := s.mem.hbm.filter (fun e => !inF e.1)
      patF := sdel s.mem.patF f
      pz := s.mem.pz.filter (fun x => !inF (x * 32))
      er := s.mem.er.filter (fun e => !inF (e.1 * 32))
      odd := s.mem.odd.filter (fun x => !inF (x * 32))
      frmD := frmD } }

/-- The class bit of a frame set by hardware (R49, R50). -/
def setFrameClass (s : State) (f : Nat) (c : Bool) : State :=
  s.setFld .HBM_FCLASS [f / 64] ⟨f % 64, f % 64⟩ (b2n c)

/-- The activity bit of a frame or page set (R322). -/
def touch (s : State) (a : Nat) : State := { s with mem := { s.mem with act := sins s.mem.act a } }

/-- Whether a line number names host memory (R256). -/
def isFar (line : Nat) : Bool := decide (2 ^ 47 ≤ line)

/-- The home of a line: its stack, or 12 for the far home at Pier 0 (R256). -/
def homeOf (line : Nat) : Nat := if isFar line then 12 else line * 128 / gib2 / 32

/-- UNIT of a home (R436). -/
def homeUnit (h : Nat) : Nat := if h = 12 then unitPier 0 0x0D else unitHbm h 0x41

end Sys2Proof.Machine
end

