-- ==== Sys2Proof/Machine/Coh.lean ====
section
/-!
DEFINITION. Machine/Coh.lean: coherence (chapter 10) as operations: copies in agents, snoops (R259), the
directory (R261, R269 to R272) and each request served whole at its home (R263).
-/

namespace Sys2Proof.Machine

/-! What the outside answers. -/

/-- A byte of an answer. -/
def extByte (e : Ext) (a : Nat) : BitVec 8 :=
  match e.bytes.find? (fun p => p.1 == a) with
  | some p => p.2
  | none => 0

/-- A line of an answer. -/
def extLine (e : Ext) (a : Nat) : LineVal :=
  ⟨packBytes 1024 ((List.range 128).map (fun i => extByte e (a + i))),
   if e.poison.contains a then BitVec.allOnes 4 else 0, 0⟩

/-- The host physical address of a far line. -/
def farAddr (line : Nat) : Nat := (line - 2 ^ 47) * 128

/-! Copies. -/

/-- Key of an agent's copy. -/
def lineKey (a line : Nat) : Nat := a * 2 ^ 48 + line

/-- The set of a line in its home's directory: one of 262,144 (R269). -/
def dirIndex (line : Nat) : Nat := Config.dirSet line % 262144

/-- The set of a line in a Span cache: one of 24,576 (R280). -/
def cacheIndex (line : Nat) : Nat := Config.cacheSet line % 24576

/-- An agent's copy of a line. -/
def agentLine (s : State) (a line : Nat) : Option CLine := mfind s.mem.lines (lineKey a line)

/-- A copy written. -/
def putLine (s : State) (a line : Nat) (c : CLine) : State :=
  { s with mem := { s.mem with lines := mins s.mem.lines (lineKey a line) c } }

/-- Reservations of tiles selected by `f` that cover a line are lost (R190, R246). -/
def loseRsv (s : State) (line : Nat) (f : Nat → Bool) : State :=
  { s with tiles := s.tiles.map (fun p =>
      if f p.1 && p.2.resv.contains line then (p.1, { p.2 with resv := [] }) else p) }

/-- A write to a line ends every reservation on it (R190). -/
def lineWritten (s : State) (line : Nat) : State :=
  let s := loseRsv s line (fun _ => true)
  { s with mem := { s.mem with coreRsv := s.mem.coreRsv.filter (fun r => r.2 != line) } }

/-- A copy removed; a line that leaves a Span cache ends the reservations of its Span (R246). -/
def dropCopy (s : State) (a line : Nat) : State :=
  let s := { s with mem := { s.mem with lines := mdel s.mem.lines (lineKey a line)
                                        cacheErr := mdel s.mem.cacheErr (lineKey a line) } }
  if a < 8 then loseRsv s line (fun t => t / 64 == a)
  else { s with mem := { s.mem with coreRsv := s.mem.coreRsv.filter (fun r => r != (a - 8, line)) } }

/-- Whether a Span cache looks up its array (R294, R295). -/
def spanOn (s : State) (p : Nat) : Bool :=
  s.bit .SPAN_CACHE_CTL [p] SPAN_CACHE_CTL.EN && !s.bit .SPAN_CACHE_STAT [p] SPAN_CACHE_STAT.DIS_PENDING

/-- The victim-eviction buffer entry of a line. -/
def vebFind (s : State) (p line : Nat) : Option VebEnt := s.mem.vebs.find? (fun e => e.span == p && e.line == line)

/-- A buffer entry replaced or removed, and VEB_OCC. -/
def vebPut (s : State) (p line : Nat) (e : Option VebEnt) : State :=
  let l := s.mem.vebs.filterMap (fun x => if x.span = p ∧ x.line = line then e else some x)
  let s := { s with mem := { s.mem with vebs := l, vebStall := if e.isNone then sdel s.mem.vebStall p else s.mem.vebStall } }
  s.setFld .SPAN_CACHE_STAT [p] SPAN_CACHE_STAT.VEB_OCC (l.filter (fun x => x.span == p)).length

/-- A dirty line enters the buffer (R284). -/
def vebPush (s : State) (e : VebEnt) : State :=
  let l := s.mem.vebs ++ [e]
  let s := { s with mem := { s.mem with vebs := l } }
  s.setFld .SPAN_CACHE_STAT [e.span] SPAN_CACHE_STAT.VEB_OCC (l.filter (fun x => x.span == e.span)).length

/-- Entries of a Span's buffer. -/
def vebLen (s : State) (p : Nat) : Nat := (s.mem.vebs.filter (fun x => x.span == p)).length

/-- The unit of a caching agent (R438). -/
def agentUnit (a : Nat) : Nat := if a < 8 then unitSpan a 0x50 else if a < 72 then unitKst (a - 8) else unitKst 0x40

/-- A corrected or uncorrectable error of a core's L2 counts in its row of the retire table; the core is retired by the
management harts (R443). -/
def coreErr (s : State) (a row : Nat) : State :=
  if 8 ≤ a ∧ a < 72 then
    let (s, hit) := retireEvent s row (a - 8)
    if hit then
      if retireBySoftware s row then recordAt s (agentUnit a) 6 0x09 0 none
      else { s with ras := { s.ras with coreRetiring := sins s.ras.coreRetiring (a - 8) } }
    else s
  else s

/-- An agent's copy as its array gives it when it is read (R283, R448): a corrected word is written back and counted, an
uncorrectable one loses an E or S copy, and one of an M or O copy, or of a tag, causes a containment reset. -/
def hitLine (s : State) (a line : Nat) : State × Option CLine :=
  match agentLine s a line, mfind s.mem.cacheErr (lineKey a line) with
  | some c, some k =>
    let s1 := { s with mem := { s.mem with cacheErr := mdel s.mem.cacheErr (lineKey a line) } }
    if k = 1 then (coreErr (recordAt s1 (agentUnit a) 1 0x03 0 none) a 3, some c)
    else
      let s := coreErr s a 4
      if k = 2 ∧ c.st ≤ 2 then (dropCopy s a line, none)
      else (contTrigger s (agentUnit a) (if a < 8 then 4 else 5) 0x04 none none, some c)
  | c, _ => (s, c)

/-- A line with a free content: what the host's caches hold is outside the module. -/
def freeLine (s : State) : LineVal × State :=
  (⟨packBytes 1024 ((List.range 16).flatMap (fun i => leBytes 8 (Config.freeValue (s.freeCtr + i)).toNat)), 0, 0⟩,
   { s with freeCtr := s.freeCtr + 16 })

/-- What a snoop leaves and returns: the state kept (0 I, 1 S, 3 O, 5 E or M), forwarded data, whether it was
dirty, and whether a WB has already left (R259, R277). -/
structure SnpR where
  s : State
  after : Nat
  fwd : Option LineVal
  dirty : Bool
  wbSent : Bool

/-- The state after a snoop of a holder in state `st` (R259). -/
def snoopNext (k : MsgK) (st : Nat) : Nat :=
  match k with
  | .snps => if st = 4 ∨ st = 3 then 3 else if st = 2 ∨ st = 1 then 1 else 0
  | .snpo => st
  | _ => 0

/-- Whether a snoop makes a holder in state `st` give data (R259): forwarded, or returned under SnpX. -/
def snoopGives (k : MsgK) (st : Nat) : Bool :=
  match k with
  | .snps => decide (2 ≤ st)
  | .snpu => decide (2 ≤ st)
  | .snpo => decide (2 ≤ st)
  | .snpx => decide (3 ≤ st)
  | _ => false

/-- Code of the state kept. -/
def afterCode (st : Nat) : Nat := if st = 2 ∨ st = 4 then 5 else st

/-- A snoop of the host agent, whose copies are outside: what it answers is free within what its directory state
allows. -/
def snoopHost (s : State) (k : MsgK) (line : Nat) : SnpR :=
  let own := match mfind s.mem.dirs line with
    | some d => decide (2 ≤ d.st) && d.owner == 73
    | none => false
  let oo := match mfind s.mem.dirs line with
    | some d => d.st == 3
    | none => false
  if !own then ⟨s, if k = .snps then 1 else 0, none, false, false⟩
  else
    let (b, s) := s.freeBool
    let (v, s) := freeLine s
    let st := if oo then 3 else if b then 4 else 2
    ⟨s, afterCode (snoopNext k st), if snoopGives k st then some v else none, decide (3 ≤ st), false⟩

/-- A snoop at an agent (R259, R260, R285, R295). -/
def snoop (s : State) (k : MsgK) (a line : Nat) : SnpR :=
  if a = 73 then snoopHost s k line
  else if a < 8 ∧ s.bit .SPAN_CACHE_CTL [a] SPAN_CACHE_CTL.EN = false then ⟨s, 0, none, false, false⟩
  else match (if (agentLine s a line).any (fun c => snoopGives k c.st) then hitLine s a line else (s, agentLine s a line)) with
    | (s, some c) =>
      let n := snoopNext k c.st
      let s' := if n = 0 then dropCopy s a line else putLine s a line { c with st := n }
      ⟨s', afterCode n, if snoopGives k c.st then some c.v else none, decide (3 ≤ c.st), false⟩
    | (s, none) =>
      match (if a < 8 then vebFind s a line else none) with
      | none => ⟨s, 0, none, false, false⟩
      | some e =>
        let give := if snoopGives k e.st then some e.v else none
        if e.sent then ⟨vebPut s a line (some { e with snooped := true }), 0, give, true, true⟩
        else
          let n := snoopNext k e.st
          if n = 0 then ⟨vebPut s a line none, 0, give, true, false⟩
          else ⟨vebPut s a line (some { e with st := n }), afterCode n, give, true, false⟩

/-! Directories. -/

/-- HOME_DIR_STAT of a home. -/
def homeStat (h : Nat) : RegId × List Nat := if h = 12 then (.FAR_HOME_DIR_STAT, []) else (.HBM_HOME_DIR_STAT, [h])
/-- HOME_DIR_CNT of a home. -/
def homeCnt (h : Nat) : RegId × List Nat := if h = 12 then (.FAR_HOME_DIR_CNT, []) else (.HBM_HOME_DIR_CNT, [h])
/-- HOME_DIR_ERR of a home. -/
def homeErr (h : Nat) : RegId × List Nat := if h = 12 then (.FAR_HOME_DIR_ERR, []) else (.HBM_HOME_DIR_ERR, [h])

/-- A home without anything waiting. -/
def HomeX.zero : HomeX := ⟨[], [], [], false, false⟩

/-- The side state of a home. -/
def homeX (s : State) (h : Nat) : HomeX := mget HomeX.zero s.mem.homes h
/-- Its update. -/
def setHomeX (s : State) (h : Nat) (x : HomeX) : State :=
  { s with mem := { s.mem with homes := mset HomeX.zero s.mem.homes h x } }

/-- A new sharer. -/
def addSharer (v : BitVec 96) (a : Nat) : BitVec 96 := v ||| BitVec.ofNat 96 (2 ^ a)
/-- Sharers as a list without one agent. -/
def sharerList (v : BitVec 96) (but : Nat) : List Nat := (List.range 96).filter (fun i => v.getLsbD i && i != but)

/-- An entry written or removed: ENTRIES, the order of use and an armed injection (R269, R272). -/
def dirPut (s : State) (line : Nat) (d : Option DirEnt) : State :=
  let h := homeOf line
  let (r, ix) := homeStat h
  let had := (mfind s.mem.dirs line).isSome
  match d with
  | none =>
    let s := { s with mem := { s.mem with dirs := mdel s.mem.dirs line } }
    if had then s.setFld r ix HOME_DIR_STAT.ENTRIES (s.fld r ix HOME_DIR_STAT.ENTRIES - 1) else s
  | some e =>
    let x := homeX s h
    let e := { e with use := s.mem.dirUse, bad := if x.injUe then 2 else if x.injCe then 1 else 0 }
    let s := if x.injUe || x.injCe then setHomeX s h { x with injUe := false, injCe := false } else s
    let s := { s with mem := { s.mem with dirs := mins s.mem.dirs line e, dirUse := s.mem.dirUse + 1 } }
    if had then s else s.setFld r ix HOME_DIR_STAT.ENTRIES (s.fld r ix HOME_DIR_STAT.ENTRIES + 1)

/-- A read of a line's entry (R272): a single-bit error is corrected and counted; two bits cause a containment
reset. -/
def dirLook (s : State) (line : Nat) : State × Option DirEnt :=
  match mfind s.mem.dirs line with
  | none => (s, none)
  | some d =>
    let h := homeOf line
    let (r, ix) := homeErr h
    if d.bad = 1 then
      let s := s.satInc r ix HOME_DIR_ERR.CE_CNT 1
      let s := (s.setFld r ix HOME_DIR_ERR.CE 1).setFld r ix HOME_DIR_ERR.SET (dirIndex line)
      let s := recordAt s (homeUnit h) 1 0x03 0 none
      let d := { d with bad := 0 }
      ({ s with mem := { s.mem with dirs := mins s.mem.dirs line d } }, some d)
    else if d.bad = 2 then
      let s := (s.setFld r ix HOME_DIR_ERR.UE 1).setFld r ix HOME_DIR_ERR.SET (dirIndex line)
      (contTrigger s (homeUnit h) 3 0x04 none none, some d)
    else (s, some d)

/-- Whether the hold of a line runs (R265). -/
def heldLine (s : State) (line : Nat) : Bool :=
  match mfind s.mem.holds line with
  | some e => decide (s.clk.fc < e)
  | none => false

/-- An entry that must not be replaced (R270). -/
def pinned (s : State) (line : Nat) : Bool := (mfind s.mem.txns line).isSome || heldLine s line

/-- No transaction is open on a line. -/
def lineFree (s : State) (line : Nat) : Bool := (mfind s.mem.txns line).isNone

/-- No message of a line is under way but what a requester is told of its own request. -/
def lineQuiet (s : State) (line : Nat) : Bool :=
  !s.mem.net.any (fun m => m.line == line && m.k != .nack && m.k != .wback)

/-- The hold of a grant starts (R265); those that have ended are forgotten unless a request waits for them. -/
def startHold (s : State) (line : Nat) : State :=
  let live (e : Nat × Nat) : Bool := decide (s.clk.fc < e.2) ||
    s.mem.homes.any (fun h => h.2.starve.any (fun p => p.1 == e.1) || h.2.pend.any (fun p => p.1 == e.1))
  { s with mem := { s.mem with holds := mins (s.mem.holds.filter live) line (s.clk.fc + 32) } }

/-- Whether a request would make its home snoop the owner of the line (R265). -/
def snoopsOwner (s : State) (k : MsgK) (a line : Nat) : Bool :=
  match mfind s.mem.dirs line with
  | some d => decide (2 ≤ d.st) && d.owner != a && k != .rdo
  | none => false

/-- Whether a request may need a new directory entry. -/
def entersDir (k : MsgK) : Bool := k != .rdo && k != .wru

/-- The entries of a line's directory set (R269). -/
def dirSetOf (s : State) (line : Nat) : List (Nat × DirEnt) :=
  if s.mem.dirs.length < 8 then []
  else s.mem.dirs.filter (fun e => homeOf e.1 == homeOf line && dirIndex e.1 == dirIndex line)

/-- A line that a reservation of its Span needs: one of a granule of 128 bytes, or of a tile whose last seven attempts
failed (R247). -/
def rsvNeeds (s : State) (p line : Nat) : Bool :=
  s.tiles.any (fun q => q.1 / 64 == p && q.2.resv.contains line && (q.2.gran == 0 || decide (7 ≤ q.2.stcFails)))

/-- The victim of a full set: least recently used and not pinned; `none` in the outer option means that there is
room, or that the line has its entry, in the inner one that every way is pinned. -/
def dirVictim (s : State) (line : Nat) : Option (Option Nat) :=
  let l := dirSetOf s line
  if (mfind s.mem.dirs line).isSome || decide (l.length < 8) then none
  else
    let l := l.filter (fun e => !pinned s e.1)
    match (match l.filter (fun e => !(List.range 8).any (fun p => rsvNeeds s p e.1)) with
      | [] => l
      | r => r) with
    | [] => some none
    | h :: r => some (some (r.foldl (fun b e => if e.2.use < b.2.use then e else b) h).1)

/-- Why the home of a line does not accept a request now, as the reason of its NACK (R264, R265, R268, R270): 0 BUSY, 1
HOLD, 2 PINNED, 3 STARVE_WAIT. -/
def homeStops (s : State) (k : MsgK) (a line : Nat) : Option Nat :=
  let front := (homeX s (homeOf line)).starve.find? (fun p => p.1 == line)
  if front.isSome && front != some (line, a) && k != .rdo then some 3
  else if !lineFree s line then some 0
  else if heldLine s line && snoopsOwner s k a line then some 1
  else if entersDir k && dirVictim s line == some none then some 2
  else none

/-- A request of an agent that waits (R267). -/
def findReq (s : State) (a line : Nat) : Option AReq := s.mem.reqs.find? (fun r => r.agent == a && r.line == line)
/-- Its removal. -/
def dropReq (s : State) (a line : Nat) : State :=
  { s with mem := { s.mem with reqs := s.mem.reqs.filter (fun r => !(r.agent == a && r.line == line)) } }
/-- Its replacement. -/
def putReq (s : State) (r : AReq) : State :=
  let s := dropReq s r.agent r.line
  { s with mem := { s.mem with reqs := s.mem.reqs ++ [r] } }

/-- A request that its home accepts leaves the STARVE queue, the pending-grant slot and its agent's retries. -/
def leaveWaits (s : State) (a line : Nat) : State :=
  let h := homeOf line
  let x := homeX s h
  dropReq (setHomeX s h { x with starve := x.starve.filter (fun p => p != (line, a))
                                 pend := x.pend.filter (fun p => p != (line, a)) }) a line

/-- Whether an access that an agent performs whole is accepted now: its home would take the request, nothing of the line
is under way, and no request of the agent for it is. -/
def wholeGo (s : State) (k : MsgK) (a line : Nat) : Bool :=
  (homeStops s k a line).isNone && lineQuiet s line && !(findReq s a line).any (fun r => !r.waiting)

/-! Memory behind a home. -/

/-- The kind of a coherent request to the host (R273), by the mode of the port (R275). -/
def farKind (s : State) (k : Nat) : Nat := if s.bit .P0_CLC_STAT [] P0_CLC_STAT.CXL then k + 16 else k

/-- Data from memory: HBM, or what the host answers for a far line that the far home asks it for, with ownership where
the grant needs it (R273). -/
def memSupply (s : State) (line : Nat) (own : Bool) (ext : Ext) : State × LineVal :=
  if isFar line then (s.send (.hostRead (farAddr line) 128 (farKind s (if own then 2 else 0))), extLine ext (farAddr line))
  else hbmRead (touch s (frameOf s (line * 128))) line

/-- Ownership of a far line that the module holds shared, asked of the host (R273). -/
def farOwn (s : State) (line : Nat) : State :=
  if isFar line then s.send (.hostRead (farAddr line) 0 (farKind s 3)) else s

/-- A write behind a home. -/
def memWrite (s : State) (line : Nat) (v : LineVal) (mask : BitVec 128) : State :=
  if isFar line then
    { s.send (.hostWrite (farAddr line) v mask) with mem := { s.mem with farPend := s.mem.farPend ++ [(line, 0xFFFF)] } }
  else hbmWrite (touch s (frameOf s (line * 128))) line v mask

/-- A WB that a snoop found already sent arrives: the home writes it and the buffer entry is freed (R277). -/
def lateWb (s : State) (a line : Nat) : State :=
  match vebFind s a line with
  | some e => vebPut (memWrite s line e.v fullMask) a line none
  | none => s

/-- A snoop whose outstanding WB, if any, is taken at once. -/
def snoopDone (s : State) (k : MsgK) (a line : Nat) : SnpR :=
  let r := snoop s k a line
  if r.wbSent then { r with s := lateWb r.s a line } else r

/-- SnpI to a list of agents. -/
def invAll (s : State) (l : List Nat) (line : Nat) : State := l.foldl (fun s a => (snoopDone s .snpi a line).s) s

/-- Every copy of a line recalled to memory (R271, R276): SnpX to the owner, SnpI to sharers. -/
def recallLine (s : State) (line : Nat) : State :=
  match dirLook s line with
  | (s, none) => s
  | (s, some d) =>
    let s := if 2 ≤ d.st then
        let r := snoopDone s .snpx d.owner line
        match r.fwd with
        | some v => memWrite r.s line v fullMask
        | none => r.s
      else s
    dirPut (invAll s (sharerList d.sharers 96) line) line none

/-- Room for the entry of a line, if it has none: the victim back-invalidated (R271), or none when every way is pinned. -/
def dirRoom (s : State) (line : Nat) : Option State :=
  match dirVictim s line with
  | none => some s
  | some none => none
  | some (some v) =>
    let (r, ix) := homeCnt (homeOf line)
    if lineQuiet s v then some (recallLine (s.wrapInc r ix HOME_DIR_CNT.BACKINV_CNT 1) v) else none

/-! Requests served whole (R263). Each answers the state, the line and the granted agent state. -/

/-- An entry with one owner. -/
def dirOX (a : Nat) : Option DirEnt := some ⟨2, a, 0, 0, 0⟩
/-- A shared entry, or none without sharers. -/
def dirSH (v : BitVec 96) : Option DirEnt := if v = 0 then none else some ⟨1, 0, v, 0, 0⟩

/-- RdS. -/
def serveRds (s : State) (a line : Nat) (ext : Ext) : State × LineVal × Nat :=
  let (s, d) := dirLook (leaveWaits s a line) line
  let lone (s : State) : State × LineVal × Nat :=
    let (s, v) := memSupply s line true ext
    (startHold (dirPut s line (dirOX a)) line, v, 2)
  let shared (s : State) (sh : BitVec 96) : State × LineVal × Nat :=
    let (s, v) := memSupply s line false ext
    (dirPut s line (dirSH (addSharer sh a)), v, 1)
  match d with
  | none => lone s
  | some d =>
    if d.st = 1 then shared s d.sharers
    else if d.owner = a then (if d.sharers = 0 ∨ d.st = 2 then lone s else shared s d.sharers)
    else
      let r := snoopDone s .snps d.owner line
      let sh := if d.st = 3 then d.sharers else 0
      match r.fwd with
      | some v =>
        let e : Option DirEnt :=
          if r.after = 3 then some ⟨3, d.owner, addSharer sh a, 0, 0⟩
          else if r.after = 1 then dirSH (addSharer (addSharer sh a) d.owner)
          else dirSH (addSharer sh a)
        (dirPut r.s line e, v, 1)
      | none => if sh = 0 then lone r.s else shared r.s sh

/-- RdU. -/
def serveRdu (s : State) (a line : Nat) (ext : Ext) : State × LineVal × Nat :=
  let (s, d) := dirLook (leaveWaits s a line) line
  let lone (s : State) : State × LineVal × Nat :=
    let (s, v) := memSupply s line true ext
    (startHold (dirPut s line (dirOX a)) line, v, 2)
  match d with
  | none => lone s
  | some d =>
    let s := if d.st = 2 then s else invAll s (sharerList d.sharers a) line
    if d.st = 1 ∨ d.owner = a then lone s
    else
      let r := snoopDone s .snpu d.owner line
      match r.fwd with
      | some v => (startHold (dirPut r.s line (dirOX a)) line, v, if r.dirty then 4 else 2)
      | none => lone r.s

/-- Upg: `none` data when ownership is granted without data. -/
def serveUpg (s : State) (a line : Nat) (ext : Ext) : State × Option LineVal × Nat :=
  let asRdu (s : State) : State × Option LineVal × Nat := let (s, v, g) := serveRdu s a line ext; (s, some v, g)
  match dirLook (leaveWaits s a line) line with
  | (s, none) => asRdu s
  | (s, some d) =>
    if d.st = 1 ∧ d.sharers.getLsbD a then
      (startHold (dirPut (invAll (farOwn s line) (sharerList d.sharers a) line) line (dirOX a)) line, none, 4)
    else if d.st = 3 ∧ (d.owner = a ∨ d.sharers.getLsbD a) then
      let l := sharerList d.sharers a ++ (if d.owner = a then [] else [d.owner])
      (startHold (dirPut (invAll s l line) line (dirOX a)) line, none, 4)
    else asRdu s

/-- RdO. -/
def serveRdo (s : State) (line : Nat) (ext : Ext) : State × LineVal :=
  let (s, d) := dirLook s line
  match d with
  | none => memSupply s line false ext
  | some d =>
    if d.st = 1 then memSupply s line false ext
    else
      let r := snoopDone s .snpo d.owner line
      match r.fwd with
      | some v => (if r.wbSent then dirPut r.s line (dirSH d.sharers) else r.s, v)
      | none => memSupply (dirPut r.s line (dirSH d.sharers)) line false ext

/-- WrU under a byte mask. -/
def serveWru (s : State) (line : Nat) (v : LineVal) (mask : BitVec 128) : State :=
  let (s, d) := dirLook s line
  let s := lineWritten s line
  match d with
  | none => memWrite s line v mask
  | some d =>
    let s := if d.st = 2 then s else invAll s (sharerList d.sharers 96) line
    if d.st = 1 then dirPut (memWrite s line v mask) line none
    else if mask = fullMask then
      dirPut (memWrite (snoopDone s .snpi d.owner line).s line v mask) line none
    else
      let r := snoopDone s .snpx d.owner line
      match r.fwd with
      | some o => dirPut (memWrite (memWrite r.s line o fullMask) line v mask) line none
      | none => dirPut (memWrite r.s line v mask) line none

/-- WB: from the owner it is written; any other is stale and discarded. During a containment flush every WB is
written (R450). -/
def serveWb (s : State) (a line : Nat) (v : LineVal) : State :=
  match dirLook s line with
  | (s, some d) =>
    if 2 ≤ d.st ∧ d.owner = a then
      dirPut (memWrite s line v fullMask) line (if d.st = 3 then dirSH d.sharers else none)
    else s
  | (s, none) => s

/-- EvC. -/
def serveEvc (s : State) (a line : Nat) : State :=
  match dirLook s line with
  | (s, some d) => if d.st = 2 ∧ d.owner = a then dirPut s line none else s
  | (s, none) => s

/-! A cached write: bytes merged into a copy with its marks (R305, R306). -/

/-- Codewords of a line number as sectors 0 to 3. -/
def cwSects (c : Bool) : List (List Nat) := if c then [[0, 1], [2, 3]] else [[0], [1], [2], [3]]

/-- The class that governs the marks of a cached line; far data has none (R44), and its marks cover codewords of
64 bytes. -/
def markClass (s : State) (line : Nat) : Bool := isFar line || frameC s (frameOf s (line * 128))

/-- Bytes merged into a copy: whole codewords lose their marks, a merge keeps a poison mark, and a merge into a line that
keeps an error mark is consumption: the answer names the first sector of a marked codeword that is not wholly written. -/
def mergeVal (c : Bool) (o n : LineVal) (mask : BitVec 128) : LineVal × Option Nat :=
  let bytes (scts : List Nat) : List Nat := scts.flatMap (fun x => (List.range 32).map (fun i => x * 32 + i))
  let stay := (cwSects c).find? (fun scts =>
    scts.any (fun x => o.er.getLsbD x) && !(bytes scts).all (fun i => mask.getLsbD i))
  if mask ≠ 0 ∧ stay.isSome then (o, stay.map (fun scts => scts.headD 0))
  else (cwSects c).foldl (fun acc scts =>
    let o := acc.1
    let is := (scts.flatMap (fun x => (List.range 32).map (fun i => x * 32 + i))).filter (fun i => mask.getLsbD i)
    let bits := scts.foldl (fun m x => m ||| markBit x true) 0
    let sub := BitVec.ofNat 128 ((is.map (fun i => 2 ^ i)).sum)
    let pn := if n.pz &&& bits = 0 then 0 else bits
    if is.isEmpty then acc
    else if is.length = 32 * scts.length then
      (⟨mergeLine o.data n.data sub, (o.pz &&& ~~~bits) ||| pn, o.er &&& ~~~bits⟩, acc.2)
    else (⟨mergeLine o.data n.data sub, o.pz ||| pn, o.er⟩, acc.2)) (o, none)

/-! The Span cache as an agent (chapter 11). -/

/-- General or Skein ways of a Span cache (R281). -/
def waysOf (s : State) (p : Nat) (skein : Bool) : List Nat :=
  let n := s.fld .SPAN_CACHE_CTL [p] SPAN_CACHE_CTL.SKEIN_WAYS
  if skein then (List.range n).map (fun i => 16 - n + i) else List.range (16 - n)

/-- Lines of a Span cache in the set of a line, with their ways. -/
def setLines (s : State) (p line : Nat) : List (Nat × CLine) :=
  (s.mem.lines.filter (fun e => e.1 / 2 ^ 48 == p)).filter (fun e => cacheIndex (e.1 % 2 ^ 48) == cacheIndex line)

/-- An eviction from the array of a Span cache (R260, R284). -/
def evictLine (s : State) (p line : Nat) : State :=
  match hitLine s p line with
  | (s, none) => s
  | (s, some c) =>
    let s := dropCopy s p line
    if c.st = 1 then s
    else if c.st = 2 then serveEvc s p line
    else vebPush s ⟨p, line, c.st, c.v, false, false, false⟩

/-- A copy that may leave its agent: its own grant is complete (R263). -/
def canLeave (s : State) (line : Nat) (c : CLine) : Bool := c.comp && lineFree s line && lineQuiet s line

/-- The victim in one of the ways given, of those that may leave and, while there is another, that no reservation needs:
the choice of the pseudo-LRU, which the spec leaves open. -/
def spanVictim (s : State) (p line : Nat) (ws : List Nat) : Option (Nat × CLine × State) :=
  let l := (setLines s p line).filter (fun e => ws.contains e.2.way && canLeave s (e.1 % 2 ^ 48) e.2)
  let l := match l.filter (fun e => !rsvNeeds s p (e.1 % 2 ^ 48)) with
    | [] => l
    | r => r
  if l.isEmpty then none
  else
    let (n, s) := s.freeNat l.length
    l[n]?.map (fun e => (e.1 % 2 ^ 48, e.2, s))

/-- A line installed in a Span cache among the general ways: a free one, else the victim's. `none` when the eviction must
wait for the buffer (R286), or every line of the set is being changed. -/
def fillSpan (s : State) (p line : Nat) (st : Nat) (v : LineVal) : Option State :=
  let ws := waysOf s p false
  let inSet := setLines s p line
  match ws.filter (fun w => !inSet.any (fun e => e.2.way == w)) with
  | [] =>
    match spanVictim s p line ws with
    | none => none
    | some (l, c, s) =>
      if 3 ≤ c.st ∧ 512 ≤ vebLen s p then none
      else some (putLine (evictLine s p l) p line ⟨st, v, c.way, true⟩)
  | o =>
    let (n, s) := s.freeNat o.length
    some (putLine s p line ⟨st, v, o.getD n 0, true⟩)

/-- A WAIT entry recalled into the array (R285). -/
def vebRecall (s : State) (p line : Nat) (e : VebEnt) : Option State :=
  let s := (vebPut s p line none).wrapInc .SPAN_CACHE_PERF [p] SPAN_CACHE_PERF.VEB_RECALL_CNT 1
  fillSpan s p line e.st e.v

/-- A read of a line by a tile of Span p or its engine; `none` when the access must wait. -/
def spanRead (s : State) (p line : Nat) (alloc : Bool) (ext : Ext) : Option (State × LineVal) :=
  let miss (s : State) : Option (State × LineVal) :=
    if alloc && spanOn s p then
      if !wholeGo s .rds p line then none
      else match dirRoom s line with
        | none => none
        | some s => let (s, v, g) := serveRds s p line ext; (fillSpan s p line g v).map (fun s => (s, v))
    else if !wholeGo s .rdo p line then none
    else some (serveRdo (leaveWaits s p line) line ext)
  if spanOn s p then
    match hitLine s p line with
    | (s, some c) => some (s, c.v)
    | (s, none) =>
      match vebFind s p line with
      | none => miss s
      | some e =>
        if !e.sent then (vebRecall s p line e).map (fun s => (s, e.v))
        else if e.snooped then none else some (s, e.v)
  else miss s

/-- The merge of a write into a copy that is owned; consumption suppresses it (R306). -/
def writeCopy (s : State) (a line : Nat) (c : CLine) (v : LineVal) (mask : BitVec 128) : State :=
  let s := lineWritten s line
  match mergeVal (markClass s line) c.v v mask with
  | (_, some x) => if isFar line then s else consume s (line * 4 + x)
  | (m, none) => putLine s a line { c with st := 4, v := m }

/-- An agent may write its copy: it is E or M and the home has completed the grant (R259, R263). -/
def writable (c : CLine) : Bool := (c.st == 2 || c.st == 4) && c.comp

/-- Ownership of a line of which an agent holds a copy: at once, or by Upg; `none` when it must wait. -/
def ownCopy (s : State) (a line : Nat) (c : CLine) (ext : Ext) : Option (State × CLine) :=
  if writable c then some (s, c)
  else if c.st = 2 ∨ c.st = 4 ∨ !wholeGo s .upg a line then none
  else
    let (s, o, g) := serveUpg s a line ext
    some (s, ⟨g, o.getD c.v, c.way, true⟩)

/-- A write of a line by a tile of Span p or an engine; `none` when the access must wait. -/
def spanWrite (s : State) (p line : Nat) (v : LineVal) (mask : BitVec 128) (alloc : Bool) (ext : Ext) :
    Option State :=
  let own (s : State) (c : CLine) : Option State :=
    (ownCopy s p line c ext).map (fun q => writeCopy q.1 p line q.2 v mask)
  let miss (s : State) : Option State :=
    if alloc && spanOn s p then
      if !wholeGo s .rdu p line then none
      else match dirRoom s line with
        | none => none
        | some s =>
          let (s, o, g) := serveRdu s p line ext
          match fillSpan s p line g o with
          | none => none
          | some s => (agentLine s p line).map (fun c => writeCopy s p line c v mask)
    else if !wholeGo s .wru p line then none
    else some (serveWru (leaveWaits s p line) line v mask)
  if spanOn s p then
    match hitLine s p line with
    | (s, some c) => own s c
    | (s, none) =>
      match vebFind s p line with
      | none => miss s
      | some e =>
        if e.sent then none
        else match vebRecall s p line e with
          | none => none
          | some s => match agentLine s p line with
            | some c => own s c
            | none => none
  else miss s

/-! Core L2s, the system cache and the Pier I/O agents. -/

/-- Lines that an agent other than a Span cache holds: 2 MiB in a core's L2, 96 MiB in the system cache (R17), 64 lines
in a Pier I/O agent (R258). -/
def agentCap (a : Nat) : Nat := if a < 72 then 16384 else if a = 72 then 786432 else 64

/-- The lines of an agent. -/
def agentLines (s : State) (a : Nat) : List (Nat × CLine) :=
  (s.mem.lines.filter (fun e => e.1 / 2 ^ 48 == a)).map (fun e => (e.1 % 2 ^ 48, e.2))

/-- A line leaves an agent that has no victim buffer (R260): a dirty one is written back at its home. -/
def evictAgent (s : State) (a line : Nat) : State :=
  match hitLine s a line with
  | (s, none) => s
  | (s, some c) =>
    let s := dropCopy s a line
    if c.st = 1 then s else if c.st = 2 then serveEvc s a line else serveWb s a line c.v

/-- A line installed in an agent other than a Span cache; a full one evicts first, which line the spec leaves open, but
for a Pier I/O agent, whose 65th line waits (R258). -/
def fillAgent (s : State) (a line st : Nat) (v : LineVal) : Option State :=
  let put (s : State) : State := putLine s a line ⟨st, v, 0, true⟩
  if s.mem.lines.length < agentCap a ∨ (agentLine s a line).isSome ∨ (agentLines s a).length < agentCap a then some (put s)
  else if 74 ≤ a then none
  else
    let l := (agentLines s a).filter (fun e => canLeave s e.1 e.2)
    if l.isEmpty then none
    else
      let (n, s) := s.freeNat l.length
      l[n]?.map (fun e => put (evictAgent s a e.1))

/-- A read by a core's L2 (agent 8 + c). -/
def coreRead (s : State) (a line : Nat) (ext : Ext) : Option (State × LineVal) :=
  match hitLine s a line with
  | (s, some c) => some (s, c.v)
  | (s, none) =>
    if !wholeGo s .rds a line then none
    else match dirRoom s line with
      | none => none
      | some s => let (s, v, g) := serveRds s a line ext; (fillAgent s a line g v).map (fun s => (s, v))

/-- A write by a core's L2. -/
def coreWrite (s : State) (a line : Nat) (v : LineVal) (mask : BitVec 128) (ext : Ext) : Option State :=
  match hitLine s a line with
  | (s, some c) => (ownCopy s a line c ext).map (fun q => writeCopy q.1 a line q.2 v mask)
  | (s, none) =>
    if !wholeGo s .rdu a line then none
    else match dirRoom s line with
      | none => none
      | some s =>
        let (s, o, g) := serveRdu s a line ext
        (fillAgent s a line g o).map (fun s => writeCopy s a line ⟨g, o, 0, true⟩ v mask)

/-- The current data of a line as any coherent reader would see it, without effect: the owner's copy, else
memory. -/
def peekLine (s : State) (line : Nat) : LineVal :=
  let memv : LineVal :=
    ⟨packBytes 1024 ((List.range 128).map (fun i => hbmByte s (line * 128 + i))),
     (List.range 4).foldl (fun m i => m ||| markBit i (s.mem.pz.contains (line * 4 + i))) 0, 0⟩
  match mfind s.mem.dirs line with
  | some d =>
    if 2 ≤ d.st then
      match agentLine s d.owner line with
      | some c => c.v
      | none => match vebFind s d.owner line with
        | some e => e.v
        | none => memv
    else memv
  | none => memv

end Sys2Proof.Machine
end

