-- ==== Sys2Proof/Machine/Access.lean ====
section
/-!
DEFINITION. Machine/Access.lean: the address space (chapter 02): pointers (R37, R38), the Placement Table entry of
a page (R52, R320), the decode and permission checks of every requester (R32 to R62, R510), routes to peers (R403,
R404), and reads and writes of one piece of a line at its target.
-/

namespace Sys2Proof.Machine

/-- Who makes an access (R62). `eng` is a unit (R436) that works for a context: a Lattice or Trestle engine, a mailbox
service, the program load of a tile; `fw` the management harts and the placement engine (R509). -/
inductive Rq
  | tile (t : Nat)
  | eng (ctx unit : Nat)
  | core (c : Nat)
  | host
  | pcie (p : Nat)
  | peer
  | fw
deriving DecidableEq, Repr

/-- The REQ code of a log entry (R436, R438): the physical tile, the unit. -/
def Rq.code (s : State) : Rq → Nat
  | .tile t => unitOfTile s t
  | .eng _ u => u
  | .core c => unitKst c
  | .host => 0xFFFE
  | .pcie _ => 0xFFFD
  | .peer => 0xFFFC
  | .fw => unitKst 0x44

/-- Where an access goes: a coherent line with its region type (0 Normal, 1 Stream, 2 Strict, R42, R45), a
tile's memory, or a register. -/
inductive Tgt
  | line (l : Nat) (ty : Nat)
  | win (t off : Nat)
  | reg (a : Nat)
deriving DecidableEq, Repr

/-- The outcome of decoding (R62). -/
inductive DecR
  | ok (t : Tgt) (act : Nat)
  | undec
  | denied
  | held
deriving DecidableEq, Repr

/-- The Placement Table entry of a page as memory holds it (R319). -/
def ptEntry (s : State) (page : Nat) : BitVec 64 :=
  let x := s.fld .PLC_PT_BASE [] PLC_PT_BASE.BASE * 2097152 - 0x20000000000 + page * 8
  match rawResolve s x with
  | some p => ((peekLine s (p / 128)).data.extractLsb' (p % 128 * 8) 64)
  | none => 0

/-- The entry a translation uses (R55): until its invalidation an old entry may still be used, which is a free
choice. -/
def pageEntry (s : State) (page : Nat) : BitVec 64 × State :=
  match mfind s.mem.stale page with
  | none => (ptEntry s page, s)
  | some old =>
    let (b, s) := s.freeBool
    (if b then old else ptEntry s page, s)

/-- Fields of an entry (R52, R320). -/
def peValid (e : BitVec 64) : Bool := e.getLsbD 0
/-- RTYPE. -/
def peRtype (e : BitVec 64) : Nat := (e.extractLsb' 1 2).toNat
/-- PCLASS. -/
def peClass (e : BitVec 64) : Bool := e.getLsbD 3
/-- WRITE. -/
def peWrite (e : BitVec 64) : Bool := e.getLsbD 4
/-- SHARED. -/
def peShared (e : BitVec 64) : Bool := e.getLsbD 5
/-- EXT. -/
def peExt (e : BitVec 64) : Bool := e.getLsbD 6
/-- NO_MIGRATE. -/
def peNoMig (e : BitVec 64) : Bool := e.getLsbD 7
/-- CTX_ID. -/
def peCtx (e : BitVec 64) : Nat := (e.extractLsb' 8 8).toNat
/-- LOC. -/
def peLoc (e : BitVec 64) : Bool := e.getLsbD 16
/-- MOVING. -/
def peMoving (e : BitVec 64) : Bool := e.getLsbD 17
/-- AGE. -/
def peAge (e : BitVec 64) : Nat := (e.extractLsb' 20 8).toNat
/-- FRAME. -/
def peFrame (e : BitVec 64) : Nat := (e.extractLsb' 32 31).toNat

/-! Marks without data (R509). -/

/-- Indexes of the entries of `sz` bytes of a table of `n` bytes at a raw offset that are not as initialised: those
with a listed byte or in a cached line. Every other entry is invalid. -/
def tblListed (s : State) (base n sz : Nat) : List Nat :=
  let offs := (s.mem.hbm.filterMap (fun e => physRaw s e.1)) ++
    (s.mem.lines.flatMap (fun e =>
      match physRaw s (e.1 % 2 ^ 48 * 128) with
      | some x => (List.range (128 / sz)).map (fun i => x + i * sz)
      | none => [])) ++
    (s.mem.vebs.flatMap (fun e =>
      match physRaw s (e.line * 128) with
      | some x => (List.range (128 / sz)).map (fun i => x + i * sz)
      | none => []))
  (offs.filter (fun x => decide (base ≤ x) && decide (x < base + n))).foldl (fun l x => sins l ((x - base) / sz)) []

/-- Raw offset of the Placement Table. -/
def ptBase (s : State) : Nat := s.fld .PLC_PT_BASE [] PLC_PT_BASE.BASE * 2097152 - 0x20000000000
/-- Whether a page's entry names the frame or far page of a line. -/
def namesLine (s : State) (l : Nat) (e : BitVec 64) : Bool :=
  if isFar l then peLoc e && peFrame e == farAddr l / 2097152
  else !peLoc e && (match physRaw s (l * 128) with
    | some x => x / 2097152 == peFrame e
    | none => false)

/-- Whether a poison mark without data may be written over a line (R509): not where every entry that names its frame has
VALID = 0 or RTYPE 0b11. Entries that are wholly zero name nothing. -/
def markOk (s : State) (l : Nat) : Bool :=
  let es := ((tblListed s (ptBase s) 8388608 8).map (ptEntry s)).filter (fun e => e != 0 && namesLine s l e)
  es.isEmpty || es.any (fun e => peValid e && peRtype e != 3)

/-- A refused mark, dropped and logged. -/
def markDrop (s : State) (unit l : Nat) : State :=
  logDiscard s (if isFar l then 0x30000000000 + farAddr l
    else 0x20000000000 + (physRaw s (l * 128)).getD 0) unit

/-- The mark over a line of HBM. -/
def markLine (s : State) (unit l : Nat) : State :=
  if markOk s l then (List.range 4).foldl (fun s i => poisonSector s (l * 4 + i)) s else markDrop s unit l

/-- The context of a tile's dispatch (R132). -/
def tileCtx (s : State) (t : Nat) : Nat := s.fld .TILE_STAT (tix t) TILE_STAT.CTX_ID

/-- The context checked against CTX_ID, for tiles and move engines (R53). -/
def Rq.ctx (s : State) (q : Rq) : Option Nat :=
  match q with
  | .tile t => some (tileCtx s t)
  | .eng c _ => some c
  | _ => none

/-- Requesters checked against EXT (R53). -/
def Rq.ext (q : Rq) : Bool :=
  match q with
  | .pcie _ => true
  | .peer => true
  | _ => false

/-- Permission of an access to a page (R53, R509). -/
def pageOk (s : State) (q : Rq) (e : BitVec 64) (wr : Bool) : Bool :=
  peValid e && peRtype e != 3 &&
  (match q.ctx s with
   | some c => peShared e || peCtx e == c
   | none => true) &&
  (!q.ext || peExt e) &&
  (!wr || peWrite e || q == .fw)

/-- A byte of the unified range (R45, R46, R320). A page that was moving from the host when this was lost takes its
accesses as a valid far one, which fails them with HOST_LOST (R44, log 154). An access of firmware to a moving page goes
to the old location, and the copy carries it (R46, log 155). -/
def decPage (s : State) (q : Rq) (e0 : BitVec 64) (a : Nat) (wr : Bool) : DecR :=
  let e := if s.plc.lost.contains (a / 2097152) && peLoc e0 then e0 ||| 1 else e0
  if peValid e && peMoving e && q != .fw then
    (if s.plc.expired.contains (a / 2097152) then .undec else .held)
  else if !pageOk s q e wr then .denied
  else if peLoc e then
    .ok (.line (2 ^ 47 + (peFrame e * 2097152 + a % 2097152) / 128) (peRtype e)) (1048576 + a / 2097152)
  else if 2 ^ 19 ≤ peFrame e then .undec
  else
    match rawResolve s (peFrame e * 2097152 + a % 2097152) with
    | some p => .ok (.line (p / 128) (peRtype e)) (peFrame e)
    | none => .undec

/-- Whether a logical tile has been lost (R35, R123). -/
def tileLost (s : State) (t : Nat) : Bool := (s.rd .SPAN_TILE_LOST [t / 64] >>> (t % 64)) % 2 == 1

/-- Where a local address leads for a requester (R32 to R36, R40, R53, R57, R58, R60). -/
def decPlain (s : State) (q : Rq) (a : Nat) (wr : Bool) : DecR × State :=
  if a < 0x20000000000 then
    let (e, s) := pageEntry s (a / 2097152)
    (decPage s q e a wr, s)
  else if a < 0x30000000000 then
    (match q with
     | .peer => .denied
     | _ =>
       if (match q with | .pcie _ => true | _ => false) && !s.bit .RAW_HBM_ATTR [] RAW_HBM_ATTR.BAR_EN then .denied
       else match rawResolve s (a - 0x20000000000) with
         | some p => .ok (.line (p / 128) (s.fld .RAW_HBM_ATTR [] RAW_HBM_ATTR.RTYPE)) ((a - 0x20000000000) / 2097152)
         | none => .undec, s)
  else
    (match q with
     | .peer =>
       if 0x3C000000000 ≤ a ∧ a < 0x3C040000000 then
         (if (a - 0x3C000000000) % 2097152 < 1048576 ∧ !tileLost s ((a - 0x3C000000000) / 2097152) then
           .ok (.win ((a - 0x3C000000000) / 2097152) (a % 1048576)) 0 else .undec)
       else .denied
     | .pcie _ => .undec
     | _ =>
       if a < 0x38000000000 then
         (if q = .host then .denied
          else if !s.bit .RAW_HOST_CFG [] RAW_HOST_CFG.EN then .undec
          else .ok (.line (2 ^ 47 + (s.fld .RAW_HOST_CFG [] RAW_HOST_CFG.BASE * 2 ^ 30 + (a - 0x30000000000)) / 128)
            0) 0)
       else if a < 0x3C000000000 then .undec
       else if a < 0x3C040000000 then
         (if (a - 0x3C000000000) % 2097152 < 1048576 ∧ !tileLost s ((a - 0x3C000000000) / 2097152) then
           .ok (.win ((a - 0x3C000000000) / 2097152) (a % 1048576)) 0 else .undec)
       else if a < 0x3F000000000 then .undec
       else if a < 0x3FE00000000 then .ok (.reg a) 0
       else .undec, s)

/-- Decode of a local address for a requester: a line of HBM is not reached while HBM is out of service (R312). -/
def decLocal (s : State) (q : Rq) (a : Nat) (wr : Bool) : DecR × State :=
  match decPlain s q a wr with
  | (.ok (.line l ty) act, s) => (if !isFar l && hbmOff s then .held else .ok (.line l ty) act, s)
  | r => r

/-! Pointers. -/

/-- A pointer's meaning (R37, R38, R41). -/
inductive PtrR
  | local_ (a : Nat)
  | peer (m a : Nat)
  | bad
  | denied
deriving DecidableEq, Repr

/-- Decode of a pointer. -/
def decPtr (s : State) (p : BitVec 64) : PtrR :=
  let a := (p.extractLsb' 0 42).toNat
  let m := (p.extractLsb' 42 15).toNat
  if (p.extractLsb' 58 6) ≠ 0 then .bad
  else if p.getLsbD 57 then
    if m = actId s then .local_ a
    else if s.bit .KST_MOD_ID [] KST_MOD_ID.ACT_VALID then .peer m a else .denied
  else if m = 0 then .local_ a else .bad

/-- Pointer arithmetic on LOCAL only (R180): none on a carry out of bit 41. -/
def ptrAdd (p : BitVec 64) (n : Nat) : Option (BitVec 64) :=
  if (p.extractLsb' 0 42).toNat + n < 2 ^ 42 then some (p + BitVec.ofNat 64 n) else none

/-- Claden-X links of the assembly: global link 6 * pier + i. -/
def clxLinks (s : State) : List Nat := List.range (6 * s.asm.piers)

/-- Whether a link is eligible for a module (R403): ACTIVE or QUICK_RETRAIN. -/
def linkFor (s : State) (m l : Nat) : Bool :=
  let ix := [l / 6, l % 6]
  (s.fld .CLX_RT [m] CLX_RT.LINK_MASK >>> l) % 2 == 1 &&
  (s.fld .CLX_LINK_STAT ix CLX_LINK_STAT.STATE == 6 || s.fld .CLX_LINK_STAT ix CLX_LINK_STAT.STATE == 7)
  && s.fld .CLX_LINK_STAT ix CLX_LINK_STAT.PEER_MOD == m && s.bit .CLX_LINK_STAT ix CLX_LINK_STAT.PEER_VALID

/-- The route of a peer access (R250, R404): a status (0 = it goes, 0x0E undecoded, 0x03 UNREACHABLE). -/
def peerRoute (s : State) (m : Nat) : Nat × State :=
  if !s.bit .CLX_RT [m] CLX_RT.VALID ∨ s.fld .CLX_RT [m] CLX_RT.LINK_MASK = 0 then (0x0E, s)
  else if peerLost s m then (0x03, s)
  else if (clxLinks s).any (linkFor s m) then (0, s)
  else (0x03, markLost s m)

/-- Whether host memory can be reached: the Claden-C link is up and the module is not Parked (R370, R373). -/
def hostUp (s : State) : Bool := s.bit .P0_CLC_STAT [] P0_CLC_STAT.LINK_UP

/-- The host has been lost and not taken up again: engines start nothing (R371, R373). -/
def hostGone (s : State) : Bool := s.bit .KST_PARK [] KST_PARK.PARKED || s.bit .KST_PARK [] KST_PARK.DRAINING

/-! Pieces. -/

/-- The pieces of a byte range by 128-byte lines: address and length (R510: page and range limits are line
limits). -/
def pieces (a n : Nat) : List (Nat × Nat) :=
  if n = 0 then []
  else (List.range ((a + n - 1) / 128 - a / 128 + 1)).map (fun i =>
    let lo := if i = 0 then a else (a / 128 + i) * 128
    let hi := min (a + n) ((a / 128 + i + 1) * 128)
    (lo, hi - lo))

/-- A byte mask. -/
def rangeMask (off n : Nat) : BitVec 128 := BitVec.ofNat 128 ((2 ^ n - 1) * 2 ^ off)

/-- Bytes placed at an offset of a line. -/
def placeBytes (off : Nat) (bs : List (BitVec 8)) : BitVec 1024 := packBytes 1024 (List.replicate off 0 ++ bs)

/-- Bytes of a line. -/
def takeBytes (d : BitVec 1024) (off n : Nat) : List (BitVec 8) := (List.range n).map (fun i => lineByte d (off + i))

/-- What a read of a piece gives: bytes, whether they are marked poisoned, and a status (0 OK). -/
structure RdR where
  s : State
  bytes : List (BitVec 8)
  poison : Bool
  stat : Nat

/-- Sectors of a piece. -/
def pieceSects (off n : Nat) : BitVec 4 :=
  (List.range 4).foldl (fun m i => m ||| markBit i (decide (off < 32 * i + 32) && decide (32 * i < off + n))) 0

/-- How a requester reaches a coherent line: Span p, core agent a, or without allocating. -/
inductive Via
  | span (p : Nat)
  | agent (a : Nat)
  | none_
deriving DecidableEq, Repr

/-- No caching agent: a reserved agent ID (R255). -/
def noAgent : Nat := 95

/-- A read of a line piece through an agent: Strict data is never cached, and a copy left from before may answer
it (R42, R56). `none` = the access must wait. -/
def readLineVia (s : State) (via : Via) (l ty : Nat) (noAlloc : Bool) (ext : Ext) : Option (State × LineVal) :=
  if ty = 2 then
    if (mfind s.mem.dirs l).isSome then
      let (b, s) := s.freeBool
      if b then some (s, peekLine s l) else some (memSupply s l false ext)
    else some (memSupply s l false ext)
  else match via with
    | .span p => spanRead s p l (ty == 0 && !noAlloc) ext
    | .agent a => if !noAlloc then coreRead s a l ext else if wholeGo s .rdo a l then some (serveRdo s l ext) else none
    | .none_ => if wholeGo s .rdo noAgent l then some (serveRdo s l ext) else none

/-- A write of a line through an agent. -/
def writeLineVia (s : State) (via : Via) (l ty : Nat) (noAlloc : Bool) (v : LineVal) (mask : BitVec 128) (ext : Ext) :
    Option State :=
  if ty = 2 then some (memWrite (lineWritten s l) l v mask)
  else match via with
    | .span p => spanWrite s p l v mask (ty == 0 && !noAlloc) ext
    | .agent a =>
      if !noAlloc then coreWrite s a l v mask ext
      else if wholeGo s .wru a l then some (serveWru (leaveWaits s a l) l v mask) else none
    | .none_ => if wholeGo s .wru noAgent l then some (serveWru s l v mask) else none

/-- Poison bits of tile memory (R508): whether a line of a tile is marked. -/
def Tile.marked (x : Tile) (off n : Nat) : Bool :=
  x.poison.any (fun l => decide (off / 128 ≤ l) && decide (l ≤ (off + n - 1) / 128))

/-- Bytes written into tile memory (R508): a whole unpoisoned line clears its bit, a poisoned write sets it. -/
def Tile.memWrite (x : Tile) (off : Nat) (bs : List (BitVec 8)) (poison : Bool) : Tile :=
  let ps := (pieces off bs.length).foldl (fun p q =>
    if poison then sins p (q.1 / 128) else if q.2 = 128 then sdel p (q.1 / 128) else p) x.poison
  let bad := (pieces off bs.length).foldl (fun p q => if q.2 = 128 then sdel p (q.1 / 128) else p) x.badMem
  { x with mem := mbytes x.mem off bs, poison := ps, badMem := bad }

/-- Lines that written drains have left and whose verdicts are awaited, or which a retry writes again (R119, R120): reads
of them are held. -/
def unverified (x : Tile) : List (Nat × Nat) :=
  (x.uses.filter (fun u => x.drains.any (fun d => (d.st == 3 || d.again) && d.tag == u.tag))).flatMap (·.wrR)

/-- A read of one piece at its decoded target; registers are read by the caller. Far data that the host does not answer
fails with UNREACHABLE at its timeout, else with HOST_LOST (R248). `none` = wait. -/
def readPiece (s : State) (via : Via) (t : Tgt) (act a n : Nat) (noAlloc : Bool) (ext : Ext) : Option RdR :=
  match t with
  | .line l ty =>
    if isFar l && !hostUp s && (agentLine s (match via with | .span p => p | .agent g => g | .none_ => 95) l).isNone
    then some ⟨s, [], false, 0x0A⟩
    else if isFar l && ext.status ≠ 0 then some ⟨s, [], false, if ext.status = 0x03 then 0x03 else 0x0A⟩
    else match readLineVia (touch s act) via l ty noAlloc ext with
      | none => none
      | some (s, v) =>
        let m := pieceSects (a % 128) n
        if v.er &&& m ≠ 0 ∧ ¬ isFar l then
          let i := ((List.range 4).find? (fun i => (v.er &&& m).getLsbD i)).getD 0
          some ⟨consume s (l * 4 + i), [], false, 0x08⟩
        else some ⟨s, takeBytes v.data (a % 128) n, v.pz &&& m != 0, 0⟩
  | .win t off =>
    let x := s.tile t
    if (unverified x).any (fun r => decide (r.1 ≤ (off + n - 1) / 128) && decide (off / 128 ≤ r.2)) then none
    else some ⟨s, mread x.mem off n, x.marked off n, 0⟩
  | .reg _ => some ⟨s, List.replicate n 0, false, 0⟩

/-- Pages whose Placement Table entries lie in a line (R319). -/
def ptPagesOf (s : State) (l : Nat) : List Nat :=
  let base := s.fld .PLC_PT_BASE [] PLC_PT_BASE.BASE * 2097152 - 0x20000000000
  match (if isFar l then none else physRaw s (l * 128)) with
  | some x => if base ≤ x ∧ x < base + 8388608 then (List.range 16).map (fun i => (x - base) / 8 + i) else []
  | none => []

/-- A write that changes entries leaves their old translations usable until ATTR_INVAL (R55). -/
def noteStale (s0 s1 : State) (l : Nat) : State :=
  { s1 with mem := { s1.mem with stale := (ptPagesOf s0 l).foldl (fun m p =>
      if ptEntry s0 p = ptEntry s1 p ∨ (mfind m p).isSome then m else mins m p (ptEntry s0 p)) s1.mem.stale } }

/-- A recorded line of an unresolved OPTIMISTIC epoch (R217): a line number doubled, or a tile-memory line doubled
plus one. -/
def gateRecorded (s : State) (key : Nat) : Bool := s.gate.eps.any (fun e => e.recs.any (fun r => r.2 == key))

/-- The keys of the lines of a tile's memory that a range touches. -/
def winKeys (t off n : Nat) : List Nat :=
  if n = 0 then [] else (List.range ((off + n - 1) / 128 - off / 128 + 1)).map (fun i => (t * 8192 + off / 128 + i) * 2 + 1)

/-- A write of one piece at its decoded target, epochs apart; registers are written by the caller. -/
def writePieceRaw (s : State) (via : Via) (t : Tgt) (act a : Nat) (bs : List (BitVec 8)) (poison noAlloc : Bool)
    (ext : Ext) : Option (State × Nat) :=
  match t with
  | .line l ty =>
    if isFar l && !hostUp s then some (s.satInc .P0_CLC_ERR [] P0_CLC_ERR.DROP_CNT 1, 0x0A)
    else
      let v : LineVal := ⟨placeBytes (a % 128) bs, if poison then pieceSects (a % 128) bs.length else 0, 0⟩
      match writeLineVia (touch s act) via l ty noAlloc v (rangeMask (a % 128) bs.length) ext with
      | none => none
      | some s' => some (noteStale s s' l, 0)
  | .win t off => some (s.setTile t ((s.tile t).memWrite off bs poison), 0)
  | .reg _ => some (s, 0)

/-- The keys of the lines that an access of `n` bytes at a target touches (R217). -/
def tgtKeys (t : Tgt) (n : Nat) : List Nat :=
  match t with
  | .line l _ => [l * 2]
  | .win t off => winKeys t off n
  | .reg _ => []

/-- A write of one piece by an agent other than an epoch's sender: it waits while a line it touches is recorded
(R217). -/
def writePiece (s : State) (via : Via) (t : Tgt) (act a : Nat) (bs : List (BitVec 8)) (poison noAlloc : Bool)
    (ext : Ext) : Option (State × Nat) :=
  if (tgtKeys t bs.length).any (gateRecorded s) then none else writePieceRaw s via t act a bs poison noAlloc ext

/-- A failed access logged (R62). -/
def logFail (s : State) (q : Rq) (a : Nat) : State := logDiscard s a (q.code s)

/-- A failed access of a core, logged, with its access fault (R39, R62). -/
def coreFail (s : State) (c a : Nat) : State := (logFail s (.core c) a).send (.coreFault c a)

/-- The requester code of the host in an answer. -/
def hostWho : Nat := 0
/-- The status of an answer to an undecoded access, apart from PERMISSION. -/
def undecStat : Nat := 0x1E

/-- An answer to the host. -/
def hostAnswer (s : State) (st : Nat) (bs : List (BitVec 8)) : State := s.send (.resp hostWho st bs)

/-- A failed request of the host, logged. -/
def hostFail (s : State) (a st : Nat) : State := hostAnswer (logFail s .host a) st []

/-- FIRST_STATUS takes the first status other than OK (R182). -/
def foldFirst (s : State) (t st : Nat) : State :=
  if st = 0 ∨ s.fld .TILE_MOVE_STAT (tix t) TILE_MOVE_STAT.FIRST_STATUS ≠ 0 then s
  else s.setFld .TILE_MOVE_STAT (tix t) TILE_MOVE_STAT.FIRST_STATUS st

/-- Writes of a line to the host that a step has added take their requester (R249). -/
def noteFar (s0 s1 : State) (l req : Nat) : State :=
  { s1 with mem := { s1.mem with farPend := s1.mem.farPend.take s0.mem.farPend.length ++
      (s1.mem.farPend.drop s0.mem.farPend.length).map (fun w => if w.1 = l then (l, req) else w) } }

/-- A Strict access outside the register region is naturally aligned (R43). R43 names sizes of 1, 2, 4 and 8 bytes: one of
any other size by the host, a third device or a peer fails as undecoded (DESIGN CHOICE, log 151). -/
def strictOk (t : Tgt) (a n : Nat) : Bool :=
  match t with
  | .line _ 2 => (n == 1 || n == 2 || n == 4 || n == 8) && a % n == 0
  | _ => true

end Sys2Proof.Machine
end

