-- ==== Sys2Proof/Machine/Links.lean ====
section
/-!
DEFINITION. Machine/Links.lean: the links (chapter 16): Claden-D training, probation, forced widths and failure (R391 to
R397), Claden-X training, retrains and lane retirement (R398 to R402, R408), routes and lost marks (R403 to R407).
-/

namespace Sys2Proof.Machine

/-! Claden-D ports. A die is 0 to 7 for a Span, 8 for the Keystone and 9 + p for Pier p. -/

/-- First and second Span of a Pier (R391). -/
def pierSpan (p : Nat) (second : Bool) : Nat :=
  match p, second with
  | 0, false => 0
  | 1, false => 3
  | 2, false => 1
  | _, false => 2
  | 0, true => 4
  | 1, true => 7
  | 2, true => 5
  | _, true => 6

/-- The port at the other end of a port (R391), none where the port does not exist. -/
def cldPeer (a : Assembly) (die port : Nat) : Option (Nat × Nat) :=
  if die < 8 then
    if port < 8 then (if die % 4 = 0 then none else some (die - 1, port + 8))
    else if port < 16 then (if die % 4 = 3 then none else some (die + 1, port - 8))
    else if port < 24 then some ((die + 4) % 8, port)
    else if port < 26 then some (8, 2 * die + (port - 24))
    else if port < 30 then
      (List.range a.piers).findSome? (fun p =>
        if pierSpan p false = die then some (9 + p, port - 26)
        else if pierSpan p true = die then some (9 + p, port - 22) else none)
    else none
  else if die = 8 then
    if port < 16 then some (port / 2, 24 + port % 2)
    else if port < 16 + 2 * a.piers then some (9 + (port - 16) / 2, 8 + port % 2) else none
  else if die < 9 + a.piers then
    if port < 4 then some (pierSpan (die - 9) false, 26 + port)
    else if port < 8 then some (pierSpan (die - 9) true, 22 + port)
    else if port < 10 then some (8, 16 + 2 * (die - 9) + (port - 8)) else none
  else none

/-- The registers of a port: status, errors, control and their index. -/
def cldRegs (die port : Nat) : RegId × RegId × RegId × List Nat :=
  if die < 8 then (.SPAN_CLD_PORT_STAT, .SPAN_CLD_PORT_ERR, .SPAN_CLD_PORT_CTL, [die, port])
  else if die = 8 then (.KST_CLD_PORT_STAT, .KST_CLD_PORT_ERR, .KST_CLD_PORT_CTL, [port])
  else (.PIER_CLD_PORT_STAT, .PIER_CLD_PORT_ERR, .PIER_CLD_PORT_CTL, [die - 9, port])

/-- UNIT of a port (R436). -/
def cldUnit (die port : Nat) : Nat :=
  if die < 8 then unitSpan die (0x60 + port) else if die = 8 then unitKst (0x60 + port) else unitPier (die - 9) (0x60 + port)

/-- A status field of a port. -/
def cldStat (s : State) (e : Nat × Nat) (f : Fld) : Nat :=
  let (r, _, _, ix) := cldRegs e.1 e.2
  s.fld r ix f

/-- An error field of a port. -/
def cldErr (s : State) (e : Nat × Nat) (f : Fld) : Nat :=
  let (_, r, _, ix) := cldRegs e.1 e.2
  s.fld r ix f

/-- A status field of a port written. -/
def setCldStat (s : State) (e : Nat × Nat) (f : Fld) (v : Nat) : State :=
  let (r, _, _, ix) := cldRegs e.1 e.2
  s.setFld r ix f v

/-- An error field of a port written. -/
def setCldErr (s : State) (e : Nat × Nat) (f : Fld) (v : Nat) : State :=
  let (_, r, _, ix) := cldRegs e.1 e.2
  s.setFld r ix f v

/-- DIE_INFO of a die. -/
def dieInfo (s : State) (die : Nat) : Nat :=
  if die < 8 then s.rd .SPAN_DIE_INFO [die] else if die = 8 then s.rd .KST_DIE_INFO [] else s.rd .PIER_DIE_INFO [die - 9]

/-- A link by either of its ends, its first end (the lower key) first. -/
def cldLink (s : State) (die port : Nat) : Option ((Nat × Nat) × (Nat × Nat)) :=
  (cldPeer s.asm die port).map (fun q =>
    if die * 32 + port ≤ q.1 * 32 + q.2 then ((die, port), q) else (q, (die, port)))

/-- A link with nothing stored or found. -/
def CldX.zero : CldX := ⟨0, 0, 0, 0, 0, false, false, 0, 0⟩
/-- The link's own state. -/
def State.cld (s : State) (e : Nat × Nat) : CldX := mget CldX.zero s.links.cld (e.1 * 32 + e.2)
/-- The link's own state written. -/
def State.setCld (s : State) (e : Nat × Nat) (x : CldX) : State :=
  { s with links := { s.links with cld := mset CldX.zero s.links.cld (e.1 * 32 + e.2) x } }

/-- Both ends in a state. -/
def bothState (s : State) (a b : Nat × Nat) (st : Nat) : State :=
  setCldStat (setCldStat s a CLD_PORT_STAT.STATE st) b CLD_PORT_STAT.STATE st

/-- Faulty lanes among the first `n`. -/
def badIn (m : BitVec 64) (n : Nat) : Nat := ((List.range n).filter (fun i => m.getLsbD i)).length

/-- The width one end advertises (R395), as WIDTH codes it: at most four faulty lanes are repaired; 0 when none works.
The cap is the forced width and the test cap of the port. -/
def advert (m : BitVec 64) (cap : Nat) : Nat :=
  if 3 ≤ cap ∧ badIn m 64 ≤ 4 then 3 else if 2 ≤ cap ∧ badIn m 32 ≤ 4 then 2
  else if 1 ≤ cap ∧ badIn m 16 ≤ 4 then 1 else 0

/-- Lanes of a width. -/
def widthLanes (w : Nat) : Nat :=
  match w with
  | 3 => 64
  | 2 => 32
  | 1 => 16
  | _ => 0

/-- MAX_WIDTH of a port. -/
def cldCap (s : State) (e : Nat × Nat) : Nat :=
  let (_, _, r, ix) := cldRegs e.1 e.2
  s.fld r ix CLD_PORT_CTL.MAX_WIDTH

/-- Every link of a bundle has been retired (R397). -/
def bundleGone (s : State) (a b : Nat) : Bool :=
  (List.range 30).all (fun p => match cldPeer s.asm a p with
    | some q => q.1 != b || cldErr s (a, p) CLD_PORT_ERR.RETIRED == 1
    | none => true)

/-! Buckets of a bundle (R392). -/

/-- The table of 16 buckets for links with width units, in ascending order of links: each link has the whole part of its
share, and the buckets left over go to the largest remainders, ties to the lower link. The buckets of a link lie together,
in the order of the links (DESIGN CHOICE, log 160: the spec gives numbers only). -/
def bucketTable (l : List (Nat × Nat)) : List Nat :=
  let u := (l.map (·.2)).sum
  if u = 0 then []
  else
    let rem (p : Nat × Nat) : Nat := 16 * p.2 % u
    let left := 16 - (l.map (fun p => 16 * p.2 / u)).sum
    let more (p : Nat × Nat) : Bool :=
      decide ((l.filter (fun q => decide (rem p < rem q) || (rem q == rem p && decide (q.1 < p.1)))).length < left)
    l.flatMap (fun p => List.replicate (16 * p.2 / u + b2n (more p)) p.1)

/-- The bucket of a line address or register address. -/
def bucketOf (key : Nat) : Nat := Config.bucketHash key % 16

/-- Ports of a die toward another. -/
def bundlePorts (s : State) (a b : Nat) : List Nat :=
  (List.range 30).filter (fun p => (cldPeer s.asm a p).any (fun q => q.1 == b))

/-- Width units of a port (R392). -/
def cldUnits (s : State) (e : Nat × Nat) : Nat :=
  match cldStat s e CLD_PORT_STAT.WIDTH with
  | 3 => 4
  | 2 => 2
  | 1 => 1
  | _ => 0

/-- Whether one end of a link makes it eligible (R392): ACTIVE or PHYRETRAIN. -/
def cldEligible (s : State) (e : Nat × Nat) : Bool :=
  cldStat s e CLD_PORT_STAT.STATE == 6 || cldStat s e CLD_PORT_STAT.STATE == 7

/-- The table of a bundle as its links stand. -/
def bundleTable (s : State) (a b : Nat) : List Nat :=
  bucketTable (((bundlePorts s a b).filter (fun p =>
    cldEligible s (a, p) && (cldPeer s.asm a p).any (cldEligible s))).map (fun p => (p, cldUnits s (a, p))))

/-- The bundles of the assembly, by 32 * first die + second die. -/
def bundles (s : State) : List Nat :=
  (List.range (9 + s.asm.piers)).flatMap (fun a =>
    ((List.range (9 + s.asm.piers)).filter (fun b => decide (a < b) && !(bundlePorts s a b).isEmpty)).map (fun b => 32 * a + b))

/-- Buckets of one bundle reassigned; those that move from a port take no message until it is clear. -/
def bundleSync (s : State) (k : Nat) : State :=
  let new := bundleTable s (k / 32) (k % 32)
  let old := (mfind s.links.db k).getD []
  if new = old then s
  else
    let moved := (List.range 16).filter (fun i => old[i]?.isSome && old[i]? != new[i]?)
    { s with links := { s.links with
        db := mins s.links.db k new
        dold := moved.foldl (fun l i => if (mfind l (16 * k + i)).isSome then l else mins l (16 * k + i) (old.getD i 0))
          s.links.dold } }

/-- Buckets reassigned where the links of a bundle have changed. -/
def cldSync (s : State) : State := (bundles s).foldl bundleSync s

/-- Buckets whose old port is clear take messages again: a port in PHYRETRAIN keeps its replay buffer; any other has
emptied it, or lost it, within one FC cycle (DESIGN CHOICE, log 160). -/
def bundleTick (s : State) : State :=
  { s with links := { s.links with dold := s.links.dold.filter (fun p =>
      cldStat s (p.1 / 16 / 32, p.2) CLD_PORT_STAT.STATE == 7) } }

/-- Whether a message between two dies waits: they share a bundle and its bucket moves (R392). -/
def dieHeld (s : State) (a b key : Nat) : Bool :=
  (mfind s.links.dold (16 * (32 * min a b + max a b) + bucketOf key)).isSome

/-- The die of a caching agent (R255): a Span, the Keystone, the Pier of the host or of a Pier I/O agent. -/
def agentDie (a : Nat) : Nat := if a < 8 then a else if a < 73 then 8 else if a = 73 then 9 else 9 + (a - 74)

/-- Whether a message between an agent and the home of a line waits for a bucket; of homes only the far home's die is
known, that of Pier 0 (R256). -/
def homeWay (s : State) (a line : Nat) : Bool := isFar line && dieHeld s (agentDie a) 9 line

/-- A row about a Claden-D link: what it does, and the bundles' buckets after it. -/
def cldRow (s s' : State) : Host.Outcome State Fault Refusal := whenUp s (cldSync s')

/-- Entry into Recovery (R479). A cause of a Claden-D link holds until a cold reset. -/
def enterRecovery (s : State) (cause : Nat) : State :=
  let s := s.setFld .KST_BOOT_STAT [] KST_BOOT_STAT.STAGE 15
  let s := s.setFld .KST_HART_STAT [] KST_HART_STAT.RUN 1
  let s := s.setFld .KST_BOOT_STAT [] KST_BOOT_STAT.RCVY_CAUSE cause
  if cause = 2 ∨ cause = 3 then { s with boot := { s.boot with stuck := cause } } else s

/-- The failure of a link (R397): with flits outstanding a containment reset; else it leaves its bundle, and the last
link of a bundle stops the module. -/
def cldFail (s : State) (a b : Nat × Nat) (flits : Bool) : State :=
  if flits then contTrigger s (cldUnit a.1 a.2) 6 7 none none
  else
    let s := setCldErr (setCldErr s a CLD_PORT_ERR.RETIRED 1) b CLD_PORT_ERR.RETIRED 1
    let s := recordAt s.counted (cldUnit a.1 a.2) 6 9 0 none
    if bundleGone s a.1 b.1 then enterRecovery (recordAt s (unitKst 0x43) 6 9 0 none) 3 else s

/-- FAST_RETRAIN of the running link (R393). -/
def cldFast (s : State) (e : Nat × Nat) : Bool := (cldStat s e CLD_PORT_STAT.ACT_FEAT >>> 5) % 2 == 1

/-- One end enters PHYRETRAIN, or RESET without FAST_RETRAIN. -/
def endRetrain (s : State) (e : Nat × Nat) : State :=
  if cldFast s e then
    setCldErr (setCldStat s e CLD_PORT_STAT.STATE 7) e CLD_PORT_ERR.RETRAIN_CNT
      (min 65535 (cldErr s e CLD_PORT_ERR.RETRAIN_CNT + 1))
  else setCldStat (setCldStat s e CLD_PORT_STAT.STATE 0) e CLD_PORT_STAT.WIDTH 0

/-- Both ends retrain. -/
def linkRetrain (s : State) (a b : Nat × Nat) : State :=
  let s := endRetrain (endRetrain s a) b
  s.setCld a { s.cld a with prob := false, crc := 0 }

/-- Lanes tested at MBINIT or PHYRETRAIN and the agreed width (R395); none that works fails the link. -/
def laneTest (s : State) (a b : Nat × Nat) (fa fb : BitVec 64) (flits : Bool) : State :=
  let x := s.cld a
  let ma := x.mapA ||| fa
  let mb := x.mapB ||| fb
  let cap := if x.forced = 0 then 3 else x.forced
  let w := min (advert ma (min cap (cldCap s a))) (advert mb (min cap (cldCap s b)))
  let s := s.setCld a { x with curA := ma, curB := mb }
  let s := setCldStat s a CLD_PORT_STAT.REPAIR_USED (min 4 (badIn ma (widthLanes w)))
  let s := setCldStat s b CLD_PORT_STAT.REPAIR_USED (min 4 (badIn mb (widthLanes w)))
  let s := setCldStat (setCldStat s a CLD_PORT_STAT.WIDTH w) b CLD_PORT_STAT.WIDTH w
  if w = 0 then cldFail (bothState s a b 15) a b flits else bothState s a b 3

/-- The exchange of CAPNEG at one end (R393). -/
def capEnd (s : State) (e q : Nat × Nat) (feat : Nat) : State :=
  let i := dieInfo s q.1
  let s := setCldStat s e CLD_PORT_STAT.PEER_VER (fget i DIE_INFO.PROTO_VER)
  let s := setCldStat s e CLD_PORT_STAT.PEER_STEPPING (fget i DIE_INFO.STEPPING)
  let s := setCldStat s e CLD_PORT_STAT.PEER_KIND (fget i DIE_INFO.DIE_KIND)
  let s := setCldStat s e CLD_PORT_STAT.PEER_IDX (fget i DIE_INFO.DIE_IDX)
  setCldStat s e CLD_PORT_STAT.ACT_FEAT feat

/-- Whether a version lies in a window. -/
def inWin (info ver : Nat) : Bool := decide (fget info DIE_INFO.COMPAT_MIN ≤ ver) && decide (ver ≤ fget info DIE_INFO.COMPAT_MAX)

/-- CAPNEG (R393). -/
def capNeg (s : State) (a b : Nat × Nat) (flits : Bool) : State :=
  let ia := dieInfo s a.1
  let ib := dieInfo s b.1
  let feat := fget ia DIE_INFO.FEAT &&& fget ib DIE_INFO.FEAT
  let s := capEnd (capEnd s a b feat) b a feat
  if inWin ia (fget ib DIE_INFO.PROTO_VER) && inWin ib (fget ia DIE_INFO.PROTO_VER) && feat % 8 == 7 then bothState s a b 5
  else
    let s := setCldErr (setCldErr s a CLD_PORT_ERR.NOT_COMPAT 1) b CLD_PORT_ERR.NOT_COMPAT 1
    cldFail (bothState s a b 15) a b flits

/-- CLD_STATE_DONE (R394): the state both ends are in completes; fa and fb are the lanes found faulty at the receivers
of the first and the second end. -/
def execCldStateDone (die port : Nat) (fa fb : BitVec 64) (flits : Bool) (s : State) : Host.Outcome State Fault Refusal :=
  cldRow s (match cldLink s die port with
    | none => s
    | some (a, b) =>
      let st := cldStat s a CLD_PORT_STAT.STATE
      if st ≠ cldStat s b CLD_PORT_STAT.STATE then s
      else match st with
        | 0 => if cldErr s a CLD_PORT_ERR.RETIRED = 1 then s else bothState s a b 1
        | 1 => bothState s a b 2
        | 2 => laneTest s a b fa fb flits
        | 3 => bothState s a b 4
        | 4 => capNeg s a b flits
        | 5 => (bothState s a b 6).setCld a { s.cld a with prob := true, crc := 0 }
        | 7 => laneTest s a b fa fb flits
        | 8 => linkRetrain s a b
        | _ => s)

/-- CLD_STATE_TIMEOUT (R394, R397). -/
def execCldStateTimeout (die port : Nat) (flits : Bool) (s : State) : Host.Outcome State Fault Refusal :=
  cldRow s (match cldLink s die port with
    | none => s
    | some (a, b) =>
      let st := cldStat s (die, port) CLD_PORT_STAT.STATE
      if st = 0 ∨ st = 6 ∨ st = 15 then s else cldFail (bothState s a b 15) a b flits)

/-- CLD_TRAINERROR_EXPIRE (R394). -/
def execCldTrainerrorExpire (die port : Nat) (s : State) : Host.Outcome State Fault Refusal :=
  cldRow s (match cldLink s die port with
    | none => s
    | some (a, b) =>
      if cldStat s a CLD_PORT_STAT.STATE = 15 ∧ cldErr s a CLD_PORT_ERR.NOT_COMPAT = 0 then
        setCldStat (setCldStat (bothState s a b 0) a CLD_PORT_STAT.WIDTH 0) b CLD_PORT_STAT.WIDTH 0
      else s)

/-- Whether a port carries traffic or sleeps. -/
def cldRunning (s : State) (e : Nat × Nat) : Bool :=
  cldStat s e CLD_PORT_STAT.STATE == 6 || cldStat s e CLD_PORT_STAT.STATE == 8

/-- CLD_RETRAIN_REQUEST (R396): the partner has begun to retrain. -/
def execCldRetrainRequest (die port : Nat) (s : State) : Host.Outcome State Fault Refusal :=
  cldRow s (match cldLink s die port with
    | none => s
    | some (a, b) =>
      let q := if a = (die, port) then b else a
      let st := cldStat s q CLD_PORT_STAT.STATE
      if cldRunning s (die, port) && (st == 7 || st == 0) then
        let s := endRetrain s (die, port)
        s.setCld a { s.cld a with prob := false, crc := 0 }
      else s)

/-- A failed probation (R396): the link retrains, and the failure of the third retrain at one width forces the next
narrower one, or retires the link. -/
def probFail (s : State) (a b : Nat × Nat) (flits : Bool) : State :=
  let n := cldErr s a CLD_PORT_ERR.FAIL_STREAK
  if n < 3 then
    linkRetrain (setCldErr (setCldErr s a CLD_PORT_ERR.FAIL_STREAK (n + 1)) b CLD_PORT_ERR.FAIL_STREAK (n + 1)) a b
  else
    let w := cldStat s a CLD_PORT_STAT.WIDTH
    let s := setCldErr (setCldErr s a CLD_PORT_ERR.FAIL_STREAK 0) b CLD_PORT_ERR.FAIL_STREAK 0
    if w ≤ 1 ∨ (w = 2 ∧ (cldStat s a CLD_PORT_STAT.ACT_FEAT >>> 3) % 2 = 0) then
      cldFail (bothState s a b 0) a b flits
    else
      let s := s.setCld a { s.cld a with forced := w - 1, commit := true }
      linkRetrain (setCldStat (setCldStat s a CLD_PORT_STAT.FORCED 1) b CLD_PORT_STAT.FORCED 1) a b

/-- CLD_CRC_FAIL (R396, R398): the flit is replayed; the 16th failure within probation fails it. -/
def execCldCrcFail (die port : Nat) (flits : Bool) (s : State) : Host.Outcome State Fault Refusal :=
  cldRow s (match cldLink s die port with
    | none => s
    | some (a, b) =>
      if cldStat s (die, port) CLD_PORT_STAT.STATE ≠ 6 then s
      else
        let s := setCldErr s (die, port) CLD_PORT_ERR.CRC_CNT (min 65535 (cldErr s (die, port) CLD_PORT_ERR.CRC_CNT + 1))
        let x := s.cld a
        if !x.prob then s
        else if 15 ≤ x.crc then probFail s a b flits
        else s.setCld a { x with crc := x.crc + 1 })

/-- CLD_PROBATION_END (R396): a probation that ends has had fewer than 16 failures. A forced width that passes is
committed with the lane maps. -/
def execCldProbationEnd (die port : Nat) (s : State) : Host.Outcome State Fault Refusal :=
  cldRow s (match cldLink s die port with
    | none => s
    | some (a, b) =>
      let x := s.cld a
      if !x.prob ∨ cldStat s a CLD_PORT_STAT.STATE ≠ 6 then s
      else
        let s := setCldErr (setCldErr s a CLD_PORT_ERR.FAIL_STREAK 0) b CLD_PORT_ERR.FAIL_STREAK 0
        let s := s.setCld a { x with prob := false, crc := 0 }
        if x.commit then
          let s := s.setCld a { x with prob := false, crc := 0, commit := false, kept := x.forced, mapA := x.curA, mapB := x.curB }
          let s := setCldErr (setCldErr s a CLD_PORT_ERR.DEGRADE 1) b CLD_PORT_ERR.DEGRADE 1
          recordAt s.counted (cldUnit a.1 a.2) 5 8 0 none
        else s)

/-- CLD_REPLAY_WINDOW (R396, R408): more than 1,000 replays in 1 ms outside probation. -/
def execCldReplayWindow (die port : Nat) (s : State) : Host.Outcome State Fault Refusal :=
  cldRow s (match cldLink s die port with
    | none => s
    | some (a, b) => if cldStat s a CLD_PORT_STAT.STATE = 6 ∧ !(s.cld a).prob then linkRetrain s a b else s)

/-- CLD_L1_ENTRY (R394). -/
def execCldL1Entry (die port : Nat) (s : State) : Host.Outcome State Fault Refusal :=
  cldRow s (match cldLink s die port with
    | none => s
    | some (a, b) =>
      if cldStat s a CLD_PORT_STAT.STATE = 6 ∧ (cldStat s a CLD_PORT_STAT.ACT_FEAT >>> 4) % 2 = 1 then bothState s a b 8
      else s)

/-- A write of CLD_PORT_CTL: RETRAIN moves its own end, and the other is asked over the sideband. -/
def cldCtlWrite (s : State) (die port eff : Nat) : State :=
  let (_, _, r, ix) := cldRegs die port
  if fget eff CLD_PORT_CTL.MAX_WIDTH = 0 then discardReg s r ix
  else
    let s := s.plain r ix eff
    if fget eff CLD_PORT_CTL.RETRAIN = 1 ∧ cldRunning s (die, port) then
      cldSync ((endRetrain s (die, port)).send (.link (die * 32 + port) 1))
    else s

/-- CLD_RETRAIN. -/
def execCldRetrain (die port : Nat) (w : BitVec 64) (s : State) : Host.Outcome State Fault Refusal :=
  whenUp s (if (cldPeer s.asm die port).isSome then cldCtlWrite s die port w.toNat else s)

/-! Claden-X links. -/

/-- A link's own state. -/
def State.clx (s : State) (l : Nat) : ClxX := mget ⟨0, false, 0⟩ s.links.clx l
/-- A link's own state written. -/
def State.setClx (s : State) (l : Nat) (x : ClxX) : State :=
  { s with links := { s.links with clx := mset ⟨0, false, 0⟩ s.links.clx l x } }

/-- The virtual channels of a link. -/
def State.vc (s : State) (l : Nat) : VcX := mget ⟨[], 0⟩ s.links.vc l
/-- Its virtual channels written. -/
def State.setVc (s : State) (l : Nat) (x : VcX) : State :=
  { s with links := { s.links with vc := mset ⟨[], 0⟩ s.links.vc l x } }

/-- Index of a link's registers. -/
def clxIx (l : Nat) : List Nat := [l / 6, l % 6]
/-- UNIT of a link. -/
def clxUnit (l : Nat) : Nat := unitPier (l / 6) (l % 6)
/-- STATE of a link. -/
def clxState (s : State) (l : Nat) : Nat := s.fld .CLX_LINK_STAT (clxIx l) CLX_LINK_STAT.STATE
/-- STATE written. -/
def setClxState (s : State) (l st : Nat) : State := s.setFld .CLX_LINK_STAT (clxIx l) CLX_LINK_STAT.STATE st

/-- A link of the assembly whose power domain is on (R411, R414). -/
def clxThere (s : State) (l : Nat) : Bool :=
  decide (l < 6 * s.asm.piers) && (s.fld .KST_PD_CTL [] KST_PD_CTL.PIER_PD_ON >>> (2 * (l / 6))) % 2 == 1

/-- Active lanes and use of the spare for a set of faulty lanes (R402): all eight, with lane 8 for one of them, or a
clean group of four; none otherwise. -/
def laneChoice (bad : BitVec 9) (half : Bool) : Option (Nat × Bool) :=
  let n := ((List.range 8).filter (fun i => bad.getLsbD i)).length
  let clean (lo : Nat) : Bool := (List.range 4).all (fun i => !bad.getLsbD (lo + i))
  if n = 0 then some (8, false)
  else if n = 1 ∧ !bad.getLsbD 8 then some (8, true)
  else if half ∧ (clean 0 || clean 4) then some (4, false) else none

/-- HALF_WIDTH of a link that has trained; before that, of this stepping (R400). -/
def clxHalf (s : State) (l : Nat) : Bool :=
  let f := s.fld .CLX_LINK_STAT (clxIx l) CLX_LINK_STAT.ACT_FEAT
  f == 0 || (f >>> 5) % 2 == 1

/-- Modules whose route entry is in force. -/
def routedMods (s : State) : List (Nat × Nat) :=
  let base := regAddr .CLX_RT [0]
  (s.regs.filter (fun p => decide (base ≤ p.1) && decide (p.1 < base + 8 * 32768))).map (fun p =>
    ((p.1 - base) / 8, p.2.toNat))

/-- RT_MISMATCH of every link (R403). -/
def rtSync (s : State) : State :=
  let rs := (routedMods s).filter (fun q => fget q.2 CLX_RT.VALID == 1)
  (List.range (6 * s.asm.piers)).foldl (fun s l =>
    let up := clxState s l == 6 || clxState s l == 7
    let m := s.fld .CLX_LINK_STAT (clxIx l) CLX_LINK_STAT.PEER_MOD
    let bad := up && rs.any (fun q => (fget q.2 CLX_RT.LINK_MASK >>> l) % 2 == 1 && q.1 != m)
    s.setFld .CLX_LINK_STAT (clxIx l) CLX_LINK_STAT.RT_MISMATCH (b2n bad)) s

/-! Virtual channels (R399). Stay messages never wait behind others: they leave as soon as their link is ACTIVE. -/

/-- The channel of a place in the rotation RSP, RSP, REQ, LAT. -/
def vcSlot (i : Nat) : Nat :=
  match i % 4 with
  | 2 => 0
  | 3 => 2
  | _ => 1

/-- Frames that wait at a transmitter sent in the rotation, as far as their channels have credits; a channel without
credits is passed over. -/
def vcPump (fuel : Nat) (s : State) (l : Nat) (cred : Nat → Bool) : State :=
  match fuel with
  | 0 => s
  | n + 1 =>
    let x := s.vc l
    match (List.range 4).find? (fun i => cred (vcSlot (x.turn + i)) && x.q.any (fun m => m.1 == vcSlot (x.turn + i))) with
    | none => s
    | some i =>
      match x.q.find? (fun m => m.1 == vcSlot (x.turn + i)) with
      | none => s
      | some m => vcPump n ((s.setVc l ⟨x.q.erase m, (x.turn + i + 1) % 4⟩).send m.2) l cred

/-- What waits on an ACTIVE link goes as far as credits allow: which channels have some the partner decides, so that is a
free choice. -/
def vcGo (s : State) (l : Nat) : State :=
  if clxState s l ≠ 6 ∨ (s.vc l).q.isEmpty then s
  else
    let (a, s) := s.freeBool
    let (b, s) := s.freeBool
    let (c, s) := s.freeBool
    vcPump (s.vc l).q.length s l (fun ch => match ch with
      | 0 => a
      | 1 => b
      | _ => c)

/-- A frame for a channel of a link: it leaves at once on an ACTIVE link unless frames of its channel wait; on a link in
QUICK_RETRAIN it waits; in any other state, and toward a partner with ACT_VALID = 0 (R400), the link carries no such traffic
and the frame is lost. -/
def State.sendOn (s : State) (l ch : Nat) (m : OutMsg) : State :=
  let x := s.vc l
  if !s.bit .CLX_LINK_STAT (clxIx l) CLX_LINK_STAT.PEER_VALID then s
  else if clxState s l = 6 ∧ !x.q.any (fun y => y.1 == ch) then s.send m
  else if clxState s l = 6 ∨ clxState s l = 7 then s.setVc l { x with q := x.q ++ [(ch, m)] }
  else s

/-- A link that carries nothing: a state without traffic; what waited for it is lost with its replay buffer. -/
def clxDown (s : State) (l st : Nat) : State :=
  rtSync (((setClxState s l st).setFld .CLX_LINK_STAT (clxIx l) CLX_LINK_STAT.LANES 0).setVc l ⟨[], 0⟩)

/-- A link retires (R402). -/
def clxRetire (s : State) (l : Nat) : State :=
  let s := (clxDown s l 0).setFld .CLX_LINK_ERR (clxIx l) CLX_LINK_ERR.RETIRED 1
  recordAt s.counted (clxUnit l) 6 9 0 none

/-- RETRAIN_CNT counts quick retrains and full trainings. -/
def clxCount (s : State) (l : Nat) : State := s.satInc .CLX_LINK_ERR (clxIx l) CLX_LINK_ERR.RETRAIN_CNT 1

/-- A full training from DETECT (R401): the replay buffer is discarded. -/
def clxFull (s : State) (l : Nat) : State :=
  clxCount ((clxDown s l 1).setFld .CLX_LINK_ERR (clxIx l) CLX_LINK_ERR.DOWN 1) l

/-- A quick retrain (R401), or a full training without QUICK_RETRAIN or when the bucket of row 15 is full. -/
def clxQuick (s : State) (l : Nat) : State :=
  if (s.fld .CLX_LINK_STAT (clxIx l) CLX_LINK_STAT.ACT_FEAT >>> 6) % 2 = 0 then clxFull s l
  else
    let (s, hit) := retireEvent s 15 (clxUnit l)
    if hit ∧ retireBySoftware s 15 then setClxState (clxCount (recordAt s (clxUnit l) 6 7 0 none) l) l 7
    else if hit then clxFull s l
    else setClxState (clxCount s l) l 7

/-- Lanes of a link chosen again after a lane has gone (R402). -/
def clxLanes (s : State) (l : Nat) (quick : Bool) : State :=
  match laneChoice (BitVec.ofNat 9 (s.clx l).bad) (clxHalf s l) with
  | none => clxRetire s l
  | some (n, spare) =>
    let s := s.setFld .CLX_LINK_STAT (clxIx l) CLX_LINK_STAT.SPARE_USED (b2n spare)
    if !quick then s.setFld .CLX_LINK_STAT (clxIx l) CLX_LINK_STAT.LANES n
    else if clxState s l = 6 then (clxQuick s l).setFld .CLX_LINK_STAT (clxIx l) CLX_LINK_STAT.LANES n else s

/-- A lane retires (R402): its map is committed and a permanent-degrade record is written. -/
def laneRetire (s : State) (l lane : Nat) : State :=
  let x := s.clx l
  if (x.bad >>> lane) % 2 = 1 then s
  else
    let was := s.fld .CLX_LINK_STAT (clxIx l) CLX_LINK_STAT.LANES
    let wasSp := s.fld .CLX_LINK_STAT (clxIx l) CLX_LINK_STAT.SPARE_USED
    let s := s.setClx l { x with bad := x.bad ||| 2 ^ lane }
    let s := s.setFld .CLX_LINK_ERR (clxIx l) CLX_LINK_ERR.DEGRADE 1
    let s := recordAt s.counted (clxUnit l) 5 9 0 none
    match laneChoice (BitVec.ofNat 9 (s.clx l).bad) (clxHalf s l) with
    | none => clxRetire s l
    | some (n, sp) => if n = was ∧ b2n sp = wasSp ∧ !(lane < 8) then s else clxLanes s l true

/-- An UP notice leaves on a link (R407). -/
def sendUp (s : State) (l : Nat) : State :=
  s.send (.stay 0 (s.fld .CLX_LINK_STAT (clxIx l) CLX_LINK_STAT.PEER_MOD) l 0 0xF3 [actId s])

/-- A link reaches ACTIVE. -/
def clxActive (s : State) (l : Nat) : State :=
  vcGo (stayFlush (rtSync (sendUp (clearBucket (clearBucket (setClxState s l 6) 13 (clxUnit l)) 16 (clxUnit l)) l))) l

/-- The exchange of CAPNEG (R400). -/
def clxCap (s : State) (l : Nat) (p : ClxPeer) : State :=
  let feat := 0x7F &&& p.feat.toNat
  let ix := clxIx l
  let s := s.setFld .CLX_LINK_STAT ix CLX_LINK_STAT.PEER_MOD p.mod.toNat
  let s := s.setFld .CLX_LINK_STAT ix CLX_LINK_STAT.PEER_VALID (b2n p.valid)
  let s := s.setFld .CLX_LINK_STAT ix CLX_LINK_STAT.PEER_LINK p.link.toNat
  let s := s.setFld .CLX_LINK_STAT ix CLX_LINK_STAT.PEER_VER p.ver.toNat
  let s := s.setFld .CLX_LINK_STAT ix CLX_LINK_STAT.ACT_FEAT feat
  if 0x20 ≤ p.ver.toNat ∧ p.ver.toNat ≤ 0x2F ∧ p.lo.toNat ≤ 0x21 ∧ 0x21 ≤ p.hi.toNat ∧ feat % 32 = 31 then
    setClxState s l 4
  else (clxDown s l 15).setFld .CLX_LINK_ERR ix CLX_LINK_ERR.NOT_COMPAT 1

/-- CLX_STATE_DONE (R400): `bad` are the lanes the lane test finds faulty, `p` what the partner sends in CAPNEG. -/
def execClxStateDone (l : Nat) (bad : BitVec 9) (p : ClxPeer) (s : State) : Host.Outcome State Fault Refusal :=
  whenUp s (
    if !clxThere s l then s
    else match clxState s l with
      | 1 => setClxState s l 2
      | 2 =>
        let x := s.clx l
        let b := if x.fresh then bad.toNat else x.bad ||| bad.toNat
        clxLanes (setClxState (s.setClx l { x with bad := b, fresh := false }) l 3) l false
      | 3 => clxCap s l p
      | 4 => clxActive s l
      | 7 => clxActive s l
      | _ => s)

/-- CLX_STATE_TIMEOUT (R400, R401, R408). -/
def execClxStateTimeout (l : Nat) (s : State) : Host.Outcome State Fault Refusal :=
  whenUp s (
    if !clxThere s l then s
    else
      let st := clxState s l
      if st = 7 then clxFull s l
      else if st = 2 ∨ st = 3 ∨ st = 4 then
        let (s, hit) := retireEvent (clxDown s l 15) 16 (clxUnit l)
        if hit then (if retireBySoftware s 16 then recordAt s (clxUnit l) 6 9 0 none else clxRetire s l) else s
      else s)

/-- CLX_TRAINERROR_EXPIRE (R400). -/
def execClxTrainerrorExpire (l : Nat) (s : State) : Host.Outcome State Fault Refusal :=
  whenUp s (
    if clxThere s l ∧ clxState s l = 15 ∧ s.fld .CLX_LINK_ERR (clxIx l) CLX_LINK_ERR.NOT_COMPAT = 0 then
      clxCount (setClxState s l 1) l
    else s)

/-- CLX_IDLE_TIMEOUT (R401). -/
def execClxIdleTimeout (l : Nat) (s : State) : Host.Outcome State Fault Refusal :=
  whenUp s (if clxThere s l ∧ clxState s l = 6 then clxQuick s l else s)

/-- CLX_FLIT_ERROR (R398, R408): a replay; `again` when it is another failed replay of one flit. -/
def execClxFlitError (l : Nat) (again : Bool) (s : State) : Host.Outcome State Fault Refusal :=
  whenUp s (
    if clxThere s l ∧ clxState s l = 6 then
      let s := s.satInc .CLX_LINK_ERR (clxIx l) CLX_LINK_ERR.REPLAY_CNT 1
      if again then
        let (s, hit) := retireEvent s 13 (clxUnit l)
        if hit then clxQuick s l else s
      else clearBucket s 13 (clxUnit l)
    else s)

/-- CLX_LANE_WINDOW (R402, R408): a 1 ms window with n corrected symbols on a lane. -/
def execClxLaneWindow (l lane n : Nat) (s : State) : Host.Outcome State Fault Refusal :=
  whenUp s (
    if clxThere s l ∧ lane < 9 ∧ clxState s l = 6 then
      let x := s.clx l
      let s := s.satInc .CLX_LINK_ERR (clxIx l) CLX_LINK_ERR.FEC_CE_CNT ((x.ce + n) / 1000)
      let s := s.setClx l { x with ce := (x.ce + n) % 1000 }
      if n ≤ 256 then s
      else
        let (s, hit) := retireEvent s 14 (l * 16 + lane)
        if !hit then s
        else if retireBySoftware s 14 then recordAt s (clxUnit l) 5 7 0 none
        else laneRetire s l lane
    else s)

/-- A write of CLX_LINK_CTL. -/
def clxCtlWrite (s : State) (l eff : Nat) : State :=
  let ix := clxIx l
  let retired := s.bit .CLX_LINK_ERR ix CLX_LINK_ERR.RETIRED
  let asks := fget eff CLX_LINK_CTL.RETIRE = 1 ∨ fget eff CLX_LINK_CTL.LANE_RETIRE = 1
  if (fget eff CLX_LINK_CTL.EN = 1 ∧ retired) ∨ (asks ∧ !s.owned 4) ∨ 8 < fget eff CLX_LINK_CTL.LANE then
    discardReg s .CLX_LINK_CTL ix
  else
    let s := s.plain .CLX_LINK_CTL ix eff
    let st := clxState s l
    let s :=
      if fget eff CLX_LINK_CTL.EN = 0 then (if st = 0 then s else clxDown s l 0)
      else if (st = 0 ∨ (st = 15 ∧ s.bit .CLX_LINK_ERR ix CLX_LINK_ERR.NOT_COMPAT)) ∧ clxThere s l then setClxState s l 1
      else s
    let s := if fget eff CLX_LINK_CTL.RETRAIN = 1 ∧ clxState s l = 6 then clxQuick s l else s
    let s := if fget eff CLX_LINK_CTL.LANE_RETIRE = 1 then laneRetire s l (fget eff CLX_LINK_CTL.LANE) else s
    if fget eff CLX_LINK_CTL.RETIRE = 1 ∧ !s.bit .CLX_LINK_ERR ix CLX_LINK_ERR.RETIRED then clxRetire s l else s

/-- A row that writes CLX_LINK_CTL of a link of the assembly. -/
def clxCtlRow (l : Nat) (w : BitVec 64) (s : State) : Host.Outcome State Fault Refusal :=
  whenUp s (if l < 6 * s.asm.piers then clxCtlWrite s l w.toNat else s)

/-- CLX_LINK_ENABLE. -/
def execClxLinkEnable (l : Nat) (w : BitVec 64) (s : State) : Host.Outcome State Fault Refusal := clxCtlRow l w s
/-- CLX_RETRAIN. -/
def execClxRetrain (l : Nat) (w : BitVec 64) (s : State) : Host.Outcome State Fault Refusal := clxCtlRow l w s
/-- CLX_LINK_RETIRE. -/
def execClxLinkRetire (l : Nat) (w : BitVec 64) (s : State) : Host.Outcome State Fault Refusal := clxCtlRow l w s
/-- CLX_LANE_RETIRE. -/
def execClxLaneRetire (l : Nat) (w : BitVec 64) (s : State) : Host.Outcome State Fault Refusal := clxCtlRow l w s

/-! Routes and lost marks (R403, R407). -/

/-- A module's lost mark cleared. -/
def clearLost (s : State) (m : Nat) : State :=
  if peerLost s m then s.wr .CLX_LOST [m / 64] (s.rd .CLX_LOST [m / 64] - 2 ^ (m % 64)) else s

/-- A write of a route entry. -/
def routeWrite (s : State) (m eff : Nat) : State := stayFlush (rtSync (clearLost (s.plain .CLX_RT [m] eff) m))

/-- ROUTE_WRITE. -/
def execRouteWrite (m : Nat) (w : BitVec 64) (s : State) : Host.Outcome State Fault Refusal :=
  whenUp s (if m < 32768 then routeWrite s m w.toNat else s)

/-- LOST_CLEAR: a write of CLX_LOST. -/
def execLostClear (n : Nat) (w : BitVec 64) (s : State) : Host.Outcome State Fault Refusal :=
  whenUp s (if n < 512 then s.plain .CLX_LOST [n] w.toNat else s)

/-- UP_NOTICE. -/
def execUpNotice (m : Nat) (s : State) : Host.Outcome State Fault Refusal :=
  whenUp s (if m < 32768 then clearLost s m else s)

end Sys2Proof.Machine
end

