-- ==== Sys2Proof/Machine/CohCmds.lean ====
section
/-!
DEFINITION. Machine/CohCmds.lean: the coherence protocol message by message (R259 to R277): requests reaching a
home, snoops reaching agents, data and responses, NACK with its retry, and the host's snoops.
-/

namespace Sys2Proof.Machine

/-- An agent that exists (R255). -/
def agentOk (s : State) (a : Nat) : Bool := decide (a < 74 + s.asm.piers)

/-- Messages that travel toward a home. -/
def toHome (k : MsgK) : Bool :=
  match k with
  | .compack => true
  | .rspi => true
  | .rsps => true
  | .rspo => true
  | .rspdata => true
  | _ => false

/-- A message put under way. -/
def sendNet (s : State) (m : CohMsg) : State := { s with mem := { s.mem with net := s.mem.net ++ [m] } }

/-- A line without data. -/
def noLine : LineVal := ⟨0, 0, 0⟩

/-- A message of a kind. -/
def msg (k : MsgK) (a line arg : Nat) (v : LineVal) : CohMsg := ⟨k, line, a, arg, false, false, false, v⟩

/-- The oldest message under way between an agent and a home on a line in one direction, when it is of this kind:
messages on one line between two ends arrive in the order sent. What the far home sends for a far line leaves when the
host has answered (R273), and none arrives while its bucket moves (R392). -/
def takeNet (s : State) (k : MsgK) (a line : Nat) : Option (CohMsg × State) :=
  match s.mem.net.find? (fun m => m.agent == a && m.line == line && toHome m.k == toHome k) with
  | some m => 
    if m.k = k ∧ ¬ ((k = .data ∨ k = .grant) ∧ s.mem.farRd.contains line) ∧ !homeWay s a line then
      some (m, { s with mem := { s.mem with net := s.mem.net.erase m } })
    else none
  | none => none

/-- The transaction of a line written or removed. -/
def putTxn (s : State) (line : Nat) (t : Option Txn) : State :=
  { s with mem := { s.mem with txns := match t with
      | some t => mins s.mem.txns line t
      | none => mdel s.mem.txns line } }

/-- A new transaction. -/
def Txn.new (k : MsgK) (a : Nat) (v : LineVal) (mask : BitVec 128) : Txn :=
  ⟨k, a, [], false, false, v, mask, false, 0, none, none, [], none⟩

/-- COH_AGENT_STAT of an agent (R279); the host and the Pier I/O agents have none. -/
def cohStat (a : Nat) : Option (RegId × List Nat) :=
  if a < 8 then some (.SPAN_COH_STAT, [a])
  else if a < 72 then some (.CORE_COH_STAT, [a - 8])
  else if a = 72 then some (.SYSC_COH_STAT, [])
  else none

/-- A request for ownership (R266). -/
def isOwnReq (k : MsgK) : Bool := k == .rdu || k == .upg

/-- What a NACK does at the home (R264 to R270): it is counted, and ownership requests NACKed with BUSY in one FC cycle
are recorded in the pending-grant slot (R266). -/
def nackHome (s : State) (k : MsgK) (a line reason : Nat) : State :=
  let h := homeOf line
  let (rc, ic) := homeCnt h
  let (rs, is) := homeStat h
  let s := s.wrapInc rc ic HOME_DIR_CNT.NACK_CNT 1
  let s := if reason = 2 then s.satInc rs is HOME_DIR_STAT.PIN_NACK_CNT 1 else s
  if reason = 0 ∧ isOwnReq k then
    let x := homeX s h
    match mfind x.lastNack line with
    | some (fc, b) =>
      if fc = s.clk.fc ∧ b ≠ a then
        let p := if x.pend.contains (line, b) then x.pend else x.pend ++ [(line, b)]
        setHomeX s h { x with pend := if p.contains (line, a) then p else p ++ [(line, a)] }
      else setHomeX s h { x with lastNack := mins x.lastNack line (s.clk.fc, a) }
    | none => setHomeX s h { x with lastNack := mins x.lastNack line (s.clk.fc, a) }
  else s

/-- A request that its home has not accepted: as it stood, or new. -/
def heldReq (s : State) (k : MsgK) (a line : Nat) (starve : Bool) (v : LineVal) (mask : BitVec 128) : AReq :=
  match findReq s a line with
  | some r => { r with waiting := false }
  | none => ⟨a, line, k, 0, starve, false, v, mask, false⟩

/-- NACK with a reason: 0 BUSY, 1 HOLD, 2 PINNED, 3 STARVE_WAIT (R264 to R270). -/
def nackReq (s : State) (k : MsgK) (a line reason : Nat) (v : LineVal) (mask : BitVec 128) : State :=
  let s := putReq s (heldReq s k a line false v mask)
  sendNet (nackHome s k a line reason) (msg .nack a line reason noLine)

/-- What a NACK does at its agent (R267, R268): the request waits to be put again, and the sixteenth marks it STARVE. -/
def nackAgent (s : State) (r : AReq) : State :=
  let n := r.nacks + 1
  let s := putReq s { r with nacks := n, waiting := true, starve := r.starve || decide (16 ≤ n) }
  match cohStat r.agent with
  | none => s
  | some (g, ix) =>
    let s := s.wrapInc g ix COH_AGENT_STAT.NACK_CNT 1
    let s := if n = 16 then s.satInc g ix COH_AGENT_STAT.STARVE_CNT 1 else s
    if s.fld g ix COH_AGENT_STAT.MAX_RUN < min n 255 then s.setFld g ix COH_AGENT_STAT.MAX_RUN (min n 255) else s

/-- Data from memory for a message of the home: HBM, or a request to the host, with ownership where the grant needs it,
whose answer fills the message when it comes (R273). -/
def homeSupply (s : State) (line : Nat) (own : Bool) : State × LineVal :=
  let (s, v) := memSupply s line own ⟨[], [], 0⟩
  if isFar line then ({ s with mem := { s.mem with farRd := sins s.mem.farRd line } }, noLine) else (s, v)

/-- Ownership of a far line held shared, asked of the host before the grant leaves (R273). -/
def homeOwn (s : State) (line : Nat) : State :=
  if isFar line then { farOwn s line with mem := { s.mem with farRd := sins s.mem.farRd line } } else s

/-- The snoops and first messages of an accepted request (R263). -/
def openTxn (s : State) (k : MsgK) (a line : Nat) (v : LineVal) (mask : BitVec 128) : State × Bool :=
  let (s, d) := dirLook s line
  let t := Txn.new k a v mask
  let snp (s : State) (q : MsgK) (l : List Nat) : State := l.foldl (fun s b => sendNet s (msg q b line a noLine)) s
  let dataE (s : State) (fin : Bool) : State :=
    let (s, m) := homeSupply s line true
    sendNet s { msg .data a line 2 m with fin := fin }
  let wait (s : State) (t : Txn) : State × Bool := (putTxn s line (some t), t.wait.isEmpty)
  match k, d with
  | .rds, none => (putTxn (dirPut (dataE s true) line (dirOX a)) line (some { t with granted := true }), false)
  | .rds, some d =>
    if d.st = 1 then
      let (s, m) := homeSupply s line false
      (sendNet (dirPut s line (dirSH (addSharer d.sharers a))) (msg .data a line 1 m), false)
    else if d.owner = a then wait s t
    else wait (snp s .snps [d.owner]) { t with wait := [d.owner] }
  | .rdo, none => let (s, m) := homeSupply s line false; (sendNet s (msg .data a line 0 m), false)
  | .rdo, some d =>
    if d.st = 1 then let (s, m) := homeSupply s line false; (sendNet s (msg .data a line 0 m), false)
    else wait (snp s .snpo [d.owner]) { t with wait := [d.owner] }
  | .wru, none => (sendNet (memWrite (lineWritten s line) line v mask) (msg .comp a line 0 noLine), false)
  | .wru, some d =>
    let sh := if d.st = 2 then [] else sharerList d.sharers 96
    let own := if d.st = 1 then [] else [d.owner]
    let s := lineWritten s line
    wait (snp (snp s .snpi sh) (if mask = fullMask then .snpi else .snpx) own) { t with wait := sh ++ own }
  | .upg, some d =>
    if (d.st = 1 ∧ d.sharers.getLsbD a) ∨ (d.st = 3 ∧ (d.owner = a ∨ d.sharers.getLsbD a)) then
      let l := sharerList d.sharers a ++ (if d.st = 3 ∧ d.owner ≠ a then [d.owner] else [])
      let s := if d.st = 1 then homeOwn s line else s
      wait (sendNet (snp s .snpi l) (msg .grant a line 4 noLine)) { t with wait := l, comp := true, fwd := true }
    else if d.st = 1 then
      let l := sharerList d.sharers a
      wait (dataE (snp s .snpi l) false) { t with k := .rdu, wait := l, comp := true, fwd := true }
    else if d.owner = a then wait s { t with k := .rdu }
    else
      let l := if d.st = 3 then sharerList d.sharers a else []
      wait (snp (snp s .snpu [d.owner]) .snpi l) { t with k := .rdu, wait := d.owner :: l, comp := true }
  | .upg, none => (putTxn (dirPut (dataE s true) line (dirOX a)) line (some { t with k := .rdu, granted := true }), false)
  | _, none => (putTxn (dirPut (dataE s true) line (dirOX a)) line (some { t with granted := true }), false)
  | _, some d =>
    if d.st = 1 then
      let l := sharerList d.sharers a
      wait (dataE (snp s .snpi l) false) { t with wait := l, comp := true, fwd := true }
    else if d.owner = a then wait s t
    else
      let l := if d.st = 3 then sharerList d.sharers a else []
      wait (snp (snp s .snpu [d.owner]) .snpi l) { t with wait := d.owner :: l, comp := true }

/-- What the home does when every answer of a transaction is in: the state, and whether the transaction stays open
for a CompAck. -/
def settleTxn (s : State) (line : Nat) (t : Txn) : State × Bool :=
  let (s, d) := dirLook s line
  let sh := match d with
    | some d => if d.st = 2 then 0 else d.sharers
    | none => 0
  let own := match d with
    | some d => d.owner
    | none => 96
  match t.k with
  | .rds =>
    if t.fwd then
      let e : Option DirEnt :=
        if t.after = 3 then some ⟨3, own, addSharer sh t.req, 0, 0⟩
        else if t.after = 1 then dirSH (addSharer (addSharer sh t.req) own)
        else dirSH (addSharer sh t.req)
      (dirPut s line e, false)
    else
      let (s, m) := homeSupply s line (sh == 0)
      if sh = 0 then (sendNet (dirPut s line (dirOX t.req)) { msg .data t.req line 2 m with fin := true }, true)
      else (sendNet (dirPut s line (dirSH (addSharer sh t.req))) (msg .data t.req line 1 m), false)
  | .rdo =>
    if t.fwd then (if t.after = 0 then dirPut s line (dirSH sh) else s, false)
    else let (s, m) := homeSupply (dirPut s line (dirSH sh)) line false; (sendNet s (msg .data t.req line 0 m), false)
  | .wru =>
    let s := match t.back with
      | some o => memWrite s line o fullMask
      | none => s
    (sendNet (dirPut (memWrite s line t.v t.mask) line none) (msg .comp t.req line 0 noLine), false)
  | .wback =>
    let s := match t.back with
      | some o => memWrite s line o fullMask
      | none => s
    (dirPut s line none, false)
  | _ =>
    let s := if t.fwd then s else
      let (s, m) := homeSupply s line true
      sendNet s { msg .data t.req line 2 m with fin := !t.comp }
    let s := dirPut s line (dirOX t.req)
    (if t.comp then sendNet s (msg .comp t.req line 1 noLine) else s, true)

/-- A request accepted and carried as far as it goes at once. -/
def acceptReq (s : State) (k : MsgK) (a line : Nat) (v : LineVal) (mask : BitVec 128) : State :=
  let (s, ready) := openTxn (leaveWaits s a line) k a line v mask
  if ready then
    match mfind s.mem.txns line with
    | some t =>
      let (s, open_) := settleTxn s line t
      if open_ then putTxn s line (some { t with granted := true }) else putTxn s line none
    | none => s
  else s

/-- A request reaching its home (R263 to R271): it joins the STARVE queue where it is marked, is NACKed, waits for a
directory entry to be reused, or is accepted. -/
def arrive (s : State) (k : MsgK) (a line : Nat) (v : LineVal) (mask : BitVec 128) (starve : Bool) :
    State :=
  let h := homeOf line
  let x := homeX s h
  let mine := x.starve.contains (line, a)
  let full := starve && !mine && decide (16 ≤ x.starve.length)
  let s := if starve && !mine && !full then setHomeX s h { x with starve := x.starve ++ [(line, a)] } else s
  match (if full then some 0 else homeStops s k a line) with
  | some r => nackReq s k a line r v mask
  | none =>
    match (if entersDir k then dirVictim s line else none) with
    | some (some w) =>
      let d := (mfind s.mem.dirs w).getD ⟨1, 0, 0, 0, 0⟩
      let sh := if d.st = 2 then [] else sharerList d.sharers 96
      let own := if d.st = 1 then [] else [d.owner]
      let (r, ix) := homeCnt h
      let s := (dirLook (s.wrapInc r ix HOME_DIR_CNT.BACKINV_CNT 1) w).1
      let s := sh.foldl (fun s b => sendNet s (msg .snpi b w h noLine)) s
      let s := own.foldl (fun s b => sendNet s (msg .snpx b w h noLine)) s
      putReq (putTxn s w (some { Txn.new .wback h noLine 0 with wait := sh ++ own, evict := some (k, a, line) }))
        (heldReq s k a line starve v mask)
    | _ => acceptReq s k a line v mask

/-- The winner of the pending-grant slot of a line (R266): the first recorded agent at or after the pointer. -/
def slotWinner (s : State) (line : Nat) : Option Nat :=
  let h := homeOf line
  let (r, ix) := homeStat h
  let p := s.fld r ix HOME_DIR_STAT.PRIO_PTR
  let ids := ((homeX s h).pend.filter (fun e => e.1 == line)).map (·.2)
  (List.range 96).findSome? (fun i => let a := (p + i) % 96; if ids.contains a then some a else none)

/-- A request that waits at its agent or its home is served by the home itself. -/
def serveWaiting (s : State) (a line : Nat) : State :=
  match findReq s a line with
  | some q => if q.whole then s else arrive s q.k a line q.v q.mask q.starve
  | none => s

/-- What a home serves of itself once a line has neither an open transaction nor, where it would snoop the owner, a hold:
the STARVE request that came first (R268), else the winner of the pending-grant slot (R266). The spec has the slot
served when the blocking transaction closes; where that starts a hold of R265, it is served when the hold ends (DESIGN
CHOICE, assumption 158). -/
def homeNext (s : State) (line : Nat) : State :=
  let h := homeOf line
  match (homeX s h).starve.find? (fun p => p.1 == line) with
  | some (_, a) => if (homeStops s .rdu a line).isSome then s else serveWaiting s a line
  | none =>
    match slotWinner s line with
    | none => s
    | some a =>
      if homeStops s .rdu a line = some 1 then s
      else
        let (r, ix) := homeStat h
        let x := homeX s h
        let s := setHomeX s h { x with pend := x.pend.filter (fun e => e.1 != line) }
        serveWaiting (s.setFld r ix HOME_DIR_STAT.PRIO_PTR ((a + 1) % 96)) a line

/-- A transaction closes (R264): a request that waited for the entry goes on (R271), and the home serves what waits. -/
def closeTxn (s : State) (line : Nat) : State :=
  let ev := match mfind s.mem.txns line with
    | some t => t.evict
    | none => none
  let s := putTxn s line none
  homeNext (match ev with
    | some (_, a, l) => serveWaiting s a l
    | none => s) line

/-- The transactions of WBs and EvCs close with the FC cycle in which they arrived (R264). -/
def closeWbs (s : State) : State :=
  (s.mem.txns.filter (fun p => p.2.k == .wb || p.2.k == .evc)).foldl (fun s p => closeTxn s p.1) s

/-- Whether an agent is in a state in which it issues a request (R258, R259): a Pier I/O agent takes a line only for
read-modify-write work, and at most 64. -/
def issues (s : State) (k : MsgK) (a line : Nat) : Bool :=
  let st := match agentLine s a line with
    | some c => c.st
    | none => 0
  a == 73 ||
  (match k with
    | .rds => st == 0 && decide (a < 74)
    | .rdu => decide (st ≤ 1) && (decide (a < 74) || decide ((agentLines s a).length < 64))
    | .upg => st == 1 || st == 3
    | _ => st == 0)

/-- A request row: it reaches its home unless the agent already waits, in a state in which it is issued (R258). -/
def reqRow (s : State) (k : MsgK) (a line : Nat) (v : LineVal) (mask : BitVec 128) : State :=
  let inVeb := decide (a < 8) && (vebFind s a line).isSome
  let busy := match mfind s.mem.txns line with
    | some t => t.req == a && t.evict.isNone && t.k != .wb && t.k != .evc
    | none => false
  if s.live && agentOk s a && issues s k a line && !inVeb && !busy && (findReq s a line).isNone then
    arrive s k a line v mask false
  else s

/-- RDS. -/
def execRds (a line : Nat) (s : State) : Host.Outcome State Fault Refusal :=
  .next (reqRow s .rds a line noLine 0)
/-- RDU. -/
def execRdu (a line : Nat) (s : State) : Host.Outcome State Fault Refusal :=
  .next (reqRow s .rdu a line noLine 0)
/-- UPG. -/
def execUpg (a line : Nat) (s : State) : Host.Outcome State Fault Refusal :=
  .next (reqRow s .upg a line noLine 0)
/-- RDO. -/
def execRdo (a line : Nat) (s : State) : Host.Outcome State Fault Refusal :=
  .next (reqRow s .rdo a line noLine 0)
/-- WRU. -/
def execWru (a line : Nat) (v : BitVec 1024) (mask : BitVec 128) (pz : BitVec 4) (s : State) :
    Host.Outcome State Fault Refusal :=
  .next (reqRow s .wru a line ⟨v, pz, 0⟩ mask)

/-- A transaction whose answers are all in is settled: it stays open for a CompAck, or closes. -/
def finishTxn (s : State) (line : Nat) (t : Txn) : State :=
  let (s, o) := settleTxn s line t
  if o then putTxn s line (some { t with granted := true }) else closeTxn s line

/-- A WB at its home (R263, R264, R277): it is taken whatever transaction is open, and opens its own where none is. The
WB that a snoop found already sent completes the answer to that snoop. -/
def wbHome (s : State) (a line : Nat) (v : LineVal) : State :=
  match mfind s.mem.txns line with
  | some t =>
    if t.wbWait = some a then
      let s := memWrite s line v fullMask
      let t := { t with wbWait := none }
      if t.wait.isEmpty then finishTxn s line t else putTxn s line (some t)
    else putTxn (serveWb s a line v) line (some { t with wbGot := a :: t.wbGot })
  | none => putTxn (serveWb s a line v) line (some (Txn.new .wb a noLine 0))

/-- An EvC at its home (R263, R264). -/
def evcHome (s : State) (a line : Nat) : State :=
  let s := serveEvc s a line
  if lineFree s line then putTxn s line (some (Txn.new .evc a noLine 0)) else s

/-- WB (R260, R263, R277): an agent's dirty line reaches the home: from the buffer of a Span cache (already issued),
from another agent's copy, or from the host with its data. -/
def execWb (a line : Nat) (v : BitVec 1024) (s : State) : Host.Outcome State Fault Refusal :=
  .next (
    if !(s.live && agentOk s a) then s
    else if a < 8 then
      match vebFind s a line with
      | some e =>
        if e.sent && !s.mem.net.any (fun m => m.k == .wback && m.agent == a && m.line == line) then
          sendNet (wbHome s a line e.v) (msg .wback a line 0 noLine) else s
      | none => s
    else if a = 73 then
      match mfind s.mem.dirs line with
      | some d => if 2 ≤ d.st ∧ d.owner = 73 then wbHome s a line (.clean v) else s
      | none => s
    else match hitLine s a line with
      | (s1, some c) => if 3 ≤ c.st ∧ c.comp then wbHome (dropCopy s1 a line) a line c.v else s
      | (_, none) => s)

/-- EVC (R260, R263). -/
def execEvc (a line : Nat) (s : State) : Host.Outcome State Fault Refusal :=
  .next (
    if !(s.live && agentOk s a) then s
    else if a = 73 then evcHome s a line
    else match agentLine s a line with
      | some c => if c.st = 2 ∧ c.comp then evcHome (dropCopy s a line) a line else s
      | none => s)

/-- The CompAck of an agent at the home (R264, R265): the hold of 32 FC cycles starts and the transaction closes. -/
def compackRow (s : State) (a line : Nat) : State :=
  match mfind s.mem.txns line with
  | some t =>
    if t.granted ∧ t.req = a then
      match (if a = 73 then some (msg .compack a line 0 noLine, s) else takeNet s .compack a line) with
      | some (_, s) => closeTxn (startHold s line) line
      | none => s
    else s
  | none => s

/-- COMPACK. -/
def execCompack (a line : Nat) (s : State) : Host.Outcome State Fault Refusal := whenLive s (compackRow s a line)

/-! Snoops at agents. -/

/-- A snoop reaching an agent (R259, R260, R277): data goes to the requester, or back to the home under SnpX, and
the state to the home. The host's snoop leaves the module, as a back-invalidate snoop in CXL mode (R275). -/
def snoopRow (s : State) (k : MsgK) (a line : Nat) : State :=
  if !s.live then s
  else match takeNet s k a line with
    | none => s
    | some (m, s) =>
      if a = 73 then s.send (.coh (farKind s (match k with
          | .snps => 0
          | .snpu => 1
          | .snpi => 2
          | .snpx => 3
          | _ => 4)) 73 line [m.arg])
      else
        let r := snoop s k a line
        let fwd := r.fwd.isSome && k != .snpx
        let s := match r.fwd with
          | some v =>
            if k = .snpx then r.s
            else
              let g := if k = .snps then 1 else if k = .snpu then (if r.dirty then 4 else 2) else 0
              sendNet r.s (msg .fwddata m.arg line g v)
          | none => r.s
        let kind : MsgK := if k = .snpx ∧ r.fwd.isSome then .rspdata
          else if r.after = 0 then .rspi else if r.after = 1 then .rsps else .rspo
        sendNet s { msg kind a line r.after (r.fwd.getD noLine) with fwd := fwd, wbSent := r.wbSent }

/-- SNPS. -/
def execSnps (a line : Nat) (s : State) : Host.Outcome State Fault Refusal := .next (snoopRow s .snps a line)
/-- SNPU. -/
def execSnpu (a line : Nat) (s : State) : Host.Outcome State Fault Refusal := .next (snoopRow s .snpu a line)
/-- SNPI. -/
def execSnpi (a line : Nat) (s : State) : Host.Outcome State Fault Refusal := .next (snoopRow s .snpi a line)
/-- SNPX. -/
def execSnpx (a line : Nat) (s : State) : Host.Outcome State Fault Refusal := .next (snoopRow s .snpx a line)
/-- SNPO. -/
def execSnpo (a line : Nat) (s : State) : Host.Outcome State Fault Refusal := .next (snoopRow s .snpo a line)

/-! Responses at homes. -/

/-- A response reaching the home (R262, R263, R277). -/
def respRow (s : State) (k : MsgK) (a line : Nat) (h : CohMsg) : State :=
  if !s.live then s
  else match mfind s.mem.txns line with
    | none => s
    | some t =>
      if !t.wait.contains a then s
      else
        match (if a = 73 then some (h, s) else takeNet s k a line) with
        | none => s
        | some (m, s) =>
          let s := if a = 73 && m.fwd then sendNet s (msg .fwddata t.req line
            (if t.k = .rds then 1 else if t.k = .rdo then 0 else 4) m.v) else s
          let own := match mfind s.mem.dirs line with
            | some d => decide (2 ≤ d.st) && d.owner == a
            | none => false
          let t := { t with
            wait := t.wait.erase a
            fwd := t.fwd || m.fwd
            after := if own then (if a = 73 then (match k with | .rsps => 1 | .rspo => 3 | _ => 0) else m.arg)
              else t.after
            back := if k = .rspdata then some m.v else t.back
            wbWait := if m.wbSent && !t.wbGot.contains a then some a else t.wbWait }
          let s := putTxn s line (some t)
          if t.wait.isEmpty ∧ t.wbWait = none then finishTxn s line t else s

/-- The host's own response as a message. -/
def hostRsp (k : MsgK) (a line : Nat) (fwd wb : Bool) (v : BitVec 1024) : CohMsg :=
  ⟨k, line, a, 0, fwd, wb, false, .clean v⟩

/-- RSPI. -/
def execRspi (a line : Nat) (fwd : Bool) (v : BitVec 1024) (s : State) : Host.Outcome State Fault Refusal :=
  .next (respRow s .rspi a line (hostRsp .rspi a line fwd false v))
/-- RSPS. -/
def execRsps (a line : Nat) (fwd : Bool) (v : BitVec 1024) (s : State) : Host.Outcome State Fault Refusal :=
  .next (respRow s .rsps a line (hostRsp .rsps a line fwd false v))
/-- RSPO. -/
def execRspo (a line : Nat) (fwd : Bool) (v : BitVec 1024) (s : State) : Host.Outcome State Fault Refusal :=
  .next (respRow s .rspo a line (hostRsp .rspo a line fwd false v))
/-- RSPDATA. -/
def execRspdata (a line : Nat) (v : BitVec 1024) (s : State) : Host.Outcome State Fault Refusal :=
  .next (respRow s .rspdata a line (hostRsp .rspdata a line false false v))

/-! Grants at agents. -/

/-- A line installed in an agent with the state granted; `none` when a Span cache must wait for its buffer. -/
def install (s : State) (a line st : Nat) (v : LineVal) (comp : Bool) : Option State :=
  let s? := if 8 ≤ a then fillAgent s a line st v else if spanOn s a then fillSpan s a line st v else some s
  s?.map (fun s =>
    match agentLine s a line with
    | some c => putLine s a line { c with comp := comp }
    | none => s)

/-- Data that would leave over Claden-C (R306): error-marked data is consumed instead. -/
def hostGets (s : State) (line : Nat) (v : Option LineVal) (k : State) : State :=
  match v with
  | some v =>
    (match (List.range 4).find? (fun i => v.er.getLsbD i) with
     | some i => if isFar line then k else consume s (line * 4 + i)
     | none => k)
  | none => k

/-- Data reaching its requester (R259, R263): granted E or M without a Comp to come, it is acknowledged. -/
def dataRow (s : State) (k : MsgK) (a line : Nat) : State :=
  if !s.live then s
  else match takeNet s k a line with
    | none => s
    | some (m, s1) =>
      if a = 73 then hostGets s1 line (some m.v) (s1.send (.coh 5 73 line [m.arg]))
      else if m.arg = 0 then s1
      else
        let fin := m.arg = 1 ∨ m.fin
        match install s1 a line m.arg m.v (decide fin) with
        | none => s
        | some s2 => if 2 ≤ m.arg ∧ m.fin then sendNet s2 (msg .compack a line 0 noLine) else s2

/-- DATA. -/
def execData (a line : Nat) (s : State) : Host.Outcome State Fault Refusal := .next (dataRow s .data a line)
/-- FWDDATA. -/
def execFwddata (a line : Nat) (s : State) : Host.Outcome State Fault Refusal := .next (dataRow s .fwddata a line)

/-- Ownership without data reaching its requester (R263): writes wait for Comp. -/
def grantRow (s : State) (a line : Nat) : State :=
  match takeNet s .grant a line with
  | none => s
  | some (_, s) =>
    match agentLine s a line with
    | some c => putLine s a line { c with st := 4, comp := false }
    | none => s

/-- GRANT. -/
def execGrant (a line : Nat) (s : State) : Host.Outcome State Fault Refusal := whenLive s (grantRow s a line)

/-- Comp reaching its requester (R263): the line is owned, and the home learns that it is installed. -/
def compRow (s : State) (a line : Nat) : State :=
  match takeNet s .comp a line with
  | none => s
  | some (m, s) =>
    if a = 73 then s.send (.coh 6 73 line [])
    else
      let s := match agentLine s a line with
        | some c => putLine s a line { c with comp := true }
        | none => s
      if m.arg = 1 then sendNet s (msg .compack a line 0 noLine) else s

/-- COMP. -/
def execComp (a line : Nat) (s : State) : Host.Outcome State Fault Refusal := whenLive s (compRow s a line)

/-- NACK (R267, R268) reaching its requester. -/
def execNack (a line : Nat) (s : State) : Host.Outcome State Fault Refusal :=
  whenLive s (match takeNet s .nack a line with
    | none => s
    | some (_, s) => match findReq s a line with
      | none => s
      | some r => nackAgent s r)

/-- NACK_RETRY (R267, R268): the same request again, unless its agent has got the line meanwhile. -/
def execNackRetry (a line : Nat) (s : State) : Host.Outcome State Fault Refusal :=
  whenLive s (match findReq s a line with
    | some r =>
      if !r.waiting ∨ r.whole then s
      else if issues s r.k a line then arrive s r.k a line r.v r.mask r.starve
      else leaveWaits s a line
    | none => s)

/-- An access of an agent that its home does not take: the NACK of its request (R264 to R270). The agent puts it again, by
a retry of the request or, as one that allocates nothing does, by the access itself. -/
def accessNack (s : State) (k : MsgK) (a line : Nat) (v : LineVal) (mask : BitVec 128) : State :=
  match homeStops s k a line with
  | none => s
  | some r =>
    if (findReq s a line).any (fun q => !q.waiting) then s
    else
      let q := { heldReq s k a line false v mask with whole := !entersDir k }
      nackAgent (nackHome (putReq s q) k a line r) q

/-- WIN_HOLD_EXPIRE (R265, R268): the hold of a line ends, and the home serves what waits for it. -/
def execWinHoldExpire (line : Nat) (s : State) : Host.Outcome State Fault Refusal :=
  whenLive s (
    if (mfind s.mem.holds line).isNone then s
    else homeNext { s with mem := { s.mem with holds := mdel s.mem.holds line } } line)

/-! Lines brought to rest. -/

/-- A message of a line delivered. -/
def deliver (s : State) (m : CohMsg) : State :=
  match m.k with
  | .snps => snoopRow s .snps m.agent m.line
  | .snpu => snoopRow s .snpu m.agent m.line
  | .snpi => snoopRow s .snpi m.agent m.line
  | .snpx => snoopRow s .snpx m.agent m.line
  | .snpo => snoopRow s .snpo m.agent m.line
  | .data => dataRow s .data m.agent m.line
  | .fwddata => dataRow s .fwddata m.agent m.line
  | .grant => grantRow s m.agent m.line
  | .comp => compRow s m.agent m.line
  | .compack => compackRow s m.agent m.line
  | .nack => s
  | .wback => match takeNet s .wback m.agent m.line with
    | some (_, s) => vebPut s m.agent m.line none
    | none => s
  | k => respRow s k m.agent m.line m

/-- Whether something of a line is under way. -/
def lineBusy (s : State) (line : Nat) : Bool :=
  !lineFree s line || s.mem.net.any (fun m => m.line == line && m.k != .nack)

/-- The transaction of a line and its messages go on as far as they can without the host. -/
def settleLine (s : State) (line : Nat) : State :=
  (List.range 16).foldl (fun s _ =>
    if !lineBusy s line then s
    else
      let s := (s.mem.net.filter (fun m => m.line == line && !(m.agent == 73 && !toHome m.k))).foldl deliver s
      match mfind s.mem.txns line with
      | some t => if t.k = .wb ∨ t.k = .evc then closeTxn s line else s
      | none => s) s

/-- What is under way on a line and waits for the host is given up: dirty data under way goes to memory, and the request
is put again by its agent. -/
def cancelLine (s : State) (line : Nat) : State :=
  if !lineBusy s line then s
  else
    let ms := s.mem.net.filter (fun m => m.line == line && m.k != .nack && m.k != .wback)
    let t? := mfind s.mem.txns line
    let s := { putTxn s line none with mem := { (putTxn s line none).mem with
      net := s.mem.net.filter (fun m => !ms.contains m), farRd := sdel s.mem.farRd line } }
    let s := ms.foldl (fun s (m : CohMsg) =>
      if m.k = .rspdata ∨ (m.k = .fwddata ∧ m.arg = 4) then memWrite s line m.v fullMask else s) s
    match t? with
    | some t =>
      let s := match t.back with
        | some o => memWrite s line o fullMask
        | none => s
      if t.k = .wback ∨ t.k = .wb ∨ t.k = .evc then s
      else putReq s ⟨t.req, line, t.k, 0, false, true, t.v, t.mask, !entersDir t.k⟩
    | none => s

/-- Every copy of a line recalled to memory, whatever was under way on it (R271, R276). -/
def recallWhole (s : State) (line : Nat) : State := recallLine (cancelLine (settleLine s line) line) line

/-- The lines on which something is under way. -/
def busyLines (s : State) : List Nat :=
  ((s.mem.txns.map (·.1)) ++ (s.mem.net.filter (fun m => m.k != .nack)).map (·.line)).dedup

/-- VEB_WRITEBACK (R284): the oldest waiting entry of a Span issues its WB. -/
def execVebWriteback (span : Nat) (s : State) : Host.Outcome State Fault Refusal :=
  whenLive s (match s.mem.vebs.find? (fun e => e.span == span && !e.sent) with
    | some e => vebPut s span e.line (some { e with sent := true })
    | none => s)

/-- WB_ACCEPTED (R284): the acceptance reaches the buffer and its entry is freed. -/
def execWbAccepted (span line : Nat) (s : State) : Host.Outcome State Fault Refusal :=
  whenLive s (match takeNet s .wback span line with
    | some (_, s) => vebPut s span line none
    | none => s)

/-! The host as an agent. -/

/-- HOST_SNOOP (R273): the far home waits for an open transaction and the hold, snoops the module's holders and
answers. `inv`: the host takes the line for itself; otherwise it reads it and holders keep shared copies. -/
def execHostSnoop (line : Nat) (inv : Bool) (s : State) : Host.Outcome State Fault Refusal :=
  whenLive s (
    if !isFar line ∨ lineBusy s line ∨ heldLine s line then s
    else match dirLook s line with
      | (s, none) => s.send (.coh 7 73 line [0])
      | (s, some d) =>
        if inv then
          let r : SnpR := if d.st = 1 then ⟨s, 0, none, false, false⟩ else snoopDone s .snpx d.owner line
          let s := dirPut (invAll r.s (sharerList (if d.st = 2 then 0 else d.sharers) 96) line) line none
          hostGets s line r.fwd (s.send (.coh 7 73 line (match r.fwd with
            | some v => [1, v.data.toNat, v.pz.toNat]
            | none => [0])))
        else if d.st = 1 then s.send (.coh 7 73 line [2])
        else
          let r := snoopDone s .snps d.owner line
          let sh := if d.st = 3 then d.sharers else 0
          let e : Option DirEnt := if r.after = 3 then some ⟨3, d.owner, sh, 0, 0⟩
            else if r.after = 1 then dirSH (addSharer sh d.owner) else dirSH sh
          hostGets r.s line r.fwd ((dirPut r.s line e).send (.coh 7 73 line (match r.fwd with
            | some v => [3, v.data.toNat, v.pz.toNat]
            | none => [2]))))

/-- The loss of the host agent at one directory line (R274). -/
def hostLostLine (s : State) (line : Nat) (d : DirEnt) : State :=
  let s := (dirLook s line).1
  if isFar line then
    let s := if 2 ≤ d.st then dropCopy s d.owner line else s
    let s := (sharerList (if d.st = 2 then 0 else d.sharers) 96).foldl (fun s a => dropCopy s a line) s
    dirPut s line none
  else if 2 ≤ d.st ∧ d.owner = 73 then
    let (r, ix) := homeStat (homeOf line)
    let s := if markOk s line then
        (markLine s (unitHbm (homeOf line) 0x41) line).satInc r ix HOME_DIR_STAT.HOST_POISON_CNT 1
      else markDrop s (unitHbm (homeOf line) 0x41) line
    dirPut s line (if d.st = 3 then dirSH d.sharers else none)
  else if d.sharers.getLsbD 73 then
    let v := d.sharers &&& ~~~(BitVec.ofNat 96 (2 ^ 73))
    dirPut s line (if d.st = 1 then dirSH v else some { d with sharers := v })
  else s

/-- The loss of the host agent (R274): agent 73 leaves every directory and what it owned is poisoned, then its open
transactions are answered as RspI; the far home drops its lines. -/
def hostAgentLost (s : State) : State :=
  let s := s.mem.dirs.foldl (fun s p => hostLostLine s p.1 p.2) s
  let waits := (s.mem.txns.filter (fun p => p.2.wait.contains 73)).map (·.1)
  let s := waits.foldl (fun s l => respRow s .rspi 73 l (hostRsp .rspi 73 l false false 0)) s
  let s := (s.mem.txns.filter (fun p => p.2.wbWait == some 73)).foldl (fun s p => finishTxn s p.1 { p.2 with wbWait := none }) s
  let s := (s.mem.txns.filter (fun p => p.2.req == 73)).foldl (fun s p => closeTxn s p.1) s
  { s with mem := { s.mem with net := s.mem.net.filter (fun m => m.agent != 73)
                               reqs := s.mem.reqs.filter (fun r => r.agent != 73)
                               farPend := [] } }

/-- HOST_SNOOP_TIMEOUT (R274): a snoop to agent 73 unanswered for 200 us. -/
def execHostSnoopTimeout (line : Nat) (s : State) : Host.Outcome State Fault Refusal :=
  whenLive s (match mfind s.mem.txns line with
    | some t =>
      if t.wait.contains 73 then recordAt (hostAgentLost s) (unitPier 0 0x0C) 2 0x11 0 none else s
    | none => s)

/-- INJ_CE (R272): a write of HOME_DIR_CTL.INJ_CE of a home. -/
def execInjCe (home : Nat) (s : State) : Host.Outcome State Fault Refusal :=
  whenLive s (if home < s.asm.stacks ∨ home = 12 then setHomeX s home { homeX s home with injCe := true } else s)

/-- INJ_UE (R272). -/
def execInjUe (home : Nat) (s : State) : Host.Outcome State Fault Refusal :=
  whenLive s (if home < s.asm.stacks ∨ home = 12 then setHomeX s home { homeX s home with injUe := true } else s)

end Sys2Proof.Machine
end

