-- ==== Sys2Proof/Machine/Tension.lean ====
section
/-!
DEFINITION. Machine/Tension.lean: Tension and the hardware under it: caps and control steps (R25 to R27, R416 to R420,
R431), the estimate and the guard (R418, R429), voltage and frequency changes (R421 to R424), droop (R425, R426) and the
emergencies (R427, R428, R430).
-/

namespace Sys2Proof.Machine

/-! Rates. -/

/-- The cap of a power mode (R25): FULL, FIXED, LEAN. -/
def modeCap (a : Assembly) (mode : Nat) : Nat :=
  match a, mode with
  | .a08, 0 => 3000
  | .a08, 1 => 2800
  | .a08, _ => 2000
  | .b10, 0 => 3300
  | .b10, 1 => 3000
  | .b10, _ => 2200
  | .x12, 0 => 3600
  | .x12, 1 => 3200
  | .x12, _ => 2400

/-- The cap that a mode and USER_CAP_W give (R416). -/
def capOf (s : State) (mode : Nat) : Nat :=
  let u := s.fld .TNS_CAP [] TNS_CAP.USER_CAP_W
  let c := modeCap s.asm mode
  if u = 0 then c else min c u

/-- AC of a Span: the PLL that feeds its clock root. -/
def acMhz (s : State) (p : Nat) : Nat := s.fld .SPAN_PWR_STAT [p] SPAN_PWR_STAT.AC_MHZ

/-- KC of a core group. -/
def kcMhz (s : State) (g : Nat) : Nat := mget 3000 s.pwr.kc g

/-- The alert line is asserted or in its hold (R427). -/
def vraActive (s : State) : Bool := s.bit .TNS_EVENT [] TNS_EVENT.VRA_ACTIVE

/-- A unit is held at the floor of 400 MHz (R380, R427, R428). -/
def unitLimited (s : State) (u : Nat) : Bool :=
  vraActive s || s.pwr.lim.contains 24 || s.pwr.lim.contains 25 || s.pwr.lim.contains u

/-- The edge rate of a Span: the lowest that any emergency action allows, and half of it while cycles are stretched
(R425, R427 to R430). -/
def effMhz (s : State) (p : Nat) : Nat :=
  let ac := acMhz s p
  let e := if unitLimited s p then min ac 400 else ac
  let e := min e (ac - s.pwr.guard * ac / 16)
  if s.bit .SPAN_PWR_STAT [p] SPAN_PWR_STAT.DROOP_ACT then e / 2 else e

/-- Whether a core group is on (R411). -/
def coreGroupOn (s : State) (g : Nat) : Bool := (s.fld .KST_PD_CTL [] KST_PD_CTL.CORE_PD_ON >>> g) % 2 == 1

/-- EFF_MHZ of every Span and KC_MHZ of every core follow the rates in force. -/
def pwrSync (s : State) : State :=
  let s := (List.range 8).foldl (fun s p => s.setFld .SPAN_PWR_STAT [p] SPAN_PWR_STAT.EFF_MHZ (effMhz s p)) s
  (List.range 64).foldl (fun s c =>
    let g := c / 8
    let kc := if unitLimited s (8 + g) then min (kcMhz s g) 400 else kcMhz s g
    s.setFld .KST_CORE_STAT [c] KST_CORE_STAT.KC_MHZ (if coreGroupOn s g then kc else 0)) s

/-- A departure from 940 MHz while FIXED is in force (R26, R430). -/
def fixedBreak (s : State) : State :=
  if s.pwr.mode = 1 then s.setFld .KST_PWR_MODE [] KST_PWR_MODE.FIXED_BREAK 1 else s

/-! Voltage (R421, R422). -/

/-- Frequency and voltage of a point of a Span's curve. -/
def vfPoint (s : State) (p n : Nat) : Nat × Nat :=
  (s.fld .SPAN_VF_CURVE [p, n] SPAN_VF_CURVE.FREQ_MHZ,
   s.fld .SPAN_VF_CURVE [p, n] SPAN_VF_CURVE.VOLT_MV + s.fld .SPAN_VF_CURVE [p, n] SPAN_VF_CURVE.AGE_MV)

/-- The voltage at a frequency: linear between the two points that enclose it, rounded up to a multiple of 5 mV. -/
def vfVolt (s : State) (p mhz : Nat) : Nat :=
  match (List.range 15).find? (fun i => decide ((vfPoint s p i).1 ≤ mhz) && decide (mhz ≤ (vfPoint s p (i + 1)).1)) with
  | some i =>
    let a := vfPoint s p i
    let b := vfPoint s p (i + 1)
    let d := b.1 - a.1
    ((a.2 * d + (b.2 - a.2) * (mhz - a.1)) + 5 * d - 1) / (5 * d) * 5
  | none => (vfPoint s p 15).2

/-- A rail's set voltage; core groups have no register for theirs. -/
def setVolt (s : State) (u mv : Nat) : State :=
  if u < 8 then s.setFld .SPAN_PWR_STAT [u] SPAN_PWR_STAT.VOLT_MV mv else s

/-! Frequency changes (R424). Units: Spans 0 to 7, core groups 8 to 15. -/

/-- The PLL frequency of a unit. -/
def unitMhz (s : State) (u : Nat) : Nat := if u < 8 then acMhz s u else kcMhz s (u - 8)

/-- The root of a unit switches to a frequency; a Span that leaves 940 MHz while FIXED stays in force breaks it (R26). -/
def setUnitMhz (s : State) (u mhz : Nat) : State :=
  if u < 8 then
    let s := if mhz ≠ 940 ∧ (s.pwr.next.map (·.1)).getD 1 = 1 then fixedBreak s else s
    s.setFld .SPAN_PWR_STAT [u] SPAN_PWR_STAT.AC_MHZ mhz
  else { s with pwr := { s.pwr with kc := mset 3000 s.pwr.kc (u - 8) mhz } }

/-- The change of a unit. -/
def chgOf (s : State) (u : Nat) : Option FreqChg := mfind s.pwr.chg u

/-- A change put, or ended. -/
def putChg (s : State) (u : Nat) (c : Option FreqChg) : State :=
  { s with pwr := { s.pwr with chg := match c with
      | some c => mins s.pwr.chg u c
      | none => mdel s.pwr.chg u } }

/-- The detectors of a unit are quiet (R426); core groups have none. -/
def quiet (s : State) (u : Nat) : Bool := !s.pwr.trips.contains u

/-- Mode and cap of a step come into force when its last frequency change has ended (R416, R431's example); PENDING
clears once the mode in force is the one written. FIXED that comes into force with a Span kept below 940 MHz is broken
(R26, R430). -/
def stepEnd (s : State) : State :=
  match s.pwr.next with
  | none => s
  | some (m, cap) =>
    if s.pwr.chg ≠ [] then s
    else
      let enters := m == 1 && s.pwr.mode != 1
      let s := { s with pwr := { s.pwr with mode := m, next := none } }
      let s := if enters && (List.range 8).any (fun p => effMhz s p != 940) then fixedBreak s else s
      let s := s.setFld .TNS_CAP [] TNS_CAP.CAP_W cap
      s.setFld .KST_PWR_MODE [] KST_PWR_MODE.PENDING (b2n (s.fld .KST_PWR_MODE [] KST_PWR_MODE.MODE != m))

/-- The frequency that software asks of a unit (R420). -/
def target (s : State) (u : Nat) : Nat :=
  if u < 8 then s.fld .SPAN_PWR_CTL [u] SPAN_PWR_CTL.TARGET_MHZ
  else s.fld .KST_KC_TARGET [] (KST_KC_TARGET.MHZ_50.shift 8 (u - 8)) * 50

/-- A change whose next event waits only for quiet detectors goes on (R424, R426). -/
def chgQuiet (s : State) (u : Nat) : State :=
  match chgOf s u with
  | none => s
  | some c =>
    if !quiet s u then s
    else match c.ph with
      | 1 => putChg s u (some { c with ph := 2 })
      | 3 =>
        let rise := decide (unitMhz s u < c.mhz)
        let s := setUnitMhz s u c.mhz
        if rise then stepEnd (pwrSync (putChg s u none))
        else pwrSync (setVolt (putChg s u (some { c with ph := 4 })) u c.mv)
      | _ => s

/-- A change that starts: rising raises the voltage first, falling locks first. -/
def startChg (s : State) (u mhz : Nat) : State :=
  if unitMhz s u = mhz then s
  else
    let mv := if u < 8 then vfVolt s u mhz else 0
    if unitMhz s u < mhz then setVolt (putChg s u (some ⟨mhz, mv, 0⟩)) u mv
    else chgQuiet (putChg s u (some ⟨mhz, mv, 1⟩)) u

/-- A change that has not switched ends: the old frequency stands, at its own voltage, and the step it belonged to is
decided again. -/
def dropChg (s : State) (u : Nat) : State :=
  match chgOf s u with
  | none => s
  | some c => if c.ph = 4 then s else
      let s := putChg { s with pwr := { s.pwr with next := none } } u none
      if u < 8 then setVolt s u (vfVolt s u (acMhz s u)) else s

/-- The guard's projection: 9 ms of the past and 1 ms at the present estimate (R429). -/
def projection (s : State) : Nat := ((s.pwr.est.take 9000).sum + 1000 * s.pwr.est.headD 0) / 10000

/-- The projection has reached the cap in force. -/
def overCap (s : State) : Bool := decide (s.fld .TNS_CAP [] TNS_CAP.CAP_W ≤ projection s)

/-! Control steps (R419, R431). -/

/-- KMH1 runs (R380). -/
def kmh1Runs (s : State) : Bool := (s.fld .KST_HART_STAT [] KST_HART_STAT.RUN >>> 1) % 2 == 1

/-- A step is taken: frequency changes start, and mode and cap follow when they have ended. A unit whose change still
runs toward another frequency leaves mode and cap to a later step. -/
def takeStep (s : State) (d : CapStep) : State :=
  let clash := s.pwr.chg.any (fun p =>
    (if p.1 < 8 then d.acs.getD p.1 0 else d.kcs.getD (p.1 - 8) 0) != p.2.mhz)
  let s := { s with pwr := { s.pwr with defer := none, next := if clash then none else some (d.mode, d.cap) } }
  let s := (List.range 8).foldl (fun s p => if (chgOf s p).isSome then s else startChg s p (d.acs.getD p (acMhz s p))) s
  let s := (List.range 8).foldl (fun s g =>
    if (chgOf s (8 + g)).isSome then s else startChg s (8 + g) (d.kcs.getD g (kcMhz s g))) s
  stepEnd (pwrSync s)

/-- The length of a deferral counts in DEFER_US. -/
def deferUs (s : State) (us : Nat) : State := s.wrapInc .TNS_DEFER [] TNS_DEFER.DEFER_US us

/-- KST_COLL_BUSY reads zero: a deferred step is taken (R431). -/
def deferEnd (s : State) : State :=
  match s.pwr.defer with
  | none => s
  | some d => takeStep (deferUs s ((s.clk.fc - d.since) / fcUs)) d

/-- Whether a step lowers a frequency or the cap (R419). -/
def lowers (s : State) (d : CapStep) : Bool :=
  (List.range 8).any (fun p => decide (d.acs.getD p (acMhz s p) < acMhz s p)) ||
  (List.range 8).any (fun g => decide (d.kcs.getD g (kcMhz s g) < kcMhz s g)) ||
  decide (d.cap < s.fld .TNS_CAP [] TNS_CAP.CAP_W)

/-- A step that Tension, or software that owns it, asks for: one that lowers anything waits for collectives (R431). A
step that lowers nothing is never deferred, and replaces one that was. -/
def askStep (s : State) (d : CapStep) : State :=
  if lowers s d && s.rd .KST_COLL_BUSY [] != 0 && decide (s.pwr.noDefer ≤ s.clk.fc) then
    match s.pwr.defer with
    | some o => { s with pwr := { s.pwr with defer := some { d with since := o.since } } }
    | none =>
      { s.satInc .TNS_DEFER [] TNS_DEFER.DEFER_CNT 1 with
        pwr := { s.pwr with defer := some { d with since := s.clk.fc } } }
  else
    let s := match s.pwr.defer with
      | some o => deferUs s ((s.clk.fc - o.since) / fcUs)
      | none => s
    takeStep s d

/-- The frequencies of the Spans or groups, as they are or are becoming. -/
def heading (s : State) (lo : Nat) : List Nat :=
  (List.range 8).map (fun i => match chgOf s (lo + i) with
    | some c => c.mhz
    | none => unitMhz s (lo + i))

/-- Software that owns Tension moves one unit (R420): a higher frequency at once, a lower one as a cap step. -/
def ownStep (s : State) (u mhz : Nat) : State :=
  if (chgOf s u).isSome then s
  else
    let s := match s.pwr.defer with
      | some d => { s with pwr := { s.pwr with defer := some (if u < 8 then { d with acs := d.acs.set u mhz }
                                                             else { d with kcs := d.kcs.set (u - 8) mhz }) } }
      | none => s
    if mhz < unitMhz s u then
      (match s.pwr.defer with
       | some _ => s
       | none =>
         let acs := heading s 0
         let kcs := heading s 8
         pwrSync (askStep s ⟨s.pwr.mode, s.fld .TNS_CAP [] TNS_CAP.CAP_W, if u < 8 then acs.set u mhz else acs,
           if u < 8 then kcs else kcs.set (u - 8) mhz, 0⟩))
    else pwrSync (startChg s u mhz)

/-- A unit whose change has ended goes on to the frequency asked of it since. -/
def ownFollow (s : State) (u : Nat) : State :=
  if s.owned 0 ∧ s.pwr.defer = none then ownStep s u (target s u) else s

/-- A legal AC frequency of a Span: in steps of 10 MHz from 400 MHz to FMAX_MHZ (R419). -/
def acOk (s : State) (p mhz lim : Nat) : Bool :=
  mhz % 10 == 0 && decide (400 ≤ mhz) && decide (mhz ≤ s.fld .SPAN_PWR_CTL [p] SPAN_PWR_CTL.FMAX_MHZ) && decide (mhz ≤ lim)

/-- The mean that Tension regulates to: 97 % of the cap (R419), or of the cap less 10 % while calibration fails (R418),
in units of a thousandth of a watt. -/
def capTarget (s : State) (cap : Nat) : Nat := cap * (if s.pwr.calLow then 873 else 970)

/-- What can force a unit of FIXED below its clock (R26): the cap, a droop, the alert line, or a temperature at which R428
regulates. A Span whose FMAX_MHZ is below 940 MHz cannot be held there (DESIGN CHOICE, assumption 156). -/
def fixedForced (s : State) (u : Nat) : Bool :=
  decide (capTarget s (capOf s 1) ≤ projection s * 1000) || s.pwr.guard != 0 || vraActive s || s.pwr.trips.contains u ||
  s.pwr.lim.contains u || s.pwr.hot.contains u ||
  (decide (u < 8) && decide (s.fld .SPAN_PWR_CTL [u] SPAN_PWR_CTL.FMAX_MHZ < 940))

/-- The choices open to Tension in a mode (R26, R419): in FIXED, 940 MHz and 3,000 MHz unless something forces less. -/
def stepOk (s : State) (mode : Nat) (acs kcs : List Nat) : Bool :=
  acs.length == 8 && kcs.length == 8 &&
  (mode != 1 || ((List.range 8).all (fun p => acs.getD p 0 == 940 || fixedForced s p) &&
    (List.range 8).all (fun g => kcs.getD g 0 == 3000 || fixedForced s (8 + g)))) &&
  (List.range 8).all (fun p => acOk s p (acs.getD p 0) (if mode = 0 then 1080 else 940)) &&
  kcs.all (fun k => k % 50 == 0 && decide (400 ≤ k) && decide (k ≤ (if mode = 1 then 3000 else 3400)))

/-- Tension acts: KMH1 runs, software does not own the policy, and the clocks run. -/
def tensionActs (s : State) : Bool := kmh1Runs s && !s.owned 0 && s.pwr.ref == 0

/-- TENSION_CONTROL_STEP (R419): the choice of frequencies is Tension's. It also releases the guard (R429) and
what the alert line has left (R427). -/
def execTensionControlStep (acs kcs : List Nat) (s : State) : Host.Outcome State Fault Refusal :=
  let m := s.fld .KST_PWR_MODE [] KST_PWR_MODE.MODE
  whenUp s (
    if tensionActs s && stepOk s m acs kcs then
      let s := { s with pwr := { s.pwr with guard := 0, lim := sdel s.pwr.lim 25 } }
      pwrSync (askStep s ⟨m, capOf s m, acs, kcs, 0⟩)
    else s)

/-- CAP_DEFER_EXPIRE (R431): a deferral that has lasted 2 ms is taken, and none follows for 10 ms. -/
def execCapDeferExpire (s : State) : Host.Outcome State Fault Refusal :=
  whenUp s (match s.pwr.defer with
    | none => s
    | some d =>
      let s := deferUs (s.satInc .TNS_DEFER [] TNS_DEFER.EXPIRE_CNT 1) 2000
      takeStep { s with pwr := { s.pwr with noDefer := s.clk.fc + 10 * fcMs } } d)

/-- VOLTAGE_RAMP_DONE (R424). -/
def execVoltageRampDone (u : Nat) (s : State) : Host.Outcome State Fault Refusal :=
  whenUp s (match chgOf s u with
    | none => s
    | some c =>
      if c.ph = 0 then chgQuiet (putChg s u (some { c with ph := 1 })) u
      else if c.ph = 4 then ownFollow (stepEnd (putChg s u none)) u else s)

/-- PLL_LOCK_DONE (R424, R426): the root switches once the detectors are quiet. -/
def execPllLockDone (u : Nat) (s : State) : Host.Outcome State Fault Refusal :=
  whenUp s (match chgOf s u with
    | none => s
    | some c =>
      if c.ph = 2 then
        let s := chgQuiet (putChg s u (some { c with ph := 3 })) u
        if (chgOf s u).isNone then ownFollow s u else s
      else s)

/-- FREQ_CHANGE_ABANDON (R426). -/
def execFreqChangeAbandon (u : Nat) (s : State) : Host.Outcome State Fault Refusal :=
  whenUp s (match chgOf s u with
    | none => s
    | some c =>
      if c.ph = 3 ∧ !quiet s u then
        stepEnd (dropChg (s.satInc .SPAN_DROOP_STAT [u] SPAN_DROOP_STAT.CHG_ABANDON 1) u)
      else s)

/-! Droop. -/

/-- DROOP_TRIP (R425). -/
def execDroopTrip (span : Nat) (s : State) : Host.Outcome State Fault Refusal :=
  whenUp s (
    if span < 8 then
      let s := s.satInc .SPAN_DROOP_STAT [span] SPAN_DROOP_STAT.DROOP_CNT 1
      let s := s.setFld .SPAN_PWR_STAT [span] SPAN_PWR_STAT.DROOP_ACT 1
      pwrSync (fixedBreak { s with pwr := { s.pwr with trips := sins s.pwr.trips span } })
    else s)

/-- DROOP_QUIET (R425, R426): no detector tripped for 64 AC cycles, or, when `full`, for 2 us. -/
def execDroopQuiet (span : Nat) (full : Bool) (s : State) : Host.Outcome State Fault Refusal :=
  whenUp s (
    if span < 8 then
      let s := s.setFld .SPAN_PWR_STAT [span] SPAN_PWR_STAT.DROOP_ACT 0
      if full then pwrSync (chgQuiet { s with pwr := { s.pwr with trips := sdel s.pwr.trips span } } span) else pwrSync s
    else s)

/-! The estimate and the guard. -/

/-- POWER_ESTIMATE (R418, R429): the weighted sum of the counters, in watts before GAIN. -/
def execPowerEstimate (raw : Nat) (s : State) : Host.Outcome State Fault Refusal :=
  whenUp s (
    let e := min 8191 (raw * s.fld .TNS_EST [] TNS_EST.GAIN / 128)
    let s := { s with pwr := { s.pwr with est := (e :: s.pwr.est).take 10000, raw := (raw :: s.pwr.raw).take 1000 } }
    let s := s.setFld .TNS_EST [] TNS_EST.EST_W e
    let s := s.setFld .TNS_EST [] TNS_EST.MEAN_W (s.pwr.est.sum / 10000)
    if overCap s ∧ s.pwr.guard = 0 then
      let s := s.satInc .TNS_EVENT [] TNS_EVENT.GUARD_CNT 1
      pwrSync (fixedBreak { s with pwr := { s.pwr with guard := 1 } })
    else s)

/-- GUARD_STEP (R429). -/
def execGuardStep (s : State) : Host.Outcome State Fault Refusal :=
  whenUp s (
    if s.pwr.guard ≠ 0 ∧ overCap s then
      pwrSync (fixedBreak { s with pwr := { s.pwr with guard := min 16 (s.pwr.guard + 1) } })
    else s)

/-- TENSION_RECALIBRATE (R418): the measured input power against the mean estimate before GAIN of the same
millisecond. -/
def execTensionRecalibrate (meas : Nat) (s : State) : Host.Outcome State Fault Refusal :=
  whenUp s (
    let n := s.pwr.raw.length
    let sum := s.pwr.raw.sum
    if !kmh1Runs s || sum == 0 then s
    else
      let q := meas * n * 128 / sum
      let clamp := decide (meas * n * 4 < 3 * sum) || decide (133 * sum < meas * n * 100)
      let s := s.setFld .TNS_EST [] TNS_EST.MEAS_W (min 8191 meas)
      let s := s.setFld .TNS_EST [] TNS_EST.GAIN (max 96 (min 170 q))
      let s := { s with pwr := { s.pwr with calLow := clamp } }
      if clamp then recordAt (s.setFld .TNS_EST [] TNS_EST.CAL_FAIL 1) (unitKst 0x42) 1 0 0 none else s)

/-! Software's steps. -/

/-- A write of TNS_CAP (R417): none, or from 1,200 W to the FULL cap. A higher cap is in force at once; a lower one from
the control step that takes it, which is the write itself while software owns Tension (R416, R420). -/
def userCapWrite (s : State) (eff : Nat) : State :=
  let u := fget eff TNS_CAP.USER_CAP_W
  if u ≠ 0 ∧ (u < 1200 ∨ modeCap s.asm 0 < u) then discardReg s .TNS_CAP []
  else
    let s := s.plain .TNS_CAP [] eff
    let c := capOf s s.pwr.mode
    if s.fld .TNS_CAP [] TNS_CAP.CAP_W ≤ c then s.setFld .TNS_CAP [] TNS_CAP.CAP_W c
    else if s.owned 0 then
      match s.pwr.defer with
      | some d => { s with pwr := { s.pwr with defer := some { d with cap := c } } }
      | none => pwrSync (askStep s ⟨s.pwr.mode, c, heading s 0, heading s 8, 0⟩)
    else s

/-- USER_CAP_WRITE (R417). -/
def execUserCapWrite (w : BitVec 64) (s : State) : Host.Outcome State Fault Refusal := whenUp s (userCapWrite s w.toNat)

/-- A write of KST_KC_TARGET (R420): 8 to 68 in units of 50 MHz. -/
def kcTargetWrite (s : State) (eff : Nat) : State :=
  if (List.range 8).all (fun g =>
      let v := fget eff (KST_KC_TARGET.MHZ_50.shift 8 g)
      decide (8 ≤ v) && decide (v ≤ 68)) then
    let s := s.plain .KST_KC_TARGET [] eff
    if s.owned 0 then (List.range 8).foldl (fun s g => ownStep s (8 + g) (target s (8 + g))) s else s
  else discardReg s .KST_KC_TARGET []

/-- Software has taken Tension over: frequencies follow its targets (R420). -/
def tensionTaken (s : State) : State :=
  (List.range 16).foldl (fun s u => ownStep s u (target s u)) (pwrSync { s with pwr := { s.pwr with lim := sdel s.pwr.lim 25 } })

/-- A curve meets R421 with point n replaced. -/
def vfOk (s : State) (p n eff : Nat) : Bool :=
  let pt (i : Nat) : Nat × Nat :=
    if i = n then (fget eff SPAN_VF_CURVE.FREQ_MHZ, fget eff SPAN_VF_CURVE.VOLT_MV + fget eff SPAN_VF_CURVE.AGE_MV)
    else vfPoint s p i
  (pt 0).1 == 400 && (pt 15).1 == 1080 &&
  (List.range 15).all (fun i => decide ((pt i).1 < (pt (i + 1)).1) && decide ((pt i).2 ≤ (pt (i + 1)).2)) &&
  (List.range 16).all (fun i => decide (600 ≤ (pt i).2) && decide ((pt i).2 ≤ 950)) &&
  (List.range 16).any (fun i => (pt i).1 == 940)

/-- A write of SPAN_VF_CURVE (R421). The voltage applied follows the curve (R422), at the next switch where a change of
frequency is under way. -/
def vfWrite (s : State) (p n eff : Nat) : State :=
  if s.owned 0 && vfOk s p n eff then
    let s := s.plain .SPAN_VF_CURVE [p, n] eff
    if (chgOf s p).isSome then s else setVolt s p (vfVolt s p (acMhz s p))
  else discardReg s .SPAN_VF_CURVE [p, n]

/-- VF_CURVE_WRITE. -/
def execVfCurveWrite (span n : Nat) (w : BitVec 64) (s : State) : Host.Outcome State Fault Refusal :=
  whenUp s (if span < 8 ∧ n < 16 then vfWrite s span n w.toNat else s)

/-- A write of KST_PWR_MODE (R27): a mode requested stays PENDING until Tension takes it. While software owns Tension, which
then takes no control step (R420), that is until the hand-back (DESIGN CHOICE, assumption 157: R27's 1 ms and R420 do not
agree there). -/
def pwrModeWrite (s : State) (eff : Nat) : State :=
  if fget eff KST_PWR_MODE.MODE = 3 then discardReg s .KST_PWR_MODE []
  else
    let s := s.plain .KST_PWR_MODE [] eff
    s.setFld .KST_PWR_MODE [] KST_PWR_MODE.PENDING
      (b2n (s.fld .KST_PWR_MODE [] KST_PWR_MODE.MODE != s.pwr.mode || s.pwr.next.isSome || s.pwr.defer.isSome))

/-- POWER_MODE_WRITE (R27). -/
def execPowerModeWrite (w : BitVec 64) (s : State) : Host.Outcome State Fault Refusal := whenUp s (pwrModeWrite s w.toNat)

/-! Emergencies (R427, R428). -/

/-- VR_ALERT_N is asserted: limits at once, and no frequency change not yet switched survives. -/
def alertAssert (s : State) : State :=
  let s := (s.setFld .TNS_EVENT [] TNS_EVENT.VRA_ACTIVE 1).setFld .TNS_EVENT [] TNS_EVENT.VRA_SEEN 1
  let s := s.satInc .TNS_EVENT [] TNS_EVENT.VRA_CNT 1
  let s := (List.range 16).foldl dropChg s
  stepEnd (pwrSync (fixedBreak s))

/-- VR_ALERT_ASSERT: `ext` when the system drives the line (R493). -/
def execVrAlertAssert (ext : Bool) (s : State) : Host.Outcome State Fault Refusal :=
  whenUp s (
    let was := s.board.alertInt || s.board.alertExt
    let s := if ext then { (if was then s else s.setFld .KST_BOARD_STAT [] KST_BOARD_STAT.VRA_EXT 1) with
                             board := { s.board with alertExt := true } }
      else { s with board := { s.board with alertInt := true } }
    if was then s else alertAssert s)

/-- VR_ALERT_RELEASE: the line has been released for 100 us. The limits end, and Tension raises the clocks at its next
control step; while software owns the policy there is none (R420), and the clocks rise at once (DESIGN CHOICE, log 164). -/
def execVrAlertRelease (s : State) : Host.Outcome State Fault Refusal :=
  whenUp s (
    let s := { s with board := { s.board with alertInt := false, alertExt := false } }
    let s := if vraActive s ∧ !s.owned 0 then { s with pwr := { s.pwr with lim := sins s.pwr.lim 25 } } else s
    pwrSync (s.setFld .TNS_EVENT [] TNS_EVENT.VRA_ACTIVE 0))

end Sys2Proof.Machine
end

