-- ==== Sys2Proof/Machine/TileScalar.lean ====
section
/-!
DEFINITION. Machine/TileScalar.lean: the scalar and control instructions that touch no memory outside the
register file and the tile-control registers (R151 to R159).
-/

namespace Sys2Proof.Machine

/-- The second operand (R153): s[RS2], or IMM32 sign-extended when I = 1. -/
def op2S (x : Tile) (f : InsS) : BitVec 64 := if f.i = 1 then sx32 f.imm else x.s f.rs2.toNat

/-- Effect of a scalar arithmetic instruction: RD takes the result; a predicate bit of 0 writes nothing (R154). -/
def aluEffect (f : InsS) (t : Nat) (g : BitVec 64 → BitVec 64 → BitVec 64) (s : State) (_e : QEnt) : IssueR :=
  let x := s.tile t
  if x.predOn f.pred.toNat then .done (s.setTile t (x.setS f.rd.toNat (g (x.s f.rs1.toNat) (op2S x f)))) else .done s

/-- A scalar arithmetic instruction of an opcode. -/
def alu (opc t : Nat) (f : InsS) (g : BitVec 64 → BitVec 64 → BitVec 64) (s : State) :
    Host.Outcome State Fault Refusal :=
  issue s t .scalar (encS opc f) 0 (aluEffect f t g)

/-- NOP (R153). -/
def execNop (t : Nat) (f : InsS) (s : State) : Host.Outcome State Fault Refusal :=
  issue s t .scalar (encS 0x00 f) 0 (fun s _ => .done s)

/-- ADD (R154). -/
def execAdd (t : Nat) (f : InsS) (s : State) : Host.Outcome State Fault Refusal := alu 0x02 t f (· + ·) s
/-- SUB (R154). -/
def execSub (t : Nat) (f : InsS) (s : State) : Host.Outcome State Fault Refusal := alu 0x03 t f (· - ·) s
/-- AND (R154). -/
def execAnd (t : Nat) (f : InsS) (s : State) : Host.Outcome State Fault Refusal := alu 0x04 t f (· &&& ·) s
/-- OR (R154). -/
def execOr (t : Nat) (f : InsS) (s : State) : Host.Outcome State Fault Refusal := alu 0x05 t f (· ||| ·) s
/-- XOR (R154). -/
def execXor (t : Nat) (f : InsS) (s : State) : Host.Outcome State Fault Refusal := alu 0x06 t f (· ^^^ ·) s
/-- SLL by op2[5:0] (R154). -/
def execSll (t : Nat) (f : InsS) (s : State) : Host.Outcome State Fault Refusal :=
  alu 0x07 t f (fun a b => a <<< (b.toNat % 64)) s
/-- SRL by op2[5:0], zero fill (R154). -/
def execSrl (t : Nat) (f : InsS) (s : State) : Host.Outcome State Fault Refusal :=
  alu 0x08 t f (fun a b => a >>> (b.toNat % 64)) s
/-- SRA by op2[5:0], sign fill (R154). -/
def execSra (t : Nat) (f : InsS) (s : State) : Host.Outcome State Fault Refusal :=
  alu 0x09 t f (fun a b => a.sshiftRight (b.toNat % 64)) s
/-- MUL, low 64 bits (R154). -/
def execMul (t : Nat) (f : InsS) (s : State) : Host.Outcome State Fault Refusal := alu 0x0A t f (· * ·) s
/-- SLT, signed (R154). -/
def execSlt (t : Nat) (f : InsS) (s : State) : Host.Outcome State Fault Refusal :=
  alu 0x0B t f (fun a b => if a.slt b then 1 else 0) s
/-- SLTU, unsigned (R154). -/
def execSltu (t : Nat) (f : InsS) (s : State) : Host.Outcome State Fault Refusal :=
  alu 0x0C t f (fun a b => if a.ult b then 1 else 0) s
/-- MIN, signed (R154). -/
def execMin (t : Nat) (f : InsS) (s : State) : Host.Outcome State Fault Refusal :=
  alu 0x0D t f (fun a b => if a.slt b then a else b) s
/-- MAX, signed (R154). -/
def execMax (t : Nat) (f : InsS) (s : State) : Host.Outcome State Fault Refusal :=
  alu 0x0E t f (fun a b => if a.slt b then b else a) s

/-- LI: RD takes the second word (R153). -/
def execLi (t : Nat) (f : InsS) (v : BitVec 64) (s : State) : Host.Outcome State Fault Refusal :=
  issue s t .scalar (encLi f) v (fun s _ =>
    let x := s.tile t
    if x.predOn f.pred.toNat then .done (s.setTile t (x.setS f.rd.toNat v)) else .done s)

/-- Fetch goes on at an offset; a target off a word boundary or beyond instruction memory raises FETCH_FAULT
(R156). -/
def jumpTo (s : State) (t : Nat) (target : BitVec 64) : IssueR :=
  if target.toNat % 8 ≠ 0 ∨ 0x20000 ≤ target.toNat then .exc 0x08 0
  else .done (s.setTile t { s.tile t with pc := target.toNat, fetchHold := false })

/-- Fetch goes on at the next word. -/
def fallThrough (s : State) (t : Nat) : IssueR := .done (s.setTile t { s.tile t with fetchHold := false })

/-- The comparison of BR under FUNC (R156). -/
def brCond (func : Nat) (a b : BitVec 64) : Bool :=
  match func with
  | 0 => a == b
  | 1 => a != b
  | 2 => a.slt b
  | 3 => !a.slt b
  | 4 => a.ult b
  | _ => !a.ult b

/-- BR (R156). -/
def execBr (t : Nat) (f : InsS) (s : State) : Host.Outcome State Fault Refusal :=
  issue s t .scalar (encS 0x12 f) 0 (fun s e =>
    let x := s.tile t
    if x.predOn f.pred.toNat && brCond f.func.toNat (x.s f.rs1.toNat) (x.s f.rs2.toNat) then
      jumpTo s t (BitVec.ofNat 64 e.pc + sx32 f.imm)
    else fallThrough s t)

/-- The link register and the jump of JAL and JALR: a faulting jump has no effect (R137). -/
def jumpLink (s : State) (t : Nat) (f : InsS) (pc : Nat) (target : BitVec 64) : IssueR :=
  jumpTo (s.setTile t ((s.tile t).setS f.rd.toNat (BitVec.ofNat 64 (pc + 8)))) t target

/-- JAL (R156). -/
def execJal (t : Nat) (f : InsS) (s : State) : Host.Outcome State Fault Refusal :=
  issue s t .scalar (encS 0x13 f) 0 (fun s e =>
    if (s.tile t).predOn f.pred.toNat then jumpLink s t f e.pc (BitVec.ofNat 64 e.pc + sx32 f.imm)
    else fallThrough s t)

/-- JALR (R156). -/
def execJalr (t : Nat) (f : InsS) (s : State) : Host.Outcome State Fault Refusal :=
  issue s t .scalar (encS 0x14 f) 0 (fun s e =>
    let x := s.tile t
    if x.predOn f.pred.toNat then jumpLink s t f e.pc (x.s f.rs1.toNat + sx32 f.imm)
    else fallThrough s t)

/-! Tile-control registers (R158, R159). -/

/-- What a write of an FMT_DESC entry leaves (R76, R78, R511): the stored word, or none when discarded. -/
def fmtDescWrite (n old v : Nat) : Option Nat :=
  let rnd := bitsOf v 2 1
  let blk := bitsOf v 4 3
  if 2 ≤ rnd ∧ n ≠ 13 then none
  else if blk = 3 ∧ slotBlockable n then none
  else if n = 15 ∧ userFmtOk v = false then none
  else
    let us := bitsOf v 30 29
    let ovf := if (7 ≤ n ∧ n ≤ 14) ∨ (n = 15 ∧ us = 0) then 0 else v % 2
    let rnd' := if n = 13 then 0 else rnd
    let blk' := if slotBlockable n then blk else 0
    let w := fput (fput (fput old FMT_DESC.OVF_MODE ovf) FMT_DESC.RND rnd') FMT_DESC.BLK blk'
    if n = 15 then
      let w := fput (fput w FMT_DESC.U_WIDTH (bitsOf v 19 16)) FMT_DESC.U_EBITS (bitsOf v 22 20)
      let w := fput (fput w FMT_DESC.U_BIAS (bitsOf v 28 24)) FMT_DESC.U_SPECIAL us
      some (fput w FMT_DESC.U_VALID 1)
    else some w

/-- A write of an FMT_DESC entry, applied as a whole or discarded and logged (R511). -/
def writeFmtDesc (s : State) (t n v : Nat) : State :=
  match fmtDescWrite n (s.rd .FMT_DESC (tix t ++ [n])) v with
  | some w => s.wr .FMT_DESC (tix t ++ [n]) w
  | none => discardReg s .FMT_DESC (tix t ++ [n])

/-- A write of TILE_SR_SEED: zero loads the reset value, unused draws are discarded (R83). -/
def writeSeed (s : State) (t v : Nat) : State :=
  let s := s.wr .TILE_SR_SEED (tix t) (if v = 0 then 0x9E3779B97F4A7C15 else v)
  s.setTile t { s.tile t with srLeft := 0 }

/-- A roll of an AMAX register (R101). -/
def rollAmax (s : State) (t a : Nat) : State :=
  let (w, inv) := amaxRoll (s.rd .TILE_AMAX (tix t ++ [a])) (fun d => s.rd .FMT_DESC (tix t ++ [d]))
  let s := s.wr .TILE_AMAX (tix t ++ [a]) w
  if inv then s.setFlags t ⟨false, false, true⟩ else s

/-- TCR (R158, R159); any other index raises ILLEGAL_OPERAND. -/
def tcRead (s : State) (t i : Nat) : Option Nat :=
  if i < 16 then some (s.rd .FMT_DESC (tix t ++ [i]))
  else if i < 32 then some (s.rd .TILE_AMAX (tix t ++ [i - 16]))
  else match i with
  | 0x20 => some (s.rd .TILE_FMT_CTL (tix t))
  | 0x21 => some (s.rd .TILE_SR_SEED (tix t))
  | 0x22 => some (s.rd .TILE_FMT_FLAGS (tix t))
  | 0x23 => some (mmaStatWord s t)
  | 0x24 => some (s.rd .TILE_MMA_PERF (tix t))
  | 0x25 => some (s.rd .TILE_MMA_KSTEP (tix t))
  | 0x26 => some (s.rd .SPAN_AC_CNT [t / 64])
  | 0x27 => some t
  | _ => none

/-- TCW (R158, R159): none for ILLEGAL_OPERAND. -/
def tcWrite (s : State) (t i v : Nat) : Option State :=
  if i < 16 then some (writeFmtDesc s t i v)
  else if i < 32 then
    if bitsOf v 63 63 = 1 then none
    else some (s.plain .TILE_AMAX (tix t ++ [i - 16]) v)
  else match i with
  | 0x20 => some (s.plain .TILE_FMT_CTL (tix t) v)
  | 0x21 => some (writeSeed s t v)
  | 0x22 => some (s.plain .TILE_FMT_FLAGS (tix t) v)
  | _ => none

/-- TCR (R158, R159). -/
def execTcr (t : Nat) (f : InsS) (s : State) : Host.Outcome State Fault Refusal :=
  issue s t .scalar (encS 0x15 f) 0 (fun s _ =>
    let x := s.tile t
    if x.predOn f.pred.toNat then
      match tcRead s t (f.imm.toNat % 4096) with
      | some v => .done (s.setTile t (x.setS f.rd.toNat (BitVec.ofNat 64 v)))
      | none => .exc 0x04 0
    else .done s)

/-- TCW (R158, R159). -/
def execTcw (t : Nat) (f : InsS) (s : State) : Host.Outcome State Fault Refusal :=
  issue s t .scalar (encS 0x16 f) 0 (fun s _ =>
    let x := s.tile t
    if x.predOn f.pred.toNat then
      match tcWrite s t (f.imm.toNat % 4096) (x.s f.rs1.toNat).toNat with
      | some s' => .done s'
      | none => .exc 0x04 0
    else .done s)

end Sys2Proof.Machine
end

