-- ==== Sys2Proof/Machine/TileVector.lean ====
section
/-!
DEFINITION. Machine/TileVector.lean: the vector instructions that work on registers and tile memory (R166 to
R173, R175, R176).
-/

namespace Sys2Proof.Machine

/-! Elements of a vector register (R130, R166). -/

/-- Bits [off + n - 1 : off] of a vector register. -/
def vbits (v : BitVec 4096) (off n : Nat) : Nat := (v.toNat >>> off) % 2 ^ n

/-- Replacement of `n` bits at `off`. -/
def vput (v : BitVec 4096) (off n x : Nat) : BitVec 4096 :=
  let w := v.toNat
  BitVec.ofNat 4096 (w % 2 ^ off + (x % 2 ^ n) * 2 ^ off + (w >>> (off + n)) * 2 ^ (off + n))

/-- Element i of `n` bits per element is active: the predicate bit of its lowest byte (R130). -/
def activeAt (p : BitVec 512) (bits i : Nat) : Bool := p.getLsbD (bits * i / 8)

/-- The number of elements of a slot in a register: 512 / w (R166). -/
def elemCount (slot : Nat) : Nat := 4096 / elemBits slot

/-- Destination update by element: active elements take the result, inactive ones stay or become zero (R136). -/
def vmapElems (bits n : Nat) (p : BitVec 512) (pz : Bool) (old : BitVec 4096) (g : Nat → Nat × FFlags) :
    BitVec 4096 × FFlags :=
  (List.range n).foldl (fun acc i =>
    if activeAt p bits i then
      let (x, fl) := g i
      (vput acc.1 (bits * i) bits x, acc.2.or fl)
    else if pz then (vput acc.1 (bits * i) bits 0, acc.2) else acc) (old, FFlags.none)

/-- The second operand's element (R153, R166). -/
def op2V (x : Tile) (f : InsV) (bits i : Nat) : Nat :=
  if f.bs = 1 then (x.s f.ss.toNat).toNat % 2 ^ bits else vbits (x.v f.vs2.toNat) (bits * i) bits

/-- A binary floating-point operation on codes: exact, then one rounding (R81, R167). -/
def fpOp2 (d : SlotDesc) (g : FVal → FVal → FVal × Bool) (a b : Nat) : Nat × FFlags :=
  match floatFmt d.slot d.desc with
  | some f =>
    let (v, inv) := g (f.decode a) (f.decode b)
    let (c, fl) := f.encodeArith d.ovf v
    (c, fl.or ⟨false, false, inv⟩)
  | none => (0, .none)

/-- An INT32 result saturates and sets FMT_OVF (R86, R167). -/
def satInt32 (v : Int) : Nat × FFlags :=
  if v < -2147483648 then (0x80000000, ⟨true, false, false⟩)
  else if 2147483647 < v then (0x7FFFFFFF, ⟨true, false, false⟩)
  else ((v % 4294967296).toNat, .none)

/-- minimumNumber or maximumNumber (R71). -/
def fminmax (isMax : Bool) (a b : FVal) : FVal × Bool :=
  let sig := a.isSig || b.isSig
  match a.isNaN, b.isNaN with
  | true, true => (.nan false, sig)
  | true, false => (b, sig)
  | false, true => (a, sig)
  | false, false => (if (a.lt b) != isMax then a else b, sig)

/-- The element operations of the element-wise instructions by opcode: float and INT32 (R166, R167). -/
def ewFloat (opc : Nat) (d : SlotDesc) (a b c : Nat) : Nat × FFlags :=
  match opc with
  | 0x40 => fpOp2 d FVal.add a b
  | 0x41 => fpOp2 d (fun x y => x.add y.neg) a b
  | 0x42 => fpOp2 d FVal.mul a b
  | 0x43 =>
    match floatFmt d.slot d.desc with
    | some f =>
      let (p, i1) := (f.decode a).mul (f.decode b)
      let cv := f.decode c
      let (v, i2) := p.add cv
      let (r, fl) := f.encodeArith d.ovf v
      (r, fl.or ⟨false, false, i1 || i2⟩)
    | none => (0, .none)
  | 0x44 => fpOp2 d (fminmax false) a b
  | 0x45 => fpOp2 d (fminmax true) a b
  | 0x46 => fpOp2 d (fun x _ => (match x with
      | .fin m e => .fin (m.natAbs : Int) e
      | .inf _ => .inf false
      | .nan _ => .nan false, x.isSig)) a 0
  | _ => fpOp2 d (fun x _ => (match x with
      | .nan _ => .nan false
      | v => v.neg, x.isSig)) a 0

/-- INT32 element operations (R167). -/
def ewInt (opc a b : Nat) : Nat × FFlags :=
  let x := signedOf a 32
  let y := signedOf b 32
  match opc with
  | 0x40 => satInt32 (x + y)
  | 0x41 => satInt32 (x - y)
  | 0x42 => satInt32 (x * y)
  | 0x44 => ((min x y % 4294967296).toNat, .none)
  | 0x45 => ((max x y % 4294967296).toNat, .none)
  | 0x46 => satInt32 (x.natAbs : Int)
  | 0x47 => satInt32 (-x)
  | 0x48 => (a &&& b, .none)
  | 0x49 => (a ||| b, .none)
  | 0x4A => (a ^^^ b, .none)
  | 0x4B => ((a <<< (b % 32)) % 2 ^ 32, .none)
  | _ => (((x / (2 ^ (b % 32) : Int)) % 4294967296).toNat, .none)

/-- The slots an element-wise opcode accepts (R166, R167). -/
def ewFmtOk (opc fmt : Nat) : Bool :=
  if opc = 0x43 then fmt == 0 || fmt == 1
  else if 0x48 ≤ opc ∧ opc ≤ 0x4C then fmt == 14
  else fmt == 0 || fmt == 1 || fmt == 14

/-- Element width in bits of the arithmetic slots. -/
def ewBits (fmt : Nat) : Nat := if fmt = 0 then 64 else 32

/-- Effect of an element-wise instruction (R166, R167). -/
def ewEffect (opc t : Nat) (f : InsV) (s : State) (_e : QEnt) : IssueR :=
  let fmt := f.fmt.toNat
  if ewFmtOk opc fmt = false then .exc 0x02 0
  else
    let x := s.tile t
    let b := ewBits fmt
    let d := s.slot t fmt
    let (v, fl) := vmapElems b (4096 / b) (x.p f.pred.toNat) (f.pz == 1) (x.v f.vd.toNat) (fun i =>
      let a := vbits (x.v f.vs1.toNat) (b * i) b
      let o := op2V x f b i
      if fmt = 14 then ewInt opc a o else ewFloat opc d a o (vbits (x.v f.vs3.toNat) (b * i) b))
    .done ((s.setTile t (x.setV f.vd.toNat v)).setFlags t fl)

/-- An element-wise instruction of an opcode. -/
def elementwise (opc t : Nat) (f : InsV) (s : State) : Host.Outcome State Fault Refusal :=
  issue s t .vector (encV opc f) 0 (ewEffect opc t f)

/-- VADD (R167). -/
def execVadd (t : Nat) (f : InsV) (s : State) : Host.Outcome State Fault Refusal := elementwise 0x40 t f s
/-- VSUB (R167). -/
def execVsub (t : Nat) (f : InsV) (s : State) : Host.Outcome State Fault Refusal := elementwise 0x41 t f s
/-- VMUL (R167). -/
def execVmul (t : Nat) (f : InsV) (s : State) : Host.Outcome State Fault Refusal := elementwise 0x42 t f s
/-- VFMA, rounded once (R167). -/
def execVfma (t : Nat) (f : InsV) (s : State) : Host.Outcome State Fault Refusal := elementwise 0x43 t f s
/-- VMIN (R71, R167). -/
def execVmin (t : Nat) (f : InsV) (s : State) : Host.Outcome State Fault Refusal := elementwise 0x44 t f s
/-- VMAX (R71, R167). -/
def execVmax (t : Nat) (f : InsV) (s : State) : Host.Outcome State Fault Refusal := elementwise 0x45 t f s
/-- VABS (R167). -/
def execVabs (t : Nat) (f : InsV) (s : State) : Host.Outcome State Fault Refusal := elementwise 0x46 t f s
/-- VNEG (R167). -/
def execVneg (t : Nat) (f : InsV) (s : State) : Host.Outcome State Fault Refusal := elementwise 0x47 t f s
/-- VAND (R167). -/
def execVand (t : Nat) (f : InsV) (s : State) : Host.Outcome State Fault Refusal := elementwise 0x48 t f s
/-- VOR (R167). -/
def execVor (t : Nat) (f : InsV) (s : State) : Host.Outcome State Fault Refusal := elementwise 0x49 t f s
/-- VXOR (R167). -/
def execVxor (t : Nat) (f : InsV) (s : State) : Host.Outcome State Fault Refusal := elementwise 0x4A t f s
/-- VSHL (R167). -/
def execVshl (t : Nat) (f : InsV) (s : State) : Host.Outcome State Fault Refusal := elementwise 0x4B t f s
/-- VSHR, arithmetic (R167). -/
def execVshr (t : Nat) (f : InsV) (s : State) : Host.Outcome State Fault Refusal := elementwise 0x4C t f s

/-- The condition of VCMP on floats (R71): false with a NaN, but for not-equal. -/
def cmpF (func : Nat) (a b : FVal) : Bool :=
  match func with
  | 0 => a.eqv b
  | 1 => !a.eqv b
  | 2 => a.lt b
  | _ => a.lt b || a.eqv b

/-- The condition of VCMP on INT32 (R168). -/
def cmpI (func : Nat) (a b : Int) : Bool :=
  match func with
  | 0 => a == b
  | 1 => a != b
  | 2 => decide (a < b)
  | _ => decide (a ≤ b)

/-- Replacement of the `n` predicate bits from `lo` up by one value. -/
def pput (p : BitVec 512) (lo n : Nat) (b : Bool) : BitVec 512 :=
  let m : BitVec 512 := BitVec.ofNat 512 ((2 ^ n - 1) * 2 ^ lo)
  if b then p ||| m else p &&& ~~~m

/-- VCMP (R168): signalling NaN operands set FMT_INV (R70, R71). -/
def execVcmp (t : Nat) (f : InsV) (s : State) : Host.Outcome State Fault Refusal :=
  issue s t .vector (encV 0x4D f) 0 (fun s _ =>
    let fmt := f.fmt.toNat
    if (fmt == 0 || fmt == 1 || fmt == 14) = false then .exc 0x02 0
    else
      let x := s.tile t
      let b := ewBits fmt
      let d := s.slot t fmt
      let gov := x.p f.pred.toNat
      let (p, inv) := (List.range (4096 / b)).foldl (fun acc i =>
        if activeAt gov b i then
          let a := vbits (x.v f.vs1.toNat) (b * i) b
          let o := op2V x f b i
          if fmt = 14 then (pput acc.1 (b / 8 * i) (b / 8) (cmpI f.func.toNat (signedOf a 32) (signedOf o 32)), acc.2)
          else match floatFmt d.slot d.desc with
            | some ff =>
              let va := ff.decode a
              let vb := ff.decode o
              (pput acc.1 (b / 8 * i) (b / 8) (cmpF f.func.toNat va vb), acc.2 || va.isSig || vb.isSig)
            | none => acc
        else if f.pz = 1 then (pput acc.1 (b / 8 * i) (b / 8) false, acc.2) else acc) (x.p f.pd.toNat, false)
      .done ((s.setTile t (x.setP f.pd.toNat p)).setFlags t ⟨false, false, inv⟩))

/-! VCVT (R169 to R171). -/

/-- The element count of a conversion (R169). -/
def cvtCount (a b : Nat) (blkA blkB : Nat) : Nat :=
  if (a = 0 ∧ b = 12) ∨ (a = 12 ∧ b = 0) then 60
  else if a = 0 ∨ b = 0 then 64
  else if a = 12 ∨ b = 12 then
    let o := if a = 12 then blkB else blkA
    if o = 32 then 160 else if o = 16 then 80 else 125
  else 128

/-- The bytes of one part (R169), rounded up as R66 gives where 125 elements of 4 or 6 bits fill no whole byte or
group. DEDUCED, log 136. -/
def partBytes (slot e : Nat) : Nat := elemBytes slot e

/-- The byte of a part that holds element i first (R130). -/
def partByteOf (slot i : Nat) : Nat := if slot = 12 then i / 5 else elemBits slot * i / 8

/-- Element i of a part of bytes replaced by a code; TP5 digits are joined apart. -/
def partPut (slot row i code : Nat) : Nat :=
  let n := elemBits slot
  row % 2 ^ (n * i) + (code % 2 ^ n) * 2 ^ (n * i) + (row >>> (n * (i + 1))) * 2 ^ (n * (i + 1))

/-- The digits of a TP5 byte, zeros when it is invalid (R74). -/
def tritDigits (b : Nat) : List Nat := (List.range 5).map (fun i => if b ≥ 243 then 0 else b / 3 ^ i % 3)

/-- A TP5 byte of five digits (R73). -/
def tritByte (ds : List Nat) : Nat := ds.foldr (fun d acc => d + 3 * acc) 0

/-- A byte of a number. -/
def byteOf (row i : Nat) : Nat := (row >>> (8 * i)) % 256

/-- One destination byte of a TP5 part: active digits replaced, the others kept (R171). Answers the byte and
whether an invalid kept byte was met. -/
def tritMerge (old : Nat) (ds : List (Option Nat)) (pz : Bool) : Nat × Bool :=
  if ds.all Option.isNone ∧ ¬ pz then (old, false)
  else
    let od := tritDigits old
    let kept := ds.any Option.isNone && !pz
    (tritByte ((ds.zip od).map (fun p => match p.1 with
      | some d => d
      | none => if pz then 0 else p.2)), kept && decide (243 ≤ old))

/-- The source values of a part with their block scales (R97, R170), and the invalid flag per element. -/
def cvtSource (d : SlotDesc) (row scales e i : Nat) : FVal × Bool :=
  let (v, inv) := readElem d.slot d.desc row i
  if d.block = 0 then (v, inv)
  else
    let _ := e
    match scaleOf (byteOf scales (i / d.block)) with
    | none => (.nan false, inv)
    | some k => (v.scale k, inv)

/-- The conversion of the active elements (R82 to R88, R98): codes by element, block scales, flags, generator. -/
def cvtAll (d : SlotDesc) (vals : List (Option FVal)) (g : SrGen) :
    List (Option Nat) × List Nat × FFlags × SrGen :=
  if d.block = 0 then
    let r := vals.foldl (fun (acc : List (Option Nat) × FFlags × SrGen) v =>
      match v with
      | none => (none :: acc.1, acc.2)
      | some x => let c := convertTo d x acc.2.2; (some c.code :: acc.1, acc.2.1.or c.flags, c.gen))
      ([], FFlags.none, g)
    (r.1.reverse, [], r.2.1, r.2.2)
  else
    let nb := vals.length / d.block
    let r := (List.range nb).foldl (fun (acc : List (Option Nat) × List Nat × FFlags × SrGen) j =>
      let blk := (vals.drop (j * d.block)).take d.block
      let (sc, cs, fl, g') := convertBlock d (blk.filterMap id) acc.2.2.2
      let out := (blk.foldl (fun (a : List (Option Nat) × List Nat) v =>
        match v, a.2 with
        | some _, c :: rest => (some c :: a.1, rest)
        | _, rest => (none :: a.1, rest)) ([], cs)).1
      (out ++ acc.1, sc :: acc.2.1, acc.2.2.1.or fl, g')) ([], [], FFlags.none, g)
    (r.1.reverse, r.2.1.reverse, r.2.2.1, r.2.2.2)

/-- The padding of a destination part behind its e elements: encoding zero where its byte is active (R66, log 136). -/
def cvtPad (slot e : Nat) (act : Nat → Bool) : List (Option Nat) :=
  if slot = 12 then [] else
    (List.range (8 * partBytes slot e / elemBits slot - e)).map (fun i =>
      if act (partByteOf slot (e + i)) then some 0 else none)

/-- The destination part after a conversion (R169, R171): the bytes, and whether FMT_INV is set for a kept TP5
byte. -/
def cvtDest (slot row : Nat) (codes : List (Option Nat)) (pz : Bool) : Nat × Bool :=
  if slot = 12 then
    (List.range (codes.length / 5)).foldl (fun acc b =>
      let (nb, bad) := tritMerge (byteOf row b) ((codes.drop (5 * b)).take 5) pz
      (acc.1 + nb * 256 ^ b, acc.2 || bad)) (0, false)
  else
    ((codes.zipIdx).foldl (fun acc p =>
      match p.1 with
      | some c => partPut slot acc p.2 c
      | none => if pz then partPut slot acc p.2 0 else acc) row, false)

/-- VCVT (R169 to R171). -/
def execVcvt (t : Nat) (f : InsV) (s : State) : Host.Outcome State Fault Refusal :=
  issue s t .vector (encV 0x4E f) 0 (fun s _ =>
    let fa := f.fmt.toNat
    let fb := f.fmt2.toNat
    let da := s.slot t fa
    let db := s.slot t fb
    if fa = 13 ∨ fb = 13 ∨ (fa = 15 ∧ ¬ da.userValid) ∨ (fb = 15 ∧ ¬ db.userValid) then .exc 0x02 0
    else
      let e := cvtCount fa fb da.block db.block
      let ba := partBytes fa e
      let bb := partBytes fb e
      let sp := f.imm.toNat % 32
      let dp := f.imm.toNat / 32 % 32
      if 512 < (sp + 1) * ba ∨ 512 < (dp + 1) * bb then .exc 0x04 0
      else
        let x := s.tile t
        let gov := x.p f.pred.toNat
        let src := vbits (x.v f.vs1.toNat) (8 * ba * sp) (8 * ba)
        let v3 := x.v f.vs3.toNat
        let na := if da.block = 0 then 0 else e / da.block
        let scs := vbits v3 (8 * na * sp) (8 * na)
        let read := (List.range e).map (fun i =>
          if gov.getLsbD (bb * dp + partByteOf fb i) then some (cvtSource da src scs e i) else none)
        let inv := read.any (fun r => match r with | some (_, b) => b | none => false)
        let (codes, scales, fl, g) := cvtAll db (read.map (fun r => r.map (·.1))) (s.gen t)
        let old := vbits (x.v f.vd.toNat) (8 * bb * dp) (8 * bb)
        let (row, bad) := cvtDest fb old (codes ++ cvtPad fb e (fun i => gov.getLsbD (bb * dp + i))) (f.pz == 1)
        let x1 := x.setV f.vd.toNat (vput (x.v f.vd.toNat) (8 * bb * dp) (8 * bb) row)
        let nb := if db.block = 0 then 0 else e / db.block
        let x2 := if nb = 0 then x1 else
          x1.setV f.vs3.toNat (vput (x1.v f.vs3.toNat) (8 * nb * dp) (8 * nb)
            (scales.foldr (fun b acc => b + 256 * acc) 0))
        .done (((s.setTile t x2).setGen t g).setFlags t (fl.or ⟨false, false, inv || bad⟩)))

/-! VRED (R172). -/

/-- The pairwise tree: `fuel` levels. -/
def redTree {α : Type} (fuel : Nat) (g : α → α → α) (l : List α) : List α :=
  match fuel with
  | 0 => l
  | n + 1 =>
    let rec pairs : List α → List α
      | a :: b :: r => g a b :: pairs r
      | r => r
    redTree n g (pairs l)

/-- The first element of a list, with a default. -/
def hd {α : Type} (d : α) : List α → α
  | [] => d
  | a :: _ => a

/-- VRED (R172). -/
def execVred (t : Nat) (f : InsV) (s : State) : Host.Outcome State Fault Refusal :=
  issue s t .vector (encV 0x4F f) 0 (fun s _ =>
    let fmt := f.fmt.toNat
    if (fmt == 0 || fmt == 1 || fmt == 14) = false then .exc 0x02 0
    else
      let x := s.tile t
      let b := ewBits fmt
      let d := s.slot t fmt
      let func := f.func.toNat
      let gov := x.p f.pred.toNat
      let idle : Nat :=
        if func = 0 then 0
        else if fmt = 14 then (if func = 1 then 0x80000000 else 0x7FFFFFFF)
        else match floatFmt d.slot d.desc with
          | some ff => ff.infCode + (if func = 1 then ff.signBit else 0)
          | none => 0
      let opc := if func = 0 then 0x40 else if func = 1 then 0x45 else 0x44
      let step (a c : Nat × FFlags) : Nat × FFlags :=
        let (r, fl) := if fmt = 14 then ewInt opc a.1 c.1 else ewFloat opc d a.1 c.1 0
        (r, (a.2.or c.2).or fl)
      let leaves := (List.range (4096 / b)).map (fun i =>
        (if activeAt gov b i then vbits (x.v f.vs1.toNat) (b * i) b else idle, FFlags.none))
      let (r, fl) := hd (0, FFlags.none) (redTree 7 step leaves)
      .done ((s.setTile t (x.setV f.vd.toNat (vput (x.v f.vd.toNat) 0 b r))).setFlags t fl))

/-! Table functions (R173). -/

/-- One Newton step of the integer square root. -/
def isqrtStep (n x : Nat) : Nat := (x + n / x) / 2

/-- Newton iteration from above, at most `fuel` steps. -/
def isqrtGo (fuel n x : Nat) : Nat :=
  match fuel with
  | 0 => x
  | k + 1 => let y := isqrtStep n x; if y < x then isqrtGo k n y else x

/-- floor(sqrt n). -/
def isqrt (n : Nat) : Nat := if n = 0 then 0 else isqrtGo 40 n (2 ^ (Nat.log2 n / 2 + 1))

/-- Eight nested roots: floor of the 256th root. -/
def root256 (n : Nat) : Nat :=
  isqrt (isqrt (isqrt (isqrt (isqrt (isqrt (isqrt (isqrt n)))))))

/-- EXP2_TAB[i] = rne32(2^(i/256)) as its 24-bit significand over 2^23. -/
def exp2Tab (i : Nat) : FVal := .fin ((root256 (2 ^ (24 * 256 + i)) + 1) / 2 : Nat) (-23)

/-- RCP_TAB[i] = rne32(1 / (1 + (i + 0.5)/256)) over 2^24. -/
def rcpTab (i : Nat) : FVal := .fin ((2 ^ 25 * 512 / (2 * i + 513) + 1) / 2 : Nat) (-24)

/-- RSQ_TAB[bb*128 + f7] = rne32(c^-0.5), c = 2^bb * (1 + (f7 + 0.5)/128), over 2^24. -/
def rsqTab (bb f7 : Nat) : FVal := .fin ((isqrt (2 ^ 50 * 256 / (2 ^ bb * (2 * f7 + 257))) + 1) / 2 : Nat) (-24)

/-- The layout of FP32. -/
def fmt32 : FFmt := ⟨8, 23, 127, 2, true⟩

/-- Rounding to nearest even in FP32 (R173). -/
def rnd32 (v : FVal) : FVal := fmt32.decode (fmt32.encodeArith true v).1

/-- fma32 (R173). -/
def fma32 (a b c : FVal) : FVal := rnd32 (((a.mul b).1.add c).1)

/-- mul32 (R173). -/
def mul32 (a b : FVal) : FVal := rnd32 (a.mul b).1

/-- C1 = 0x3F31_7218 (R173). -/
def exp2C1 : FVal := fmt32.decode 0x3F317218

/-- C2 = rne32((ln 2)^2 / 2) = 0x3E75_FDF0 (R173; the number follows from the formula). -/
def exp2C2 : FVal := fmt32.decode 0x3E75FDF0

/-- floor of m * 2^e. -/
def floorFin (m e : Int) : Int := if 0 ≤ e then m * 2 ^ e.toNat else m / 2 ^ (-e).toNat

/-- vexp2 on an FP32 code (R173). -/
def vexp2 (d : SlotDesc) (a : Nat) : Nat × FFlags :=
  match fmt32.decode a with
  | .nan sg => (fmt32.canonNaN, ⟨false, false, sg⟩)
  | .inf false => (if d.ovf then fmt32.infCode else fmt32.maxCode, ⟨true, false, false⟩)
  | .inf true => (0, .none)
  | .fin m e =>
    let n := floorFin m e
    if 128 ≤ n then
      (if d.ovf then fmt32.infCode else fmt32.maxCode, ⟨true, false, false⟩)
    else if n < -256 then (0, ⟨false, true, false⟩)
    else
      let (fm, fe) := addFin m e (-n) 0
      let i := (floorFin fm (fe + 8)).toNat
      let (rm, re) := addFin fm fe (-(i : Int)) (-8)
      let tb := exp2Tab i
      let aa := fma32 (.fin rm re) exp2C2 exp2C1
      let b := mul32 (.fin rm re) aa
      let y := fma32 tb b tb
      let r := fmt32.encode d.ovf false (y.scale n) ⟨0, 0⟩
      (r.code, r.flags)

/-- vrcp on an FP32 code (R173). -/
def vrcp (d : SlotDesc) (a : Nat) : Nat × FFlags :=
  match fmt32.decode a with
  | .nan sg => (fmt32.canonNaN, ⟨false, false, sg⟩)
  | .inf _ => (0, .none)
  | .fin m e =>
    if m = 0 then (fmt32.infCode, .none)
    else
      let ex := expOf m e
      let mm : FVal := .fin (m.natAbs : Int) (e - ex)
      let i := a / 2 ^ 15 % 256
      let t0 := rcpTab i
      let one : FVal := .fin 1 0
      let t1 := fma32 t0 (fma32 mm.neg t0 one) t0
      let t2 := fma32 t1 (fma32 mm.neg t1 one) t1
      let y := t2.scale (-ex)
      let r := fmt32.encode d.ovf false (if m < 0 then y.neg else y) ⟨0, 0⟩
      (r.code, r.flags)

/-- vrsq on an FP32 code (R173). -/
def vrsq (d : SlotDesc) (a : Nat) : Nat × FFlags :=
  match fmt32.decode a with
  | .nan sg => (fmt32.canonNaN, ⟨false, false, sg⟩)
  | .inf true => (fmt32.canonNaN, ⟨false, false, true⟩)
  | .inf false => (0, .none)
  | .fin m e =>
    if m = 0 then (fmt32.infCode, .none)
    else if m < 0 then (fmt32.canonNaN, ⟨false, false, true⟩)
    else
      let ex := expOf m e
      let k := ex / 2
      let bb := (ex % 2).toNat
      let h : FVal := .fin m (e - 2 * k - 1)
      let c15 : FVal := .fin 3 (-1)
      let t0 := rsqTab bb (a / 2 ^ 16 % 128)
      let t1 := mul32 t0 (fma32 h.neg (mul32 t0 t0) c15)
      let t2 := mul32 t1 (fma32 h.neg (mul32 t1 t1) c15)
      let r := fmt32.encode d.ovf false (t2.scale (-k)) ⟨0, 0⟩
      (r.code, r.flags)

/-- A table function on the active elements (R173): FMT must be 1. -/
def tableFn (opc t : Nat) (f : InsV) (g : SlotDesc → Nat → Nat × FFlags) (s : State) :
    Host.Outcome State Fault Refusal :=
  issue s t .vector (encV opc f) 0 (fun s _ =>
    if f.fmt ≠ 1 then .exc 0x02 0
    else
      let x := s.tile t
      let d := s.slot t 1
      let (v, fl) := vmapElems 32 128 (x.p f.pred.toNat) (f.pz == 1) (x.v f.vd.toNat)
        (fun i => g d (vbits (x.v f.vs1.toNat) (32 * i) 32))
      .done ((s.setTile t (x.setV f.vd.toNat v)).setFlags t fl))

/-- VEXP2 (R173). -/
def execVexp2 (t : Nat) (f : InsV) (s : State) : Host.Outcome State Fault Refusal := tableFn 0x50 t f vexp2 s
/-- VRCP (R173). -/
def execVrcp (t : Nat) (f : InsV) (s : State) : Host.Outcome State Fault Refusal := tableFn 0x51 t f vrcp s
/-- VRSQ (R173). -/
def execVrsq (t : Nat) (f : InsV) (s : State) : Host.Outcome State Fault Refusal := tableFn 0x52 t f vrsq s

/-! Tile memory as the tile itself sees it (R441, R508). -/

/-- The cause of a read of `n` bytes from offset `a` that meets a parity error or a marked line, if any. -/
def tmBad (x : Tile) (a n : Nat) : Option Nat :=
  if n = 0 then none
  else
    let ls := (List.range ((a + n - 1) / 128 + 1 - a / 128)).map (· + a / 128)
    if ls.any (fun l => x.badMem.contains l) then some 0x0A
    else if ls.any (fun l => x.poison.contains l) then some 0x0B
    else none

/-- The first byte of `n` bytes from offset `a` that lies in one of the listed lines. -/
def firstIn (ls : List Nat) (a n : Nat) : Option Nat :=
  if n = 0 then none
  else (ls.find? (fun l => decide (a < 128 * (l + 1)) && decide (128 * l < a + n))).map (fun l => max a (128 * l))

/-- The lowest cause among reads of several ranges (offset, length), with the first offset that meets it (R138). -/
def tmBadIn (x : Tile) (rs : List (Nat × Nat)) : Option (Nat × Nat) :=
  match rs.findSome? (fun p => firstIn x.badMem p.1 p.2) with
  | some a => some (0x0A, a)
  | none => (rs.findSome? (fun p => firstIn x.poison p.1 p.2)).map (fun a => (0x0B, a))

/-- The rows of an operand as ranges. -/
def rowRanges (base stride rows len : Nat) : List (Nat × Nat) := (List.range rows).map (fun i => (base + i * stride, len))

/-- An unpoisoned write: a whole line clears its poison bit and its parity error, a part keeps them (R508). -/
def tmWrite (x : Tile) (a : Nat) (bs : List (BitVec 8)) : Tile :=
  let n := bs.length
  let whole (l : Nat) : Bool := decide (a ≤ 128 * l) && decide (128 * (l + 1) ≤ a + n)
  { x with mem := mbytes x.mem a bs, poison := x.poison.filter (fun l => !whole l),
           badMem := x.badMem.filter (fun l => !whole l) }

/-! VGATHER and VSCATTER (R175). -/

/-- The first active element any byte of which lies at or above 0x10_0000. -/
def gatherFault (l : List (Nat × Nat)) (w : Nat) : Option Nat :=
  (l.find? (fun p => decide (0x100000 < p.2 + w))).map (·.2)

/-- VGATHER (R175). -/
def execVgather (t : Nat) (f : InsV) (s : State) : Host.Outcome State Fault Refusal :=
  issue s t .vector (encV 0x55 f) 0 (fun s _ =>
    match gatherWidth f.fmt.toNat with
    | none => .exc 0x02 0
    | some w =>
      let x := s.tile t
      let l := gatherList x f w
      match gatherFault l w with
      | some a => .exc 0x04 a
      | none =>
        match l.filterMap (fun p => (tmBad x p.2 w).map (fun c => (c, p.2))) with
        | (c, a) :: r =>
          let best := r.foldl (fun m q => if q.1 < m.1 then q else m) (c, a)
          .exc best.1 best.2
        | [] =>
          let v0 := if f.pz = 1 then
              (List.range (min 128 (512 / w))).foldl (fun v i =>
                if (x.p f.pred.toNat).getLsbD (w * i) then v else vput v (8 * w * i) (8 * w) 0) (x.v f.vd.toNat)
            else x.v f.vd.toNat
          let v := l.foldl (fun v p => vput v (8 * w * p.1) (8 * w) (leNat (mread x.mem p.2 w))) v0
          .done (s.setTile t (x.setV f.vd.toNat v)))

/-- VSCATTER (R175): the higher index remains. -/
def execVscatter (t : Nat) (f : InsV) (s : State) : Host.Outcome State Fault Refusal :=
  issue s t .vector (encV 0x56 f) 0 (fun s _ =>
    match gatherWidth f.fmt.toNat with
    | none => .exc 0x02 0
    | some w =>
      let x := s.tile t
      let l := gatherList x f w
      match gatherFault l w with
      | some a => .exc 0x04 a
      | none =>
        let y := l.foldl (fun y p =>
          tmWrite y p.2 (leBytes w (vbits (x.v f.vs2.toNat) (8 * w * p.1) (8 * w)))) x
        .done (s.setTile t y))

/-- VSPLAT (R176). -/
def execVsplat (t : Nat) (f : InsV) (s : State) : Host.Outcome State Fault Refusal :=
  issue s t .vector (encV 0x57 f) 0 (fun s _ =>
    let fmt := f.fmt.toNat
    if fmt = 12 ∨ (fmt = 15 ∧ ¬ (s.slot t 15).userValid) then .exc 0x02 0
    else
      let x := s.tile t
      let b := elemBits fmt
      let c := (x.s f.ss.toNat).toNat % 2 ^ b
      let (v, _) := vmapElems b (elemCount fmt) (x.p f.pred.toNat) (f.pz == 1) (x.v f.vd.toNat)
        (fun _ => (c, FFlags.none))
      .done (s.setTile t (x.setV f.vd.toNat v)))

/-- VGET (R77, R176). -/
def execVget (t : Nat) (f : InsV) (s : State) : Host.Outcome State Fault Refusal :=
  issue s t .vector (encV 0x58 f) 0 (fun s _ =>
    let fmt := f.fmt.toNat
    let b := elemBits fmt
    let i := f.imm.toNat
    if fmt = 12 ∨ (fmt = 15 ∧ ¬ (s.slot t 15).userValid) then .exc 0x02 0
    else if elemCount fmt ≤ i then .exc 0x04 0
    else
      let x := s.tile t
      if activeAt (x.p f.pred.toNat) b i then
        let c := vbits (x.v f.vs1.toNat) (b * i) b
        let r : BitVec 64 := if fmt = 14 then BitVec.ofInt 64 (signedOf c 32) else BitVec.ofNat 64 c
        .done (s.setTile t (x.setS f.ss.toNat r))
      else if f.pz = 1 then .done (s.setTile t (x.setS f.ss.toNat 0))
      else .done s)

/-- VMOV: active bytes (R153, R176). -/
def execVmov (t : Nat) (f : InsV) (s : State) : Host.Outcome State Fault Refusal :=
  issue s t .vector (encV 0x59 f) 0 (fun s _ =>
    let x := s.tile t
    let (v, _) := vmapElems 8 512 (x.p f.pred.toNat) (f.pz == 1) (x.v f.vd.toNat)
      (fun i => (vbits (x.v f.vs1.toNat) (8 * i) 8, FFlags.none))
    .done (s.setTile t (x.setV f.vd.toNat v)))

/-- The operation of PLOGIC under FUNC (R176). -/
def plogicOp (func : Nat) (a b : BitVec 512) : BitVec 512 :=
  match func with
  | 0 => a &&& b
  | 1 => a ||| b
  | 2 => a ^^^ b
  | 3 => a &&& ~~~b
  | 4 => ~~~a
  | 5 => a
  | 6 => BitVec.allOnes 512
  | _ => 0

/-- PLOGIC (R176). -/
def execPlogic (t : Nat) (f : InsV) (s : State) : Host.Outcome State Fault Refusal :=
  issue s t .vector (encV 0x5A f) 0 (fun s _ =>
    let x := s.tile t
    .done (s.setTile t (x.setP f.pd.toNat
      (plogicOp f.func.toNat (x.p (f.imm.toNat % 8)) (x.p (f.imm.toNat / 8 % 8))))))

end Sys2Proof.Machine
end

