-- ==== Sys2Proof/Machine/TileMatrix.lean ====
section
/-!
DEFINITION. Machine/TileMatrix.lean: the matrix array (chapter 04): MMA, DRAIN and AROLL, their interlocks
(R113), verdicts, retry and committed images (R117 to R122) and the bookkeeping of TILE_MMA_STAT.
-/

namespace Sys2Proof.Machine

/-! Rates (R105, R108, R110). -/

/-- Peak K steps per AC cycle of a pair as a fraction (R105). -/
def peakRate (a b : Nat) : Nat × Nat :=
  let narrow (n : Nat) : Bool := n == 7 || n == 8 || n == 9
  let eight (n : Nat) : Bool := n == 5 || n == 6 || n == 15 || n == 10
  if a = 2 ∨ b = 2 then (1, 4)
  else if a = 3 ∨ a = 4 ∨ b = 3 ∨ b = 4 then (1, 2)
  else if a = 12 ∨ b = 12 then (4, 1)
  else if (narrow a && narrow b) || (a == 11 && b == 11) then (2, 1)
  else if eight a || eight b then (1, 1)
  else (1, 1)

/-- Bytes of one element as a fraction (R108). -/
def elemFrac (slot : Nat) : Nat × Nat :=
  match slot with
  | 12 => (1, 5)
  | 9 => (1, 2)
  | 11 => (1, 2)
  | 7 => (3, 4)
  | 8 => (3, 4)
  | 3 => (2, 1)
  | 4 => (2, 1)
  | 2 => (4, 1)
  | _ => (1, 1)

/-- Division rounding up. -/
def cdiv (a b : Nat) : Nat := (a + b - 1) / b

/-- Accumulation group length of a pair (R93). -/
def pairGroup (da db : SlotDesc) : Nat :=
  if da.block ≠ 0 then da.block
  else if db.block ≠ 0 then db.block
  else min (groupLen da.slot) (groupLen db.slot)

/-- K rounded up (R110). -/
def kPad (da db : SlotDesc) (k : Nat) : Nat :=
  let g := if slotIsInt da.slot then 32 else pairGroup da db
  cdiv k g * g

/-- Occupancy T in AC cycles (R110). -/
def occupancy (shape : Nat) (da db : SlotDesc) (k : Nat) : Nat :=
  let kp := kPad da db k
  let (pn, pd) := peakRate da.slot db.slot
  let (an, ad) := elemFrac da.slot
  let (bn, bd) := elemFrac db.slot
  let wb := if shape = 0 then 256 else 1024
  max (cdiv (kp * pd) pn) (max (cdiv (kp * shapeRows shape * an) (256 * ad)) (cdiv (kp * shapeCols shape * bn) (wb * bd)))

/-! The operation itself (R163). -/

/-- Element k of row r of an operand in tile memory (R65, R160). -/
def operandElem (x : Tile) (d : SlotDesc) (desc : BitVec 64) (r k len : Nat) : FVal × Bool :=
  readElem d.slot d.desc (leNat (mread x.mem (descBase desc + r * descStride desc) len)) k

/-- The block scale exponent of a scale byte at an offset: 0 when unscaled, none for 0xFF (R97). -/
def operandScale (x : Tile) (d : SlotDesc) (off : Nat) : Option Int :=
  if d.block = 0 then some 0 else scaleOf (mget 0 x.mem off).toNat

/-- The decoded operands of an MMA, and whether an element read sets FMT_INV (R163). -/
structure MmaOps where
  shape : Nat
  bank : Nat
  zero : Bool
  da : SlotDesc
  db : SlotDesc
  m : Nat
  n : Nat
  k : Nat
deriving DecidableEq, Repr

/-- The fields of an MMA record. -/
def mmaOps (r : MmaRec) : MmaOps :=
  let f := decMma r.w0 r.w1
  ⟨f.shape.toNat, f.bank.toNat, f.zero == 1, ⟨f.fa.toNat, r.fda.toNat⟩, ⟨f.fb.toNat, r.fdb.toNat⟩,
   f.m1.toNat + 1, f.n1.toNat + 1, f.k1.toNat + 1⟩

/-- a[m][k] with the NaN of its block scale (R97). -/
def elemA (x : Tile) (r : MmaRec) (o : MmaOps) (m k : Nat) : FVal × Bool :=
  let (v, b) := operandElem x o.da r.da m k (elemBytes o.da.slot o.k)
  let nb := cdiv o.k o.da.block
  if o.da.block ≠ 0 ∧ operandScale x o.da (descScale r.da + m * nb + k / o.da.block) = none then (.nan false, b)
  else (v, b)

/-- b[k][n] with the NaN of its block scale (R97). -/
def elemB (x : Tile) (r : MmaRec) (o : MmaOps) (k n : Nat) : FVal × Bool :=
  let (v, b) := operandElem x o.db r.db k n (elemBytes o.db.slot o.n)
  if o.db.block ≠ 0 ∧ operandScale x o.db (descScale r.db + k / o.db.block * o.n + n) = none then (.nan false, b)
  else (v, b)

/-- The exponent of the scales of one group (R93, R162). -/
def groupScale (x : Tile) (r : MmaRec) (o : MmaOps) (m n k0 : Nat) : Int :=
  let sa := if o.da.block = 0 then some 0
    else operandScale x o.da (descScale r.da + m * cdiv o.k o.da.block + k0 / o.da.block)
  let sb := if o.db.block = 0 then some 0
    else operandScale x o.db (descScale r.db + k0 / o.db.block * o.n + n)
  sa.getD 0 + sb.getD 0

/-- The exact sum of one group of products, and whether a product or sum was invalid (R93, R94). A signalling NaN among
the operands is reported by the MMA itself (R163, mmaReadsInv), so it counts as quiet here. -/
def groupSum (x : Tile) (r : MmaRec) (o : MmaOps) (m n k0 len : Nat) : FVal × Bool :=
  let (v, inv) := (List.range (min len (o.k - k0))).foldl (fun acc i =>
    let (p, i1) := (elemA x r o m (k0 + i)).1.quiet.mul (elemB x r o (k0 + i) n).1.quiet
    let (q, i2) := acc.1.add p
    (q, acc.2 || i1 || i2)) (FVal.fin 0 0, false)
  (v.scale (groupScale x r o m n k0), inv)

/-- One float cell after the MMA: groups in ascending K, one rounding each (R93, R163). -/
def cellFloat (x : Tile) (r : MmaRec) (o : MmaOps) (m n : Nat) (c0 : BitVec 34) : BitVec 34 :=
  let g := pairGroup o.da o.db
  (List.range (cdiv o.k g)).foldl (fun c j =>
    let (p, i1) := groupSum x r o m n (j * g) g
    let (q, i2) := (accfDecode c.toNat).add p
    accfMark (accfInvalid c || i1 || i2) (BitVec.ofNat 34 (accfEncode q))) c0

/-- The integer value of an exact element. -/
def FVal.toI : FVal → Int
  | .fin m e => floorFin m e
  | _ => 0

/-- One integer cell after the MMA, modulo 2^32 (R95). -/
def cellInt (x : Tile) (r : MmaRec) (o : MmaOps) (m n : Nat) (c0 : BitVec 34) : BitVec 34 :=
  let v := (List.range o.k).foldl (fun acc k =>
    acc + (elemA x r o m k).1.toI * (elemB x r o k n).1.toI) (c0.toNat : Int)
  BitVec.ofNat 34 (v % 4294967296).toNat

/-- The bank after an MMA (R112, R115, R163). -/
def mmaApply (x : Tile) (r : MmaRec) (b : Bank) : Bank :=
  let o := mmaOps r
  let cols := shapeCols o.shape
  let b0 : Bank := if o.zero then ⟨o.shape, slotIsInt o.da.slot, []⟩ else b
  (List.range o.m).foldl (fun b m => (List.range o.n).foldl (fun (b : Bank) n =>
    let i := m * cols + n
    let c0 := mget 0 b.cells i
    { b with cells := mset 0 b.cells i (if b.int then cellInt x r o m n c0 else cellFloat x r o m n c0) }) b) b0

/-- Whether an operand byte read for the region sets FMT_INV (R163): a signalling NaN or an invalid TP5 byte. -/
def mmaReadsInv (x : Tile) (r : MmaRec) : Bool :=
  let o := mmaOps r
  (List.range o.m).any (fun m => (List.range o.k).any (fun k =>
    (operandElem x o.da r.da m k (elemBytes o.da.slot o.k)).2)) ||
  (List.range o.k).any (fun k => (List.range o.n).any (fun n =>
    (operandElem x o.db r.db k n (elemBytes o.db.slot o.n)).2))

/-! Checks (R115, R161, R163, R164). -/

/-- Whether a descriptor breaks an operand limit (R161): rows, packed row length, scale bytes (0 when none). -/
def descOperandBad (d : BitVec 64) (rows len scales : Nat) : Bool :=
  decide (descStride d < len) || descTop d != 0 || decide (0x100000 < descBase d + extent (descStride d) rows len) ||
    (decide (0 < scales) && decide (0x100000 < descScale d + scales))

/-- BASE and STRIDE multiples of 16 (R161). -/
def descMisaligned (d : BitVec 64) : Bool := descBase d % 16 != 0 || descStride d % 16 != 0

/-- Scale bytes of operand A and B (R162). -/
def scalesA (d : SlotDesc) (m k : Nat) : Nat := if d.block = 0 then 0 else m * cdiv k d.block
/-- Scale bytes of operand B. -/
def scalesB (d : SlotDesc) (n k : Nat) : Nat := if d.block = 0 then 0 else n * cdiv k d.block

/-- The lowest cause of an MMA, if any (R138, R163), with the tile-memory offset that TILE_EXC_ADDR takes: the BASE of
the misaligned descriptor, A before B, or the first offset read that meets the error; 0 for the other causes, which
have no single one (DEDUCED, log 140). -/
def mmaCause (s : State) (t : Nat) (f : InsMma) (da db : BitVec 64) : Option (Nat × Nat) :=
  let x := s.tile t
  let sa := s.slot t f.fa.toNat
  let sb := s.slot t f.fb.toNat
  let ishape := if f.bank = 0 then x.ishape0 else x.ishape1
  let iint := if f.bank = 0 then x.iint0 else x.iint1
  let m := f.m1.toNat + 1
  let n := f.n1.toNat + 1
  let k := f.k1.toNat + 1
  let la := elemBytes sa.slot k
  let lb := elemBytes sb.slot n
  if slotIsMatrix sa.slot = false ∨ slotIsMatrix sb.slot = false ∨
      (sa.slot = 15 ∧ ¬ sa.userValid) ∨ (sb.slot = 15 ∧ ¬ sb.userValid) ∨
      (slotIsInt sa.slot ≠ slotIsInt sb.slot) ∨
      (sa.block ≠ 0 ∧ sb.block ≠ 0 ∧ sa.block ≠ sb.block) ∨
      (f.zero = 0 ∧ ishape ≠ 3 ∧ iint ≠ slotIsInt sa.slot) then some (0x02, 0)
  else if f.shape = 3 ∨ (f.zero = 0 ∧ ishape ≠ f.shape.toNat) then some (0x03, 0)
  else if shapeRows f.shape.toNat < m ∨ shapeCols f.shape.toNat < n ∨
      descOperandBad da m la (scalesA sa m k) ∨ descOperandBad db k lb (scalesB sb n k) then some (0x04, 0)
  else if descMisaligned da then some (0x05, descBase da)
  else if descMisaligned db then some (0x05, descBase db)
  else
    tmBadIn x (rowRanges (descBase da) (descStride da) m la ++ rowRanges (descBase db) (descStride db) k lb ++
      [(descScale da, scalesA sa m k), (descScale db, scalesB sb n k)])

/-- Matrix instructions that have left their queue and would go back to the pending list of a save: MMAs that have not
entered, the newest one in the array, and drains that have not started. -/
def matrixOut (x : Tile) : Nat :=
  (x.mmas.filter (fun r => r.st == 0)).length + b2n (x.mmas.any (fun r => r.st == 1)) +
    (x.drains.filter (fun d => d.st == 0)).length

/-- Whether the matrix stream issues nothing: a retry runs (R120), or a further instruction would not fit the 16 entries
of its pending list beside a full queue (R145; DEDUCED, log 141). -/
def matrixHeld (x : Tile) : Bool := x.retryBank.isSome || decide (7 < matrixOut x)

/-- MMA (R112, R160, R163): checked and issued to the array. -/
def execMma (t : Nat) (f : InsMma) (s : State) : Host.Outcome State Fault Refusal :=
  if matrixHeld (s.tile t) then .next s
  else
  issue s t .matrix (encMma f).1 (encMma f).2 (fun s e =>
    let x := s.tile t
    let da := x.s f.sa.toNat
    let db := x.s f.sb.toNat
    match mmaCause s t f da db with
    | some c => .exc c.1 c.2
    | none =>
      let r : MmaRec := { tag := e.tag, pc := e.pc, w0 := e.w0, w1 := e.w1, st := 0, da := da, db := db,
                          fda := BitVec.ofNat 64 (s.slot t f.fa.toNat).desc,
                          fdb := BitVec.ofNat 64 (s.slot t f.fb.toNat).desc,
                          inv := false, srSeed := 0, srLeft := 0, retry := false, inj := x.inj,
                          injFailed := false, res := .none, enterBy := 0 }
      let u := useOf s t .matrix [] e
      let cls := slotIsInt f.fa.toNat
      let x := { x with mmas := x.mmas ++ [r], inj := false, uses := x.uses ++ [{ u with reads := [], writes := [] }] }
      let x := if f.zero = 0 then x
        else if f.bank = 0 then { x with ishape0 := f.shape.toNat, iint0 := cls }
        else { x with ishape1 := f.shape.toNat, iint1 := cls }
      .done ((s.setTile t x).setFld .TILE_MMA_STAT (tix t) TILE_MMA_STAT.SHAPE f.shape.toNat))

/-- Update of the records of MMAs by tag. -/
def mapMma (x : Tile) (tag : Nat) (g : MmaRec → MmaRec) : Tile :=
  { x with mmas := x.mmas.map (fun (r : MmaRec) => if r.tag = tag then g r else r) }

/-- Update of the records of drains by tag. -/
def mapDrain (x : Tile) (tag : Nat) (g : DrainRec → DrainRec) : Tile :=
  { x with drains := x.drains.map (fun (r : DrainRec) => if r.tag = tag then g r else r) }

/-- The shape of a record. -/
def MmaRec.shape (r : MmaRec) : Nat := (decMma r.w0 r.w1).shape.toNat
/-- The bank of a drain. -/
def DrainRec.bank (r : DrainRec) : Nat := (decDrain r.w0 r.w1).bank.toNat

/-- Whether the tile's array runs: powered, no containment reset (R449). -/
def arrayRuns (s : State) (t : Nat) : Bool :=
  s.up && decide (t < 512) && !s.bit .KST_RAS_STAT [] KST_RAS_STAT.CONT_ACTIVE

/-- Whether the banks hold an MMA back (R113 rules 1 and 3): another shape waits until the MMA before it is final, and
earlier drains of its bank must have been released. -/
def bankHeld (x : Tile) (r : MmaRec) : Bool :=
  x.mmas.any (fun q => decide (q.tag < r.tag) && decide (q.st < 2) && q.shape != r.shape) ||
    x.drains.any (fun d => decide (d.tag < r.tag) && d.bank == r.bank && decide (d.st < 2))

/-- Whether rule 1, 3 or 5 of R113 holds an MMA back in an AC cycle: an issued one by the array or a bank, one behind a
third drain by the drain queue. -/
def bankStalled (x : Tile) (ac : Nat) : Bool :=
  (match x.mmas.find? (fun r => r.st == 0) with
   | some r => bankHeld x r || x.mmas.any (fun q => decide (q.tag < r.tag) && q.st == 1 && decide (ac < q.enterBy))
   | none => false) ||
  ((match x.qm.head? with
    | some e => opcOf e.w0 == 0x81
    | none => false) && decide (2 ≤ (x.drains.filter (fun d => decide (d.st < 2))).length) &&
   x.qm.any (fun e => opcOf e.w0 == 0x80))

/-- The next MMA to enter, when the interlocks allow it: the first issued one. -/
def canEnter (x : Tile) : Option MmaRec :=
  match x.mmas.find? (fun r => r.st == 0) with
  | none => none
  | some r => if bankHeld x r || x.retryBank.isSome then none else some r

/-- Occupancy of a record (R110). -/
def MmaRec.cycles (r : MmaRec) : Nat := let o := mmaOps r; occupancy o.shape o.da o.db o.k

/-- AC cycles of its occupancy in which a K step enters (R126): every one, unless a cycle takes several steps. -/
def MmaRec.active (r : MmaRec) : Nat := let o := mmaOps r; min r.cycles (kPad o.da o.db o.k)

/-- AC cycles of its occupancy beyond those of the pair's peak rate: its K steps wait for an operand port (R105, R108). -/
def MmaRec.portStall (r : MmaRec) : Nat :=
  let o := mmaOps r
  let (pn, pd) := peakRate o.da.slot o.db.slot
  r.cycles - cdiv (kPad o.da o.db o.k * pd) pn

/-- An MMA enters: the generator as it stands is kept for a retry (R85), and the MMAs before it have entered wholly. -/
def enterMma (x : Tile) (tag ac : Nat) (g : SrGen) : Tile :=
  { x with mmas := x.mmas.map (fun (q : MmaRec) =>
      if q.tag = tag then { q with st := 1, srSeed := g.seed, srLeft := g.left, enterBy := ac + q.cycles }
      else { q with enterBy := 0 }) }

/-- MMA_ENTER (R113). Its K steps enter over the cycles that follow; FEED_STALL takes those lost to a port below the peak
rate, and a free number lost to bank arbitration (R107), whose order among requesters takes cycles the model does not
show (log 134). -/
def execMmaEnter (t : Nat) (s : State) : Host.Outcome State Fault Refusal :=
  if arrayRuns s t then
    match canEnter (s.tile t) with
    | none => .next s
    | some r =>
      let (lost, s) := s.freeNat 0x100000000
      let s := s.setTile t (enterMma (s.tile t) r.tag (s.rd .SPAN_AC_CNT [t / 64]) (s.gen t))
      let s := s.wrapInc .TILE_MMA_PERF (tix t) TILE_MMA_PERF.FEED_STALL (r.portStall + lost)
      .next (s.wrapInc .TILE_MMA_KSTEP (tix t) TILE_MMA_KSTEP.ACTIVE r.active)
  else .next s

/-- MMA_FINAL (R110): the oldest MMA in the array is added into its bank. -/
def execMmaFinal (t : Nat) (s : State) : Host.Outcome State Fault Refusal :=
  if arrayRuns s t then
    let x := s.tile t
    match x.mmas.find? (fun r => decide (r.st < 2)) with
    | some r =>
      if r.st = 1 then
        let b := mmaApply x r (x.bank r.bank)
        .next (s.setTile t (mapMma (x.setBank r.bank b) r.tag (fun r => { r with st := 2, inv := mmaReadsInv x r, res := b })))
      else .next s
    | none => .next s
  else .next s

/-! DRAIN (R100, R111, R164). -/

/-- The lowest cause of a DRAIN, if any (R164), with what TILE_EXC_ADDR takes (log 140). -/
def drainCause (s : State) (t : Nat) (f : InsDrain) (dd : BitVec 64) : Option (Nat × Nat) :=
  let x := s.tile t
  let sd := s.slot t f.dslot.toNat
  let ishape := if f.bank = 0 then x.ishape0 else x.ishape1
  let rows := f.rows1.toNat + 1
  let cols := f.cols1.toNat + 1
  let len := elemBytes sd.slot cols
  if sd.slot = 13 ∨ (sd.slot = 15 ∧ ¬ sd.userValid) then some (0x02, 0)
  else if ishape = 3 then some (0x03, 0)
  else if shapeRows ishape < f.row0.toNat + rows ∨ shapeCols ishape < f.col0.toNat + cols ∨
      (sd.block ≠ 0 ∧ (f.col0.toNat % sd.block ≠ 0 ∨ cols % sd.block ≠ 0)) ∨
      descOperandBad dd rows len (if sd.block = 0 then 0 else rows * (cols / sd.block)) then some (0x04, 0)
  else if descMisaligned dd then some (0x05, descBase dd)
  else none

/-- Drains that count against the depth of the drain queue (R113 rule 5): a drain has finished, for this, when its last
read completes and it releases its bank; the write of its data does not hold a third one back (DESIGN CHOICE, log 142). -/
def drainsOut (x : Tile) : Nat := (x.drains.filter (fun d => decide (d.st < 2))).length

/-- DRAIN (R113, R164): checked and placed in the drain queue of depth 2, with the FMT_DESC entry of its destination as
it stands (R79). -/
def execDrain (t : Nat) (f : InsDrain) (s : State) : Host.Outcome State Fault Refusal :=
  if matrixHeld (s.tile t) ∨ 2 ≤ drainsOut (s.tile t) then .next s
  else
  issue s t .matrix (encDrain f).1 (encDrain f).2 (fun s e =>
    let x := s.tile t
    let dd := x.s f.sd.toNat
    match drainCause s t f dd with
    | some c => .exc c.1 c.2
    | none =>
      let d : DrainRec := { tag := e.tag, pc := e.pc, w0 := e.w0, w1 := e.w1, st := 0, dd := dd,
                            desc := (s.slot t f.dslot.toNat).desc, again := false, data := [],
                            flags := 0, top := 0, nan := false, deps := [],
                            shape := if f.bank = 0 then x.ishape0 else x.ishape1,
                            int := if f.bank = 0 then x.iint0 else x.iint1 }
      let u := useOf s t .matrix [] e
      .done (s.setTile t { x with drains := x.drains ++ [d], uses := x.uses ++ [{ u with reads := [] }] }))

/-- The exact value of a bank cell. -/
def cellVal (isInt : Bool) (c : BitVec 34) : FVal :=
  if isInt then .fin (signedOf c.toNat 32) 0 else accfDecode c.toNat

/-- The converted bytes of one drained row, its scale bytes, flags and the generator. -/
def drainRow (d : SlotDesc) (vals : List FVal) (g : SrGen) : List (BitVec 8) × List (BitVec 8) × FFlags × SrGen :=
  let (codes, scales, fl, g') := cvtAll d (vals.map some) g
  let cs := codes.map (fun c => c.getD 0)
  let n := elemBytes d.slot cs.length
  let row :=
    if d.slot = 12 then
      (List.range n).foldl (fun acc b => acc + tritByte ((cs.drop (5 * b)).take 5) * 256 ^ b) 0
    else (cs.zipIdx).foldl (fun acc p => acc + p.1 % 2 ^ elemBits d.slot * 2 ^ (elemBits d.slot * p.2)) 0
  (leBytes n row, scales.map (BitVec.ofNat 8), fl, g')

/-- The destination slot of a drain with its descriptor as it stood at issue. -/
def DrainRec.slot (d : DrainRec) : SlotDesc := ⟨(decDrain d.w0 d.w1).dslot.toNat, d.desc⟩

/-- A run of bytes put after the runs before it, joined to the last one where they touch. -/
def addRun (l : List (Nat × List (BitVec 8))) (a : Nat) (bs : List (BitVec 8)) : List (Nat × List (BitVec 8)) :=
  match l with
  | [] => [(a, bs)]
  | [p] => if p.1 + p.2.length = a then [(p.1, p.2 ++ bs)] else [p, (a, bs)]
  | p :: r => p :: addRun r a bs

/-- What a drain reads and converts when it starts (R100, R164): the runs of bytes to write, data before scales, flags,
the gathered maximum, the NaN mark and the generator. -/
def drainWork (s : State) (t : Nat) (d : DrainRec) :
    List (Nat × List (BitVec 8)) × FFlags × Nat × Bool × SrGen :=
  let f := decDrain d.w0 d.w1
  let x := s.tile t
  let b := x.bank d.bank
  let sd := d.slot
  let am := s.rd .TILE_AMAX (tix t ++ [f.amax.toNat])
  let sc : Int := signedOf (fget am TILE_AMAX.SCALE) 8
  let cols := f.cols1.toNat + 1
  let w := shapeCols d.shape
  let (rows, scales, fl, top, nan, g) := (List.range (f.rows1.toNat + 1)).foldl (fun acc r =>
    let (rows, scales, fl0, top0, nan0, g0) := acc
    let idx := (List.range cols).map (fun c => (f.row0.toNat + r) * w + f.col0.toNat + c)
    let xs := idx.map (fun i => cellVal d.int (mget 0 b.cells i))
    let inv := !d.int && idx.any (fun i => accfInvalid (mget 0 b.cells i))
    let (bs, scs, fl, g) := drainRow sd (xs.map (fun v => v.scale sc)) g0
    let top := xs.foldl (fun m v => if v.isNaN then m else max m (accfMag v)) top0
    (addRun rows (descBase d.dd + r * descStride d.dd) bs, scales ++ scs, (fl0.or fl).or ⟨false, false, inv⟩, top,
     nan0 || xs.any FVal.isNaN, g))
    ([], [], FFlags.none, 0, false, s.gen t)
  (if scales.isEmpty then rows else rows ++ [(descScale d.dd, scales)], fl, top, nan, g)

/-- A flag set as a number of three bits. -/
def FFlags.num (f : FFlags) : Nat := b2n f.ovf + 2 * b2n f.unf + 4 * b2n f.inv

/-- The flag set of a number. -/
def flagsOf (n : Nat) : FFlags := ⟨n % 2 == 1, n / 2 % 2 == 1, n / 4 % 2 == 1⟩

/-- The next drain to start, when it may (R113 rules 2, 4 and 6). -/
def canStartDrain (s : State) (t : Nat) : Option DrainRec :=
  let x := s.tile t
  match x.drains.find? (fun d => d.st == 0) with
  | none => none
  | some d =>
    let mine := x.mmas.filter (fun r => decide (r.tag < d.tag) && r.bank == d.bank)
    if x.drains.any (fun q => q.st == 1) || mine.any (fun r => r.st != 2) || (d.slot.stoch && !mine.isEmpty) then none
    else some d

/-- The held updates of a drain: flags and the AMAX maximum (R91, R100). -/
def releaseDrain (s : State) (t : Nat) (d : DrainRec) : State :=
  let f := decDrain d.w0 d.w1
  let ix := tix t ++ [f.amax.toNat]
  let am := s.rd .TILE_AMAX ix
  let old := fget am TILE_AMAX.FRAC + fget am TILE_AMAX.EXP * 2 ^ 23
  let top := max old d.top
  let am := fput (fput am TILE_AMAX.FRAC (top % 2 ^ 23)) TILE_AMAX.EXP (top / 2 ^ 23)
  let am := if d.nan then fput am TILE_AMAX.NAN_SEEN 1 else am
  (s.wr .TILE_AMAX ix am).setFlags t (flagsOf d.flags)

/-- Drains that have written and wait for no verdict leave the tile, with their updates made (R91, R119). -/
def finishDrains (s : State) (t : Nat) : State :=
  let x := s.tile t
  let done := x.drains.filter (fun d => d.st == 3 && d.deps.isEmpty)
  let s := done.foldl (fun s d => releaseDrain s t d) s
  let x := s.tile t
  let tags := done.map (·.tag)
  s.setTile t { x with drains := x.drains.filter (fun d => !tags.contains d.tag),
                       uses := x.uses.filter (fun u => !tags.contains u.tag) }

/-- DRAIN_START (R113). -/
def execDrainStart (t : Nat) (s : State) : Host.Outcome State Fault Refusal :=
  if arrayRuns s t then
    match canStartDrain s t with
    | none => .next s
    | some d =>
      let (data, fl, top, nan, g) := drainWork s t d
      let deps := ((s.tile t).mmas.filter (fun r => decide (r.tag < d.tag) && r.bank == d.bank)).map (·.tag)
      let s := s.setGen t g
      .next (s.setTile t (mapDrain (s.tile t) d.tag (fun d =>
        { d with st := 1, data := data, flags := fl.num, top := top, nan := nan, deps := deps })))
  else .next s

/-- DRAIN_RELEASE (R111): the last read completes and the bank is released. -/
def execDrainRelease (t : Nat) (s : State) : Host.Outcome State Fault Refusal :=
  if arrayRuns s t then
    match (s.tile t).drains.find? (fun d => d.st == 1) with
    | none => .next s
    | some d => .next (s.setTile t (mapDrain (s.tile t) d.tag (fun d => { d with st := 2 })))
  else .next s

/-- DRAIN_WRITE_DONE (R111): the converted data is in tile memory. -/
def execDrainWriteDone (t : Nat) (s : State) : Host.Outcome State Fault Refusal :=
  if arrayRuns s t then
    match (s.tile t).drains.find? (fun d => d.st == 2) with
    | none => .next s
    | some d =>
      let x := d.data.foldl (fun x p => tmWrite x p.1 p.2) (s.tile t)
      let s := s.setTile t (mapDrain x d.tag (fun d => { d with st := 3, data := [], again := false }))
      .next (settle (finishDrains s t) t)
  else .next s

/-- AROLL (R102, R165): waits on the scoreboard for earlier drains that name the register. -/
def execAroll (t : Nat) (a : BitVec 4) (s : State) : Host.Outcome State Fault Refusal :=
  if (s.tile t).retryBank.isSome then .next s
  else issue s t .matrix (encAroll a) 0 (fun s _ => .done (rollAmax s t a.toNat))

/-! Verdicts (R117 to R122). -/

/-- Verdict results as the epochs see them (R193, R194): a failure closes and fails the epochs that depend on
it, a pass removes the dependence. -/
def epochVerdict (s : State) (t tag : Nat) (pass : Bool) : State :=
  let hit := s.epochs.any (fun e => e.tile == t && e.deps.contains tag)
  if ¬ hit then s
  else
    let s := if pass then s else
      if s.epochs.any (fun e => e.tile == t && !e.closed && e.deps.contains tag) then closeEpoch s t else s
    resolveEpochs { s with epochs := s.epochs.map (fun (e : Epoch) =>
        if e.tile == t && e.deps.contains tag then
          { e with deps := sdel e.deps tag, failed := e.failed || !pass } else e) }

/-- A request to retire a tile (R122, R123 event 1): the tile stops issuing. -/
def retireRequest (s : State) (t : Nat) : State :=
  let x := s.tile t
  if x.retiring = 0 then s.setTile t { x with retiring := 1 } else s

/-- A verdict that passes (R118 to R121). -/
def verdictPass (s : State) (t : Nat) (r : MmaRec) : State :=
  let x := s.tile t
  let x1 := x.setCom r.bank r.res
  let x2 := { x1 with mmas := x1.mmas.filter (fun q => q.tag != r.tag),
                      uses := x1.uses.filter (fun u => u.tag != r.tag),
                      drains := x1.drains.map (fun (d : DrainRec) => { d with deps := sdel d.deps r.tag }),
                      retryBank := if r.retry then none else x1.retryBank }
  let s := s.setTile t x2
  let s := if r.inv then s.setFlags t ⟨false, false, true⟩ else s
  let s := epochVerdict s t r.tag true
  let s := if r.retry then s.satInc .TILE_MMA_STAT (tix t) TILE_MMA_STAT.RETRY_PASS_CNT 1 else s
  let s :=
    if r.retry ∧ ¬ r.injFailed then
      let (s, hit) := retireEvent s 0 (unitOfTile s t)
      if hit then retireRequest s t else s
    else s
  finishDrains s t

/-- A first verdict that fails: the retry of R120. The MMAs executed again enter one after the other once the bank has
been reloaded, which takes 64 AC cycles; their active cycles count again (R126). -/
def startRetry (s : State) (t : Nat) (r : MmaRec) : State :=
  let x := s.tile t
  let b := r.bank
  let again (q : MmaRec) : Bool := q.bank == b && decide (r.tag ≤ q.tag) && q.st != 0
  let by_ (tag : Nat) : Nat := s.rd .SPAN_AC_CNT [t / 64] + 64 +
    ((x.mmas.filter (fun q => again q && decide (q.tag ≤ tag))).map MmaRec.cycles).sum
  let s := s.wrapInc .TILE_MMA_KSTEP (tix t) TILE_MMA_KSTEP.ACTIVE ((x.mmas.filter again).map MmaRec.active).sum
  let mm := x.mmas.map (fun (q : MmaRec) =>
    if q.tag = r.tag then
      { q with st := 1, retry := true, inv := false, injFailed := q.inj, inj := false, enterBy := by_ q.tag }
    else if again q then { q with st := 1, inv := false, enterBy := by_ q.tag } else q)
  let dr := x.drains.map (fun (d : DrainRec) =>
    if d.bank = b ∧ r.tag < d.tag ∧ d.st ≠ 0 then
      { d with st := 0, data := [], flags := 0, top := 0, nan := false, deps := [], again := true } else d)
  let x := ({ x with mmas := mm, drains := dr, retryBank := some b } : Tile).setBank b (x.com b)
  let s := s.setTile t x
  let s := epochVerdict s t r.tag false
  let s := s.setGen t ⟨r.srSeed, r.srLeft⟩
  recordAt s (unitOfTile s t) 1 0x01 0 none

/-- MMA_VERDICT (R117 to R122): verdicts arrive in the order in which the MMAs entered. -/
def execMmaVerdict (t : Nat) (pass : Bool) (s : State) : Host.Outcome State Fault Refusal :=
  if arrayRuns s t then
    match (s.tile t).mmas with
    | r :: _ =>
      if r.st ≠ 2 then .next s
      else if pass && !r.inj then .next (settle (verdictPass s t r) t)
      else
        let s := s.satInc .TILE_MMA_STAT (tix t) TILE_MMA_STAT.MISMATCH_CNT 1
        if r.retry then
          let s := epochVerdict s t r.tag false
          .next (retireRequest (s.setTile t (mapMma (s.tile t) r.tag (fun r => { r with st := 3 }))) t)
        else .next (startRetry s t r)
    | [] => .next s
  else .next s

end Sys2Proof.Machine
end

