-- ==== Sys2Proof/Machine/TileControl.lean ====
section
/-!
DEFINITION. Machine/TileControl.lean: dispatch start and end of a tile, TILE_CTL, preemption with its save record,
restore, tile reset, program load and retirement (R122 to R150, R157, R202, R512).
-/

namespace Sys2Proof.Machine

/-- Physical tile group of a logical tile (R411): spare 64 + k lies in group 2k + 1. -/
def groupOf (s : State) (t : Nat) : Nat :=
  let p := physOf s t
  if p < 64 then p / 8 else 2 * (p - 64) + 1

/-- Whether the power domain of a tile is on (R413). -/
def tilePowered (s : State) (t : Nat) : Bool :=
  (s.fld .SPAN_PWR_STAT [t / 64] SPAN_PWR_STAT.PD_ON >>> groupOf s t) % 2 == 1

/-- Verdicts that are discarded count as failed for the epochs that depend on them (R125, R194). -/
def failVerdicts (s : State) (t : Nat) : State :=
  ((s.tile t).mmas.map (·.tag)).foldl (fun s tag => epochVerdict s t tag false) s

/-- A tile whose queued and executing instructions are discarded; writes already issued complete (R148, R252). -/
def Tile.discard (x : Tile) : Tile :=
  { x.contStop with
    outs := x.outs, excTag := none, acc0 := .none, acc1 := .none, com0 := .none, com1 := .none, inj := false }

/-- The tiles of the dispatch that a tile runs: those of the same serial number, or, for a dispatch started
directly, the started tiles of its context outside queue service (R101, R157). -/
def dispTiles (s : State) (t : Nat) : List Nat :=
  let x := s.tile t
  (s.tiles.filter (fun p => p.2.started && p.2.disp == x.disp && (x.disp != 0 || tileCtx s p.1 == tileCtx s t))).map
    (·.1)

/-- The end-of-dispatch roll of one tile (R101). -/
def endRoll (s : State) (t : Nat) : State :=
  (List.range 16).foldl (fun s a =>
    if s.bit .TILE_AMAX (tix t ++ [a]) TILE_AMAX.AUTO then rollAmax s t a else s) s

/-- A tile becomes IDLE; when the last tile of its dispatch does, the roll takes place (R157). A dispatch that was
started directly is then over. -/
def goIdle (s : State) (t : Nat) : State :=
  let s := s.setTstate t 0
  let x := s.tile t
  if !x.started then s
  else
    let s := s.setTile t { x with ended := true, fetchHold := true }
    let ts := dispTiles s t
    if ts.all (fun u => (s.tile u).ended) then
      let s := ts.foldl endRoll s
      if x.disp = 0 then ts.foldl (fun s u => s.setTile u { s.tile u with started := false, ended := false }) s else s
    else s

/-! START (R132, R142, R201). -/

/-- Whether the Stay window of a tile is legal. -/
def stayWinOk (s : State) (t : Nat) : Bool :=
  decide (s.fld .TILE_STAY_WIN (tix t) TILE_STAY_WIN.SPAN_BASE + s.fld .TILE_STAY_WIN (tix t) TILE_STAY_WIN.SPAN_COUNT
    ≤ 1024) &&
  decide (s.fld .TILE_STAY_WIN (tix t) TILE_STAY_WIN.KST_BASE + s.fld .TILE_STAY_WIN (tix t) TILE_STAY_WIN.KST_COUNT
    ≤ 4096)

/-- The effect of an accepted START (R132). -/
def startTile (s : State) (t disp : Nat) : State :=
  let x := s.tile t
  let ctx := s.fld .TILE_ENTRY (tix t) TILE_ENTRY.CTX_ID
  let pc := s.fld .TILE_ENTRY (tix t) TILE_ENTRY.PC
  let change := ctx != tileCtx s t
  let y : Tile := if change then { x with mem := [], poison := [], badMem := [], vregs := [], pregs := [] } else x
  let s := if change && !x.progWritten then s.wr .TILE_PROG_ID (tix t) 0 else s
  let s := s.setFld .TILE_STAT (tix t) TILE_STAT.CTX_ID ctx
  let s := (s.wr .TILE_EXC (tix t) 0).wr .TILE_EXC_ADDR (tix t) 0
  let s := (s.setFld .TILE_MOVE_STAT (tix t) TILE_MOVE_STAT.FIRST_STATUS 0).setFld .TILE_MOVE_STAT (tix t)
    TILE_MOVE_STAT.FAIL_CNT 0
  let s := s.setFld .TILE_EPOCH (tix t) TILE_EPOCH.REVOKED_D 0
  let s := s.setFld .TILE_FMT_FLAGS (tix t) ⟨10, 8⟩ 0
  let sregs := mset 0 (mset 0 (mset 0 [] 1 (BitVec.ofNat 64 (s.rd .TILE_ARG (tix t)))) 2
    (BitVec.ofNat 64 (s.fld .TILE_ENTRY (tix t) TILE_ENTRY.RANK))) 3
    (BitVec.ofNat 64 (s.fld .TILE_ENTRY (tix t) TILE_ENTRY.COUNT_M1 + 1))
  let y : Tile := { y with
    sregs := sregs, pc := pc, nextTag := 0, fetchHold := false, qs := [], qv := [], qm := [], qx := [], uses := [],
    resv := [], acc0 := .none, acc1 := .none, com0 := .none, com1 := .none, ishape0 := 3, iint0 := false,
    ishape1 := 3, iint1 := false, mmas := [], drains := [], retryBank := none, moves := [], loads := [],
    wfail := [], fence := none, stays := [], excTag := none, aborting := false, progWritten := false, retiring := 0, started := true, ended := false,
    layer := 0, wants := [], rfail := false, disp := disp, stcFails := 0, gran := s.fld .CTX_RSV_CTL [ctx] CTX_RSV_CTL.GRAN, ordered := s.bit .CTX_MODE [ctx] CTX_MODE.ORDER }
  let s := (s.setTile t y).setTstate t 1
  if pc % 8 ≠ 0 then raiseExc s t 0 0 0x08 pc 0 else settle s t

/-- Whether a START is accepted in the state the tile is in (R132, R141, R142, R201, R373, R413). -/
def startOk (s : State) (t : Nat) : Bool :=
  s.tstate t == 0 && !s.bit .TILE_CTL (tix t) TILE_CTL.DISABLE && stayWinOk s t && tilePowered s t &&
  !s.bit .KST_PARK [] KST_PARK.PARKED

/-! Tile reset (R148). -/

/-- The start of a tile reset: work is discarded and RESETTING reads 1. -/
def beginReset (s : State) (t : Nat) : State :=
  let s := withdrawWaits (closeEpoch (failVerdicts s t) t) t
  let s := s.setTile t (s.tile t).discard
  s.setFld .TILE_STAT (tix t) TILE_STAT.RESETTING 1

/-- Registers of one tile after a tile reset: every field whose domain a tile reset covers. -/
def tileRegsReset (s : State) (t : Nat) : State :=
  let one (s : State) (r : RegId) (ix : List Nat) : State :=
    s.wr r ix (resetWord 0 (regInfo r) s.asm ix (s.rd r ix))
  let s := [RegId.TILE_CTL, .TILE_STAT, .TILE_ENTRY, .TILE_ARG, .TILE_EXC, .TILE_EXC_ADDR, .TILE_SAVE_BASE,
    .TILE_IMEM_SRC, .TILE_IMEM_LOAD, .TILE_PROG_ID, .TILE_STAY_WIN, .TILE_MOVE_STAT, .TILE_EPOCH, .TILE_MMA_CTL,
    .TILE_MMA_STAT, .TILE_MMA_PERF, .TILE_MMA_KSTEP, .TILE_FMT_FLAGS, .TILE_FMT_CTL, .TILE_SR_SEED].foldl
      (fun s r => one s r (tix t)) s
  (List.range 16).foldl (fun s n => one (one s .TILE_AMAX (tix t ++ [n])) .FMT_DESC (tix t ++ [n])) s

/-- A tile after a reset: registers zero, memories kept. -/
def Tile.afterReset (x : Tile) : Tile :=
  { Tile.zero with mem := x.mem, poison := x.poison, badMem := x.badMem, imem := x.imem, badImem := x.badImem,
                   outs := x.outs, progWritten := x.progWritten, started := x.started, ended := x.ended,
                   disp := x.disp }

/-- The completion of a tile reset: the tile is IDLE (LOST stays LOST). -/
def endReset (s : State) (t : Nat) : State :=
  let st := s.tstate t
  let unres := s.fld .TILE_EPOCH (tix t) TILE_EPOCH.UNRESOLVED
  let seq := s.fld .TILE_EPOCH (tix t) TILE_EPOCH.NEXT_SEQ
  let s := tileRegsReset s t
  let s := (s.setFld .TILE_EPOCH (tix t) TILE_EPOCH.UNRESOLVED unres).setFld .TILE_EPOCH (tix t)
    TILE_EPOCH.NEXT_SEQ seq
  let s := s.setFld .TILE_STAT (tix t) TILE_STAT.RESETTING 0
  let s := s.setTile t (s.tile t).afterReset
  if st = 7 then s.setTstate t 7 else goIdle s t

/-! ABORT (R141, R252). -/

/-- The address of a tile's save page (R145). -/
def savePage (s : State) (t : Nat) : Nat := s.fld .TILE_SAVE_BASE (tix t) TILE_SAVE_BASE.BASE * 2097152

/-- A firmware write of a line of memory at a local address (R509); what cannot be decoded is dropped and
logged. -/
def fwWriteLine (s : State) (a : Nat) (v : LineVal) (mask : BitVec 128) : State :=
  match decLocal s .fw a true with
  | (.ok (.line l ty) act, s) =>
    (writeLineVia (touch s act) .none_ l ty true v mask ⟨[], [], 0⟩).getD
      (memWrite (recallWhole (lineWritten s l) l) l v mask)
  | (_, s) => logFail s .fw a

/-- The line of memory at a local address as firmware reads it, if it decodes. -/
def fwLine (s : State) (a : Nat) : Option LineVal :=
  match decLocal s .fw a false with
  | (.ok (.line l _) _, _) => some (peekLine s l)
  | _ => none

/-- A firmware write of bytes within one line. -/
def fwWriteBytes (s : State) (a : Nat) (bs : List (BitVec 8)) : State :=
  fwWriteLine s a ⟨placeBytes (a % 128) bs, 0, 0⟩ (rangeMask (a % 128) bs.length)

/-- A 64-bit word of memory as firmware reads it; zero where nothing decodes. -/
def fwWord (s : State) (a : Nat) : BitVec 64 :=
  match fwLine s a with
  | some v => v.data.extractLsb' (a % 128 * 8) 64
  | none => 0

/-- Verdicts of the MMAs that a stop abandons (R137, R194). -/
def failDropped (s : State) (t : Nat) : State :=
  let keep := (((s.tile t).stopAll (s.acNow t)).mmas).map (·.tag)
  (((s.tile t).mmas.map (·.tag)).filter (fun g => !keep.contains g)).foldl (fun s tag => epochVerdict s t tag false) s

/-- ABORT of a tile, from RUNNING, FAULTED or SAVED. A RUNNING tile first finishes what executes. -/
def abortTile (s : State) (t : Nat) : State :=
  match s.tstate t with
  | 1 =>
    if (s.tile t).aborting then s
    else
      let s := withdrawWaits (closeEpoch (failDropped s t) t) t
      let x := (s.tile t).stopAll (s.acNow t)
      s.setTile t { x with stays := [], aborting := true,
                           uses := x.uses.filter (fun u => !x.stays.any (fun r => r.tag == u.tag)) }
  | 2 => goIdle (let s := failVerdicts s t; s.setTile t (s.tile t).discard) t
  | 4 =>
    let w := fwWord s (savePage s t)
    let s := fwWriteBytes s (savePage s t) (leBytes 8 (w.toNat - b2n (w.getLsbD 8) * 256))
    goIdle (s.setTile t (s.tile t).discard) t
  | _ => s

/-- ABORT written by queue service: held where R141 holds it. -/
def abortWrite (s : State) (t : Nat) : State :=
  let st := s.tstate t
  if st = 3 ∨ st = 5 ∨ (s.tile t).retiring ≠ 0 then s.setTile t { s.tile t with heldAbort := true }
  else if s.bit .TILE_STAT (tix t) TILE_STAT.RESETTING then s
  else abortTile s t

/-- A dispatch of queue service changed. -/
def mapDisp (s : State) (id : Nat) (f : Disp → Disp) : State :=
  { s with q := { s.q with disps := s.q.disps.map (fun d => if d.id = id then f d else d) } }

/-- A dispatch ended with a status: it is folded in, and every tile but `but` gets ABORT (R140, R368). -/
def endDisp (s : State) (id st : Nat) (but : Option Nat) : State :=
  match s.q.disps.find? (fun d => d.id == id) with
  | none => s
  | some d =>
    let s := mapDisp s id (fun d => { d with stat := statFold d.stat st, ending := true })
    (d.tiles.filter (fun t => some t != but && (s.tile t).disp == id && !(s.tile t).ended)).foldl abortWrite s

/-- The dispatch of a tile ended with a status. -/
def endDispOf (s : State) (t st : Nat) (but : Option Nat) : State :=
  let x := s.tile t
  if x.started ∧ x.disp ≠ 0 then endDisp s x.disp st but else s

/-- The dispatch of a tile that RESET or ABORT ends: CANCELLED, unless it is ending already. -/
def cancelDispOf (s : State) (t : Nat) : State :=
  if s.q.disps.any (fun d => d.id == (s.tile t).disp && d.ending) then s else endDispOf s t 0x01 (some t)

/-- The dispatch status of an exception cause (R139). -/
def causeStat (c : Nat) : Nat :=
  match c with
  | 0x09 => 0x0C
  | 0x0A => 0x0C
  | 0x0B => 0x04
  | _ => 0x0E

/-! Preemption (R143, R144). -/

/-- An instruction in flight put back as a queue entry. -/
def backEnt (tag pc : Nat) (w0 w1 : BitVec 64) (prog : Nat) (arr : Option Nat) : QEnt :=
  ⟨tag, pc, 0, w0, w1, prog, arr⟩

/-- Insertion of a queue entry by tag. -/
def insEnt (l : List QEnt) (e : QEnt) : List QEnt :=
  match l with
  | [] => [e]
  | h :: r => if e.tag < h.tag then e :: l else h :: insEnt r e

/-- Instructions in flight put back into their queues, in tag order, with their scoreboard entries gone (R144). -/
def Tile.putBack (x : Tile) (l : List QEnt) : Tile :=
  let tags := l.map (·.tag)
  let y := l.foldl (fun (y : Tile) e => let m := streamOf (opcOf e.w0); y.setQ m (insEnt (y.q m) e)) x
  { y with
    mmas := x.mmas.filter (fun r => !tags.contains r.tag)
    drains := x.drains.filter (fun d => !tags.contains d.tag)
    moves := x.moves.filter (fun r => !tags.contains r.tag)
    loads := x.loads.filter (fun r => !tags.contains r.tag)
    stays := x.stays.filter (fun r => !tags.contains r.tag)
    fence := x.fence.filter (fun f => !tags.contains f.tag)
    uses := x.uses.filter (fun u => !tags.contains u.tag) }

/-- What goes back at once when the stop phase begins (R143, R144): MMAs that have not wholly entered, drains that have
not started, a scalar pointer load, LDR, STC and FENCE, and of the Stay instructions those that a fence still holds and the
waits whose counter has not been reached or has not released them; a far SBAR stays until its token is known, and a wait
whose result or release is on its way completes. A drain in progress completes though an abandoned MMA precedes it
(DEDUCED, log 145), and a VLD through a pointer completes as a vector instruction. -/
def Tile.backNow (x : Tile) (ac : Nat) : List QEnt :=
  let stay (r : StayRec) : Bool := r.ph == 0 || (r.wait && (r.ph == 3 || r.ph == 4 ||
    (r.ph == 1 && !(r.far && opcOf r.w0 == 0xD3 && r.tok.isNone))))
  (x.mmas.filter (fun r => !runsOn x ac r)).map (fun r => backEnt r.tag r.pc r.w0 r.w1 0 none) ++
    (x.drains.filter (fun d => d.st == 0 && !d.again)).map (fun d => backEnt d.tag d.pc d.w0 d.w1 0 none) ++
    (x.loads.filter (fun r => opcOf r.w0 != 0x53)).map (fun r => backEnt r.tag r.pc r.w0 0 0 none) ++
    (x.stays.filter stay).map (fun r => backEnt r.tag r.pc r.w0 0 0 r.tok) ++
    x.fence.toList.map (fun f => backEnt f.tag f.pc f.w0 0 0 none)

/-- A queue entry of a fetch that found no instruction is not in the pending list: fetch meets it again at its offset,
with its tag, after the restore (R133, R146). -/
def Tile.unfetch (x : Tile) : Tile :=
  match x.qs.find? (fun e => e.kind == 2 || e.kind == 3) with
  | some e => { x with qs := x.qs.filter (fun q => q.tag != e.tag), pc := e.pc, nextTag := e.tag }
  | none => x

/-- The stop phase as a state (R143, R144). Active MOVs stop at a line boundary when it ends, at PREEMPT_SAVE_DONE. -/
def Tile.preemptStop (x : Tile) (ac : Nat) : Tile :=
  { (x.putBack (x.backNow ac)).unfetch with fetchHold := true, resv := [] }

/-- PREEMPT in RUNNING; a retirement absorbs it (R147), and a tile that an exception is stopping counts as FAULTED, in
which R147 gives it no effect (DEDUCED, log 146). -/
def preemptTile (s : State) (t : Nat) : State :=
  if (s.tile t).retiring ≠ 0 ∨ (s.tile t).excTag.isSome then s
  else ((withdrawWaits s t).setTile t ((s.tile t).preemptStop (s.acNow t))).setTstate t 3

/-! The save record (R145, R202). -/

/-- A 64-bit word of a packed register of `n` bytes. -/
def wordAt {n : Nat} (v : BitVec n) (i : Nat) : BitVec 64 := v.extractLsb' (64 * i) 64

/-- The shape and class byte of a bank in the record. -/
def bankByte (b : Bank) : Nat := b.shape + 4 * b2n b.int

/-- One word of a pending entry. -/
def pendWord (e : QEnt) (k : Nat) : BitVec 64 :=
  match k with
  | 0 => e.w0
  | 1 => e.w1
  | 2 => BitVec.ofNat 64 e.tag
  | _ => match e.arrived with
    | some tok => BitVec.ofNat 64 (tok % 2 ^ 32 + 2 ^ 63)
    | none => BitVec.ofNat 64 (if opcOf e.w0 = 0xC0 then e.prog % 2 ^ 40 else 0)

/-- The word of the save page at an offset that is a multiple of 8; the banks are the committed images. -/
def saveWord (s : State) (t off : Nat) : BitVec 64 :=
  let x := s.tile t
  let rg (r : RegId) : BitVec 64 := BitVec.ofNat 64 (s.rd r (tix t))
  let strm (k : Nat) : List QEnt := x.q (match k with | 0 => Strm.scalar | 1 => .vector | 2 => .matrix | _ => .move)
  if off < 0x100 then
    match off with
    | 0x00 => BitVec.ofNat 64 (1 + 256 + 512 * s.fld .TILE_SAVE_BASE (tix t) TILE_SAVE_BASE.MEM)
    | 0x08 => BitVec.ofNat 64 x.pc
    | 0x10 => BitVec.ofNat 64 x.nextTag
    | 0x18 => BitVec.ofNat 64 (tileCtx s t + t % 64 * 2 ^ 8 + t / 64 * 2 ^ 14 +
        s.fld .TILE_ENTRY (tix t) TILE_ENTRY.RANK * 2 ^ 32 + s.fld .TILE_ENTRY (tix t) TILE_ENTRY.COUNT_M1 * 2 ^ 42)
    | 0x20 => BitVec.ofNat 64 (bankByte x.com0 + 256 * bankByte x.com1 + 65536 * x.srLeft)
    | 0x28 => BitVec.ofNat 64 (x.qs.length + x.qv.length * 2 ^ 5 + x.qm.length * 2 ^ 10 + x.qx.length * 2 ^ 15)
    | _ => 0
  else if off < 0x200 then x.s ((off - 0x100) / 8)
  else if off < 0x400 then wordAt (x.p ((off - 0x200) / 64)) (off % 64 / 8)
  else if off < 0x2400 then wordAt (x.v ((off - 0x400) / 512)) (off % 512 / 8)
  else if off < 0x2480 then BitVec.ofNat 64 (s.rd .FMT_DESC (tix t ++ [(off - 0x2400) / 8]))
  else if off < 0x2500 then BitVec.ofNat 64 (s.rd .TILE_AMAX (tix t ++ [(off - 0x2480) / 8]))
  else if off < 0x2800 then
    match off with
    | 0x2500 => rg .TILE_FMT_CTL
    | 0x2508 => rg .TILE_SR_SEED
    | 0x2510 => rg .TILE_FMT_FLAGS
    | 0x2518 => rg .TILE_ENTRY
    | 0x2520 => rg .TILE_ARG
    | 0x2528 => rg .TILE_PROG_ID
    | 0x2530 => rg .TILE_STAY_WIN
    | 0x2538 => BitVec.ofNat 64 (s.fld .TILE_EPOCH (tix t) TILE_EPOCH.NEXT_SEQ +
        s.fld .TILE_EPOCH (tix t) TILE_EPOCH.REVOKED_D * 65536)
    | 0x2540 => rg .TILE_MOVE_STAT
    | _ => 0
  else if off < 0x3000 then
    match (strm ((off - 0x2800) / 512))[(off - 0x2800) % 512 / 32]? with
    | some e => pendWord e (off % 32 / 8)
    | none => 0
  else if off < 0x8000 then 0
  else if off < 0xA000 then
    let b := (if off < 0x9000 then x.com0 else x.com1).cells
    BitVec.ofNat 64 (((List.range 32).map (fun i =>
      ((mget 0 b ((off % 0x1000) * 4 + i)).extractLsb' 32 2).toNat * 4 ^ i)).sum)
  else if off < 0x10000 then 0
  else if off < 0x30000 then
    let b := (if off < 0x20000 then x.com0 else x.com1).cells
    let i := off % 0x10000 / 4
    (mget 0 b (i + 1)).extractLsb' 0 32 ++ (mget 0 b i).extractLsb' 0 32
  else 0

/-- A line of the save page: the record, and with MEM the instruction-memory and tile-memory images, marked lines
with the poison mark (R144, R508). -/
def saveLine (s : State) (t off : Nat) : LineVal :=
  let x := s.tile t
  if off < 0x40000 then
    .clean (packBytes 1024 ((List.range 16).flatMap (fun i => leBytes 8 (saveWord s t (off + 8 * i)).toNat)))
  else if off < 0x60000 then
    .clean (packBytes 1024 ((List.range 16).flatMap (fun i =>
      leBytes 8 (mget 0 x.imem ((off - 0x40000) / 8 + i)).toNat)))
  else
    let o := off - 0x100000
    ⟨packBytes 1024 (mread x.mem o 128), if x.poison.contains (o / 128) then BitVec.allOnes 4 else 0, 0⟩

/-- The lines a save writes: the record, and the two images with MEM = 1. -/
def saveLines (mem : Bool) : List Nat :=
  ((List.range 1536).map (· * 128)) ++
  (if mem then (List.range 1024).map (fun i => 0x40000 + i * 128) ++ (List.range 8192).map (fun i => 0x100000 + i * 128)
   else [])

/-- The save written to its page. -/
def writeSave (s : State) (t : Nat) : State :=
  (saveLines (s.bit .TILE_SAVE_BASE (tix t) TILE_SAVE_BASE.MEM)).foldl (fun s' o =>
    fwWriteLine s' (savePage s t + o) (saveLine s t o) fullMask) s

/-- Nothing of the stop phase is still under way (R143). -/
def Tile.stopped (x : Tile) : Bool :=
  x.mmas.isEmpty && x.drains.isEmpty && x.stays.isEmpty && x.retryBank.isNone && x.loads.isEmpty

/-! Restore (R146). -/

/-- Words of the record from memory. -/
def recWord (s : State) (t off : Nat) : BitVec 64 := fwWord s (savePage s t + off)

/-- A bank from its record. -/
def recBank (s : State) (t b : Nat) : Bank :=
  let m := ((recWord s t 0x20).extractLsb' (8 * b) 8).toNat
  let cell (i : Nat) : BitVec 34 :=
    ((recWord s t (0x8000 + 0x1000 * b + i / 32 * 8)).extractLsb' (2 * (i % 32)) 2) ++
    ((recWord s t (0x10000 + 0x10000 * b + i / 2 * 8)).extractLsb' (32 * (i % 2)) 32)
  { shape := m % 4, int := m / 4 % 2 == 1,
    cells := (List.range 16384).foldl (fun l i => mset 0 l i (cell i)) [] }

/-- The offset of a pending instruction: the record has no place for it, so it is taken from the entries that were
saved (assumption 18). -/
def savedPc (x : Tile) (tag : Nat) : Nat :=
  match x.saved.find? (fun p => p.2.tag == tag) with
  | some p => p.2.pc
  | none => 0

/-- The pending list of a stream from the record: an illegal instruction among them still raises its exception. -/
def recPend (s : State) (t k : Nat) : List QEnt :=
  let n := ((recWord s t 0x28).extractLsb' (5 * k) 5).toNat
  (List.range (min n 16)).map (fun i =>
    let a := 0x2800 + 512 * k + 32 * i
    let pr := recWord s t (a + 0x18)
    let w0 := recWord s t a
    let w1 := recWord s t (a + 8)
    ⟨(recWord s t (a + 0x10)).toNat, savedPc (s.tile t) (recWord s t (a + 0x10)).toNat, if insnLegal w0 w1 then 0 else 1,
      w0, w1, (pr.extractLsb' 0 40).toNat, if pr.getLsbD 63 then some (pr.extractLsb' 0 32).toNat else none⟩)

/-- Whether the record is the tile's and valid (R146). -/
def recOk (s : State) (t : Nat) : Bool :=
  let h := recWord s t 0
  let i := recWord s t 0x18
  h.extractLsb' 0 8 == 1 && h.getLsbD 8 && (i.extractLsb' 0 8).toNat == tileCtx s t &&
  (i.extractLsb' 8 6).toNat == t % 64 && (i.extractLsb' 14 3).toNat == t / 64

/-- The tile rebuilt from its record, its memories too with MEM = 1 (R145, R146, R202). Writes on their way, and what
queue service asks of the dispatch (writes discarded, reads lost, layers consumed), stay with the tile, so that a fence in
the pending lists still covers them (R146, R187) and the completion word still shows them (R366). Whether TILE_PROG_ID has been written since the last START, which the record does not hold, stays with it too
(DESIGN CHOICE, log 147). -/
def readSave (s : State) (t : Nat) : State :=
  let x := s.tile t
  let rw (off : Nat) : Nat := (recWord s t off).toNat
  let c0 := recBank s t 0
  let c1 := recBank s t 1
  let mem := (recWord s t 0).getLsbD 9
  let lines := (List.range 8192).map (fun i => (i, fwLine s (savePage s t + 0x100000 + i * 128)))
  let y : Tile := { Tile.zero with
    sregs := (List.range 32).foldl (fun l i => mset 0 l i (recWord s t (0x100 + 8 * i))) []
    pregs := (List.range 8).foldl (fun l i => if i = 0 then l else mset 0 l i (BitVec.ofNat 512
      (((List.range 8).map (fun k => rw (0x200 + 64 * i + 8 * k) * 2 ^ (64 * k))).sum))) []
    vregs := (List.range 16).foldl (fun l i => mset 0 l i (BitVec.ofNat 4096
      (((List.range 64).map (fun k => rw (0x400 + 512 * i + 8 * k) * 2 ^ (64 * k))).sum))) []
    pc := rw 8, nextTag := rw 0x10, srLeft := rw 0x20 / 65536 % 4
    acc0 := c0, com0 := c0, acc1 := c1, com1 := c1
    ishape0 := c0.shape, iint0 := c0.int, ishape1 := c1.shape, iint1 := c1.int
    qs := recPend s t 0, qv := recPend s t 1, qm := recPend s t 2, qx := recPend s t 3
    fetchHold := true, outs := x.outs, wfail := x.wfail, progWritten := x.progWritten, started := x.started, ended := false
    disp := x.disp, gran := x.gran, stcFails := x.stcFails, layer := x.layer, wants := x.wants, rfail := x.rfail
    ordered := x.ordered, restored := true
    mem := if mem then lines.foldl (fun m p => match p.2 with
        | some v => mbytes m (p.1 * 128) (takeBytes v.data 0 128)
        | none => m) [] else x.mem
    poison := if mem then (lines.filter (fun p => match p.2 with
        | some v => v.pz != 0
        | none => false)).map (·.1) else x.poison
    badMem := if mem then [] else x.badMem
    imem := if mem then (List.range 16384).foldl (fun m i => mset 0 m i (recWord s t (0x40000 + 8 * i))) []
      else x.imem
    badImem := if mem then [] else x.badImem }
  let s := s.setTile t y
  let put (s : State) (r : RegId) (ix : List Nat) (off : Nat) : State := s.wr r ix (onlyFlds (regInfo r).flds (rw off))
  let s := (List.range 16).foldl (fun s i =>
    put (put s .FMT_DESC (tix t ++ [i]) (0x2400 + 8 * i)) .TILE_AMAX (tix t ++ [i]) (0x2480 + 8 * i)) s
  let s := put (put s .TILE_FMT_CTL (tix t) 0x2500) .TILE_SR_SEED (tix t) 0x2508
  let s := s.setFld .TILE_FMT_FLAGS (tix t) ⟨10, 8⟩ (rw 0x2510 / 256)
  let s := put (put (put s .TILE_ENTRY (tix t) 0x2518) .TILE_ARG (tix t) 0x2520) .TILE_PROG_ID (tix t) 0x2528
  let s := put s .TILE_STAY_WIN (tix t) 0x2530
  let s := (s.setFld .TILE_EPOCH (tix t) TILE_EPOCH.NEXT_SEQ (rw 0x2538)).setFld .TILE_EPOCH (tix t)
    TILE_EPOCH.REVOKED_D (rw 0x2538 / 65536)
  (s.setFld .TILE_MOVE_STAT (tix t) TILE_MOVE_STAT.FIRST_STATUS (rw 0x2540)).setFld .TILE_MOVE_STAT (tix t)
    TILE_MOVE_STAT.FAIL_CNT (rw 0x2540 / 2 ^ 32)

/-- The lines a restore reads hold an error-marked codeword: the first such sector (R306). -/
def saveErr (s : State) (t : Nat) : Option Nat :=
  (saveLines (s.bit .TILE_SAVE_BASE (tix t) TILE_SAVE_BASE.MEM)).findSome? (fun o =>
    match decLocal s .fw (savePage s t + o) false with
    | (.ok (.line l _) _, _) =>
      if isFar l then none
      else ((cwsOf (frameC s (frameOf s (l * 128))) l).find? (fun c =>
        cwState s (frameC s (frameOf s (l * 128))) c == 2)).map (fun c => c.headD 0)
    | _ => none)

/-- RESTORE in SAVED: the record is checked and read (R146). -/
def restoreTile (s : State) (t : Nat) : State :=
  if s.mem.er = [] ∧ s.mem.odd = [] then
    if recOk s t then (readSave s t).setTstate t 5 else logDiscard s (regAddr .TILE_CTL (tix t)) 0xFFFF
  else match saveErr s t with
    | some x => consume s x
    | none => if recOk s t then (readSave s t).setTstate t 5 else logDiscard s (regAddr .TILE_CTL (tix t)) 0xFFFF

/-! TILE_CTL (R141, R142). -/

/-- A write of TILE_CTL. `qs`: the number of the dispatch when queue service writes START, 0 for any other agent,
whose START needs an excluded tile (R386). R141 says nothing of RESET written to a LOST tile, of PREEMPT written to a
RUNNING tile that is being aborted or stopped by an exception, or of ABORT during a retirement: the model ignores the
first two without a log entry and holds the third until the retirement ends (DESIGN CHOICE, log 148). -/
def tileCtlWrite (s : State) (t eff qs : Nat) : State :=
  let start := eff % 2 = 1
  let reset := eff / 2 % 2 = 1
  let pre := eff / 4 % 2 = 1
  let rest := eff / 8 % 2 = 1
  let abort := eff / 16 % 2 = 1
  let n := eff % 2 + eff / 2 % 2 + eff / 4 % 2 + eff / 8 % 2 + eff / 16 % 2
  let log (s : State) : State := discardReg s .TILE_CTL (tix t)
  let st := s.tstate t
  if !tilePowered s t then log s
  else if s.bit .TILE_STAT (tix t) TILE_STAT.RESETTING then
    if reset ∧ n = 1 then s else log s
  else if 1 < n then log s
  else
    let s := s.setFld .TILE_CTL (tix t) TILE_CTL.DISABLE (fget eff TILE_CTL.DISABLE)
    let s := s.setTstate t st
    if start then
      let excl := (s.fld .KST_QS_EXCL_ACT [t / 64] KST_QS_EXCL_ACT.EXCL_ACT >>> (t % 64)) % 2 = 1
      if startOk s t ∧ (qs ≠ 0 ∨ excl) then startTile s t qs else log s
    else if reset then
      if st = 3 ∨ st = 5 ∨ (s.tile t).retiring ≠ 0 then s.setTile t { s.tile t with heldReset := true }
      else if st = 7 then s else beginReset (cancelDispOf s t) t
    else if pre then
      if st = 1 ∧ ¬ (s.tile t).aborting then preemptTile s t else if st = 1 ∨ st = 0 ∨ st = 2 then s else log s
    else if rest then
      if st = 4 then restoreTile s t else log s
    else if abort then
      if st = 3 ∨ st = 5 ∨ (s.tile t).retiring ≠ 0 then s.setTile t { s.tile t with heldAbort := true }
      else if st = 0 ∨ st = 7 then s
      else abortTile (cancelDispOf s t) t
    else s

/-- Held RESET and ABORT applied once the state has changed (R141). -/
def applyHeld (s : State) (t : Nat) : State :=
  let x := s.tile t
  if x.heldReset then beginReset (cancelDispOf (s.setTile t { x with heldReset := false, heldAbort := false }) t) t
  else if x.heldAbort then abortTile (cancelDispOf (s.setTile t { x with heldAbort := false }) t) t
  else s

/-! Program load (R131, R512). -/

/-- GO of TILE_IMEM_LOAD: refused loads set ERR. The load reads from the source, and with the context, that its registers
name at GO, whatever is written to them while it runs (DESIGN CHOICE, log 149). -/
def imemGo (s : State) (t : Nat) : State :=
  let a := s.fld .TILE_IMEM_SRC (tix t) TILE_IMEM_SRC.ADDR * 64
  let n := s.fld .TILE_IMEM_LOAD (tix t) TILE_IMEM_LOAD.BLOCKS
  let d := s.fld .TILE_IMEM_LOAD (tix t) TILE_IMEM_LOAD.DST_BLK
  let s := (s.setFld .TILE_IMEM_LOAD (tix t) TILE_IMEM_LOAD.ERR 0).setFld .TILE_IMEM_LOAD (tix t)
    TILE_IMEM_LOAD.STATUS 0
  if n = 0 ∨ 2048 < d + n ∨ 0x30000000000 ≤ a then
    (s.setFld .TILE_IMEM_LOAD (tix t) TILE_IMEM_LOAD.ERR 1).setFld .TILE_IMEM_LOAD (tix t) TILE_IMEM_LOAD.STATUS 0x0E
  else
    let s := s.setFld .TILE_IMEM_LOAD (tix t) TILE_IMEM_LOAD.BUSY 1
    s.setTile t { s.tile t with ldSrc := a, ldCtx := s.fld .TILE_ENTRY (tix t) TILE_ENTRY.CTX_ID }

/-- A write of TILE_IMEM_LOAD (R131, R149): fields and GO only in IDLE, SAVED or LOST. The spec does not say what a write
does while a load runs: the model discards and logs it (DESIGN CHOICE, log 149). -/
def imemLoadWrite (s : State) (t eff : Nat) : State :=
  let st := s.tstate t
  if (st ≠ 0 ∧ st ≠ 4 ∧ st ≠ 7) ∨ !tilePowered s t ∨ s.bit .TILE_STAT (tix t) TILE_STAT.RESETTING ∨
      s.bit .TILE_IMEM_LOAD (tix t) TILE_IMEM_LOAD.BUSY then
    discardReg s .TILE_IMEM_LOAD (tix t)
  else
    let s := s.plain .TILE_IMEM_LOAD (tix t) eff
    if fget eff TILE_IMEM_LOAD.GO = 1 then imemGo s t else s

/-- One 64-byte block read for a context: its bytes and a status. -/
def imemBlock (s : State) (t ctx a : Nat) (ext : Ext) : Option (State × List (BitVec 8) × Nat) :=
  let q : Rq := .eng ctx (unitOfTile s t)
  match decLocal s q a false with
  | (.ok g act, s) =>
    (readPiece s .none_ g act a 64 true ext).map (fun r => (r.s, r.bytes, if r.stat ≠ 0 then r.stat else if r.poison then 4 else 0))
  | (.held, _) => none
  | (_, s) => some (logFail s q a, [], 0x0E)

/-- The blocks of a load, in order; it stops at the first that cannot be read. -/
def imemBlocks (s : State) (t ctx : Nat) (ext : Ext) (n a d : Nat) : Option (State × Nat) :=
  match n with
  | 0 => some (s, 0)
  | n + 1 =>
    match imemBlock s t ctx a ext with
    | none => none
    | some (s, bs, st) =>
      if st ≠ 0 then some (s, st)
      else
        let x := s.tile t
        let ws := (List.range 8).map (fun i => packBytes 64 ((bs.drop (8 * i)).take 8))
        let im := (ws.zipIdx).foldl (fun m p => mset 0 m (d * 8 + p.2) p.1) x.imem
        let bad := (List.range 8).foldl (fun l i => sdel l (d * 8 + i)) x.badImem
        imemBlocks (s.setTile t { x with imem := im, badImem := bad }) t ctx ext n (a + 64) (d + 1)

/-! Commands. -/

/-- TILE_START (R132): a write of START, with the DISABLE bit of the same write. -/
def execTileStart (t : Nat) (dis : Bool) (s : State) : Host.Outcome State Fault Refusal :=
  whenLive s (if t < 512 then tileCtlWrite s t (1 + 32 * b2n dis) 0 else s)

/-- TILE_RESET (R148). -/
def execTileReset (t : Nat) (dis : Bool) (s : State) : Host.Outcome State Fault Refusal :=
  whenLive s (if t < 512 then tileCtlWrite s t (2 + 32 * b2n dis) 0 else s)

/-- TILE_RESET_DONE (R148). -/
def execTileResetDone (t : Nat) (s : State) : Host.Outcome State Fault Refusal :=
  whenLive s (if t < 512 ∧ s.bit .TILE_STAT (tix t) TILE_STAT.RESETTING then endReset s t else s)

/-- TILE_PREEMPT (R143). -/
def execTilePreempt (t : Nat) (dis : Bool) (s : State) : Host.Outcome State Fault Refusal :=
  whenLive s (if t < 512 then tileCtlWrite s t (4 + 32 * b2n dis) 0 else s)

/-- TILE_RESTORE (R146). -/
def execTileRestore (t : Nat) (dis : Bool) (s : State) : Host.Outcome State Fault Refusal :=
  whenLive s (if t < 512 then tileCtlWrite s t (8 + 32 * b2n dis) 0 else s)

/-- RESTORE_DONE (R146): every write issued before has completed; the tile runs on. A pending END or branch still
holds fetch. -/
def execRestoreDone (t : Nat) (s : State) : Host.Outcome State Fault Refusal :=
  whenLive s (
    let x := s.tile t
    if t < 512 ∧ s.tstate t = 5 ∧ x.outs.isEmpty then
      let hold := (x.qs ++ x.qv ++ x.qm ++ x.qx).any holdsFetch
      let s := (s.setTile t { x with fetchHold := hold, restored := false }).setTstate t 1
      if x.heldReset || x.heldAbort then applyHeld s t else settle s t
    else s)

/-- TILE_ABORT (R141). -/
def execTileAbort (t : Nat) (dis : Bool) (s : State) : Host.Outcome State Fault Refusal :=
  whenLive s (if t < 512 then tileCtlWrite s t (16 + 32 * b2n dis) 0 else s)

/-- TILE_DISABLE (R142). -/
def execTileDisable (t : Nat) (dis : Bool) (s : State) : Host.Outcome State Fault Refusal :=
  whenLive s (if t < 512 then tileCtlWrite s t (32 * b2n dis) 0 else s)

/-- IMEM_LOAD (R131): a write of TILE_IMEM_LOAD with GO. -/
def execImemLoad (t dst blocks : Nat) (s : State) : Host.Outcome State Fault Refusal :=
  whenLive s (if t < 512 then imemLoadWrite s t (dst % 2048 + blocks % 4096 * 4096 + 2 ^ 63) else s)

/-- IMEM_LOAD_DONE (R512). Instruction memory is written only while the tile is IDLE, SAVED or LOST (R131): a load whose
tile has left these states writes nothing and ends with ERR and PERMISSION (DESIGN CHOICE, log 149). -/
def execImemLoadDone (t : Nat) (ext : Ext) (s : State) : Host.Outcome State Fault Refusal :=
  whenLive s (
    if t < 512 ∧ s.bit .TILE_IMEM_LOAD (tix t) TILE_IMEM_LOAD.BUSY then
      let st := s.tstate t
      match (if st = 0 ∨ st = 4 ∨ st = 7 then
          imemBlocks s t (s.tile t).ldCtx ext (s.fld .TILE_IMEM_LOAD (tix t) TILE_IMEM_LOAD.BLOCKS) (s.tile t).ldSrc
            (s.fld .TILE_IMEM_LOAD (tix t) TILE_IMEM_LOAD.DST_BLK)
        else some (s, 0x0E)) with
      | none => s
      | some (s, st) =>
        let s := s.setFld .TILE_IMEM_LOAD (tix t) TILE_IMEM_LOAD.BUSY 0
        let s := s.setFld .TILE_IMEM_LOAD (tix t) TILE_IMEM_LOAD.STATUS st
        s.setFld .TILE_IMEM_LOAD (tix t) TILE_IMEM_LOAD.ERR (b2n (st != 0))
    else s)

/-- The parity error that stopped a tile (R441, R443): its record and its counts in rows 17 and 1, either of which retires
the tile. The model writes them when the streams have stopped (DEDUCED, log 165). -/
def tileParity (s : State) (t : Nat) : State :=
  let c := s.fld .TILE_EXC (tix t) TILE_EXC.CAUSE
  if c ≠ 0x09 ∧ c ≠ 0x0A then s
  else
    let u := unitOfTile s t
    let (s, path) := parityError s u none
    let (s, cell) := retireEvent s 1 u
    if path || cell then retireRequest s t else s

/-- TILE_FAULTED (R137 event 7): every stream has stopped, and the banks hold their committed images. KMH3 ends a dispatch
of queue service (R140); the faulted tile gets its ABORT when the completion is recorded. R140 does not say who ends a
dispatch that was started directly (R386): the model leaves its tile FAULTED until its starter writes ABORT (DESIGN
CHOICE, log 150). -/
def execTileFaulted (t : Nat) (s : State) : Host.Outcome State Fault Refusal :=
  whenLive s (
    let x := s.tile t
    if t < 512 ∧ s.tstate t = 1 ∧ x.excTag.isSome ∧ ¬ x.aborting ∧ x.quiet then
      let s := (s.setTile t { x with excTag := none, acc0 := x.com0, acc1 := x.com1 }).setTstate t 2
      let c := s.fld .TILE_EXC (tix t) TILE_EXC.CAUSE
      let s := if x.started then mapDisp s x.disp (fun d => { d with
        bits := d.bits ||| (if c = 0x0B then 32 else if c = 0x09 ∨ c = 0x0A then 64 else 0) }) else s
      endDispOf ((tileParity s t).send (.kmhIrq 3 6)) t (causeStat c) (some t)
    else s)

/-- TILE_ABORT_DONE (R368): what executes in the array and the pointer loads have finished; writes already issued go on
to complete, unissued ones are discarded (R252). -/
def execTileAbortDone (t : Nat) (s : State) : Host.Outcome State Fault Refusal :=
  whenLive s (
    let x := s.tile t
    if t < 512 ∧ s.tstate t = 1 ∧ x.aborting ∧ x.mmas.isEmpty ∧ x.drains.isEmpty ∧ x.loads.isEmpty then
      let s := if x.excTag.isSome then tileParity s t else s
      goIdle (s.setTile t (s.tile t).discard) t
    else s)

/-- END (R157): waits for everything earlier; a predicate that is off gives it no effect and fetch goes on. -/
def execEnd (t : Nat) (f : InsS) (s : State) : Host.Outcome State Fault Refusal :=
  let x := s.tile t
  if x.predOn f.pred.toNat && !(x.quiet && x.qv.isEmpty && x.qm.isEmpty && x.qx.isEmpty) then .next s
  else issue s t .scalar (encS 0x01 f) 0 (fun s _ =>
    let x := s.tile t
    if x.predOn f.pred.toNat then .done (goIdle (closeEpoch s t) t)
    else .done (s.setTile t { x with fetchHold := false }))

/-- INJ_ONCE (R126): a write of INJ_ONCE, which leaves GATE_DIS as it is. -/
def execInjOnce (t : Nat) (s : State) : Host.Outcome State Fault Refusal :=
  whenLive s (
    if t < 512 then
      if s.bit .TILE_STAT (tix t) TILE_STAT.RESETTING ∨ !tilePowered s t then discardReg s .TILE_MMA_CTL (tix t)
      else s.setTile t { s.tile t with inj := true }
    else s)

/-! Retirement (R122 to R124). -/

/-- The free spare with the lowest number. -/
def freeSpare (s : State) (span : Nat) : Option Nat :=
  (List.range 4).find? (fun k =>
    s.fld .SPAN_SPARE_MAP [span] (SPAN_SPARE_MAP.USED.shift 16 k) == 0 &&
    s.fld .SPAN_SPARE_MAP [span] (SPAN_SPARE_MAP.FT.shift 16 k) == 0 &&
    s.fld .SPAN_SPARE_MAP [span] (SPAN_SPARE_MAP.FAILED.shift 16 k) == 0)

/-- The failed MMA of a tile under retirement goes back to the head of the matrix stream, its bank as committed,
and everything not complete with it (R123 event 2): the shape and class of a bank, as the next instruction sees them, are
those of its committed image again. -/
def Tile.retireStop (x : Tile) : Tile :=
  let x : Tile := { x with
    acc0 := x.com0, acc1 := x.com1, retryBank := none, ishape0 := x.com0.shape, iint0 := x.com0.int,
    ishape1 := x.com1.shape, iint1 := x.com1.int
    mmas := x.mmas.map (fun (r : MmaRec) => { r with st := 0, retry := false })
    drains := x.drains.map (fun (d : DrainRec) => { d with st := 0, data := [], flags := 0, top := 0, nan := false,
                                                           deps := [], again := false }) }
  let back := x.backNow 0 ++ x.moves.map (fun r => backEnt r.tag r.pc r.w0 r.w1 r.prog none) ++
    (x.loads.filter (fun r => opcOf r.w0 == 0x53)).map (fun r => backEnt r.tag r.pc r.w0 0 0 none)
  { (x.putBack back).unfetch with fetchHold := true, resv := [] }

/-- The retirement of a tile, out of RUNNING or out of the stop phase of a PREEMPT, which it absorbs (R147) and after
which the tile runs on (DEDUCED, log 146) (R123, R124): the spare takes its logical number, or the tile is lost; the map is
committed and a permanent-fault record is written. Consuming the last spare adds a class 0x5 record (R447). -/
def retireTile (s : State) (t : Nat) : State :=
  let span := t / 64
  let unit := unitOfTile s t
  let phys := physOf s t
  let run := s.tstate t == 1 || s.tstate t == 3
  let s := if run then
      let s := closeEpoch s t
      let s := withdrawWaits s t
      writeSave ((s.setTile t (s.tile t).retireStop).setTstate t 1) t
    else s
  let s := if 64 ≤ phys then
      s.setFld .SPAN_SPARE_MAP [span] (SPAN_SPARE_MAP.FAILED.shift 16 (phys - 64)) 1
    else s
  let s := match freeSpare s span with
    | some k =>
      let s := s.setFld .SPAN_SPARE_MAP [span] (SPAN_SPARE_MAP.LOG_ID.shift 16 k) (t % 64)
      let s := s.setFld .SPAN_SPARE_MAP [span] (SPAN_SPARE_MAP.USED.shift 16 k) 1
      let s := (s.commit .SPAN_SPARE_MAP [span]).counted
      let s := recordAt s unit 6 0x09 0 none
      let s := if (freeSpare s span).isNone then recordAt s unit 5 0x09 0 none else s
      let x := s.tile t
      let hold := if run then (x.qs ++ x.qv ++ x.qm ++ x.qx).any holdsFetch else x.fetchHold
      let s := s.setTile t { x with retiring := 0, fetchHold := hold, badMem := [], badImem := [] }
      if run then settle s t else s
    | none =>
      let s := s.setFld .SPAN_TILE_LOST [span] ⟨t % 64, t % 64⟩ 1
      let s := ((s.commit .SPAN_TILE_LOST [span]).commit .SPAN_SPARE_MAP [span]).counted
      let s := recordAt s unit 6 0x09 0x0F none
      let s := closeEpoch (failVerdicts s t) t
      let s := endDispOf s t 0x0F (some t)
      let s := goIdle (s.setTile t { (s.tile t).discard with retiring := 0 }) t
      s.setTstate t 7
  applyHeld s t

/-- TILE_RETIRE (R123): once the array has stopped, when KMH2 runs. -/
def execTileRetire (t : Nat) (s : State) : Host.Outcome State Fault Refusal :=
  whenLive s (if t < 512 ∧ (s.tile t).retiring ≠ 0 ∧ hartRuns s 2 then retireTile s t else s)

end Sys2Proof.Machine
end

