-- ==== Sys2Proof/Machine/Domain.lean ====
section
/-!
DEFINITION. Machine/Domain.lean: the switched power domains (R411 to R415, R253, R379): switching off once pending stores
have drained, waking, and the junction sensors (R428). A domain is 8 * Span + group for a tile group, 64 + group for a
core group, 72 + 2 * Pier for its domain A and one more for its domain B.
-/

namespace Sys2Proof.Machine

/-- Whether a domain is on (R411). -/
def domOn (s : State) (d : Nat) : Bool :=
  if d < 64 then (s.fld .SPAN_PWR_STAT [d / 8] SPAN_PWR_STAT.PD_ON >>> (d % 8)) % 2 == 1
  else if d < 72 then coreGroupOn s (d - 64)
  else (s.fld .KST_PD_CTL [] KST_PD_CTL.PIER_PD_ON >>> (d - 72)) % 2 == 1

/-- A bit of a field. -/
def bitSet (v i : Nat) (b : Bool) : Nat := if b then v ||| 2 ^ i else v - (if (v >>> i) % 2 = 1 then 2 ^ i else 0)

/-- The on bit of a domain. -/
def setDomOn (s : State) (d : Nat) (b : Bool) : State :=
  if d < 64 then s.setFld .SPAN_PWR_STAT [d / 8] SPAN_PWR_STAT.PD_ON (bitSet (s.fld .SPAN_PWR_STAT [d / 8] SPAN_PWR_STAT.PD_ON) (d % 8) b)
  else if d < 72 then
    s.setFld .KST_PD_CTL [] KST_PD_CTL.CORE_PD_ON (bitSet (s.fld .KST_PD_CTL [] KST_PD_CTL.CORE_PD_ON) (d - 64) b)
  else s.setFld .KST_PD_CTL [] KST_PD_CTL.PIER_PD_ON (bitSet (s.fld .KST_PD_CTL [] KST_PD_CTL.PIER_PD_ON) (d - 72) b)

/-- PD_PEND of a tile group: a switch is in progress; other domains have no such field. -/
def setPend (s : State) (d : Nat) (b : Bool) : State :=
  if d < 64 then
    s.setFld .SPAN_PWR_STAT [d / 8] SPAN_PWR_STAT.PD_PEND (bitSet (s.fld .SPAN_PWR_STAT [d / 8] SPAN_PWR_STAT.PD_PEND) (d % 8) b)
  else s

/-- The off bit as firmware writes it. -/
def setOffBit (s : State) (d : Nat) (b : Bool) : State :=
  if d < 64 then s.setFld .SPAN_PWR_CTL [d / 8] SPAN_PWR_CTL.PD_OFF (bitSet (s.fld .SPAN_PWR_CTL [d / 8] SPAN_PWR_CTL.PD_OFF) (d % 8) b)
  else if d < 72 then
    s.setFld .KST_PD_CTL [] KST_PD_CTL.CORE_PD_OFF (bitSet (s.fld .KST_PD_CTL [] KST_PD_CTL.CORE_PD_OFF) (d - 64) b)
  else s.setFld .KST_PD_CTL [] KST_PD_CTL.PIER_PD_OFF (bitSet (s.fld .KST_PD_CTL [] KST_PD_CTL.PIER_PD_OFF) (d - 72) b)

/-- The logical tiles of a tile group. -/
def groupTiles (s : State) (d : Nat) : List Nat :=
  ((List.range 64).map (fun i => d / 8 * 64 + i)).filter (fun t => groupOf s t == d % 8)

/-- Whether a tile lets its group be switched off (R413). -/
def tileStill (s : State) (t : Nat) : Bool :=
  tileLost s t || s.tstate t == 7 || (s.tstate t == 0 && !s.bit .TILE_STAT (tix t) TILE_STAT.RESETTING &&
    !(s.tile t).started && !s.ras.underTest.contains t)

/-- Whether a domain may be switched off (R379, R413). -/
def offOk (s : State) (d : Nat) : Bool :=
  if d < 64 then (groupTiles s d).all (tileStill s)
  else if d < 72 then
    (List.range 8).all (fun i =>
      let c := (d - 64) * 8 + i
      s.bit .KST_CORE_CTL [c] KST_CORE_CTL.HOLD && s.fld .KST_CORE_STAT [c] KST_CORE_STAT.STATE == 0 &&
        !s.kst.coreRst.contains c)
  else true

/-- Stores pending in a domain (R252, R253, R411): writes of its tiles that await their acknowledgement; write-backs of
its cores' caches under way; for domain A of a Pier, writes to peers, writes held at its epoch gate, and what its Lattice
engine holds. A PCIe port holds none: a posted write waits outside the module until it is performed. -/
def domPending (s : State) (d : Nat) : Bool :=
  if d < 64 then (groupTiles s d).any (fun t => !(s.tile t).outs.isEmpty)
  else if d < 72 then s.mem.net.any (fun m => (m.k == .wb || m.k == .wback) && decide (8 ≤ m.agent) && (m.agent - 8) / 8 == d - 64)
  else if d % 2 = 0 then
    let p := (d - 72) / 2
    s.tiles.any (fun p => p.2.outs.any (·.peer)) || s.gate.eps.any (fun e => e.held.any (fun h => h.pier == p)) ||
      s.lat.staged.any (fun f => f.1 == p) ||
      s.lat.qs.any (fun q => q.1 / 16 == p && q.2.run.any (fun r => !r.rows.isEmpty || !r.frames.isEmpty))
  else false

/-- Tiles of a group without power: memories, registers and banks are lost (R413). -/
def groupLost (s : State) (d : Nat) : State :=
  (groupTiles s d).foldl (fun s t =>
    if s.tstate t = 7 then s
    else
      let s := (tileRegsReset s t).wr .TILE_PROG_ID (tix t) 0
      s.setTile t Tile.zero) s

/-- Lines of a Span cache bank that loses its power with its group, while the cache is off (R412). -/
def bankLost (s : State) (d : Nat) : State :=
  if s.bit .SPAN_CACHE_CTL [d / 8] SPAN_CACHE_CTL.EN then s
  else (s.mem.lines.filter (fun p => p.1 / 2 ^ 48 == d / 8 && cacheIndex (p.1 % 2 ^ 48) / 3072 == d % 8)).foldl
    (fun s p => dropCopy s (d / 8) (p.1 % 2 ^ 48)) s

/-- The lines of a core's L2 leave it before its power goes. -/
def l2Empty (s : State) (c : Nat) : State :=
  (agentLines s (8 + c)).foldl (fun s p => evictAgent s (8 + c) p.1) s

/-- A domain loses its power. -/
def offDone (s : State) (d : Nat) : State :=
  let s := { s with pwr := { s.pwr with offs := sdel s.pwr.offs d } }
  let s := setDomOn (setPend s d false) d false
  if d < 64 then bankLost (groupLost s d) d
  else if d < 72 then
    let s := (List.range 8).foldl (fun s i =>
      (l2Empty s ((d - 64) * 8 + i)).setFld .KST_CORE_STAT [(d - 64) * 8 + i] KST_CORE_STAT.STATE 2) s
    pwrSync s
  else if d % 2 = 0 then (List.range 6).foldl (fun s i => clxDown s (6 * ((d - 72) / 2) + i) 0) s
  else s

/-- A switch-off under way completes once nothing is pending. -/
def offSettle (s : State) : State :=
  s.pwr.offs.foldl (fun s d => if domPending s d then s else offDone s d) s

/-- A switch-off begins. -/
def offBegin (s : State) (d : Nat) : State :=
  if !domOn s d then s
  else offSettle { setPend s d true with pwr := { s.pwr with offs := sins s.pwr.offs d, wakes := sdel s.pwr.wakes d } }

/-- A switch-off under way ends, or a domain starts to wake. -/
def wakeBegin (s : State) (d : Nat) : State :=
  if s.pwr.offs.contains d then
    { setPend s d false with pwr := { s.pwr with offs := sdel s.pwr.offs d } }
  else if domOn s d then s
  else { setPend s d true with pwr := { s.pwr with wakes := sins s.pwr.wakes d } }

/-- A domain is on: links train, cores stand in reset, tiles are as after a reset (R413, R414). -/
def wakeDone (s : State) (d : Nat) : State :=
  let s := { s with pwr := { s.pwr with wakes := sdel s.pwr.wakes d } }
  let s := setDomOn (setPend s d false) d true
  if d < 64 then s
  else if d < 72 then
    pwrSync ((List.range 8).foldl (fun s i =>
      let c := (d - 64) * 8 + i
      s.setFld .KST_CORE_STAT [c] KST_CORE_STAT.STATE (if s.bit .KST_CORE_CTL [c] KST_CORE_CTL.HOLD ∨ s.bit .KST_PARK [] KST_PARK.PARKED then 0 else 1)) s)
  else if d % 2 = 0 then
    (List.range 6).foldl (fun s i =>
      let l := 6 * ((d - 72) / 2) + i
      if s.bit .CLX_LINK_CTL (clxIx l) CLX_LINK_CTL.EN && !s.bit .CLX_LINK_ERR (clxIx l) CLX_LINK_ERR.RETIRED
      then setClxState s l 1 else s) s
  else s

/-- DOMAIN_WAKE_DONE. -/
def execDomainWakeDone (d : Nat) (s : State) : Host.Outcome State Fault Refusal :=
  whenUp s (if s.pwr.wakes.contains d then wakeDone s d else s)

/-- PD_DRAIN_TIMEOUT (R253): the switch-off is abandoned, with a record that names the domain. -/
def execPdDrainTimeout (d : Nat) (s : State) : Host.Outcome State Fault Refusal :=
  whenUp s (
    if s.pwr.offs.contains d then
      let s := setPend s d false
      let s := { s with pwr := { s.pwr with offs := sdel s.pwr.offs d, retry := mins s.pwr.retry d (s.clk.fc + 10 * fcMs) } }
      let s := s.setFld .KST_ORD_STAT [] KST_ORD_STAT.PD_DRAIN_FAIL 1
      let u := if d < 64 then unitSpan (d / 8) 0x54 else if d < 72 then unitKst 0x54 else unitPier ((d - 72) / 2) 0x54
      record s ⟨u, 4, 0, 0x0F, none, d, 0xFFFF⟩
    else s)

/-! Registers (R413, R414, R420). -/

/-- Domains named by a bit field are switched as the field says; `base` is the first. -/
def applyOff (s : State) (base n v : Nat) : State :=
  (List.range n).foldl (fun s i =>
    if (v >>> i) % 2 = 1 then (if s.pwr.offs.contains (base + i) then s else offBegin s (base + i))
    else wakeBegin s (base + i)) s

/-- Every domain that a bit field would newly switch off may be. -/
def offsOk (s : State) (base n v : Nat) : Bool :=
  (List.range n).all (fun i => (v >>> i) % 2 == 0 || !domOn s (base + i) || s.pwr.offs.contains (base + i) || offOk s (base + i))

/-- A write of SPAN_PWR_CTL. -/
def spanPwrWrite (s : State) (p eff : Nat) : State :=
  let off := fget eff SPAN_PWR_CTL.PD_OFF
  let own := s.owned 0
  if !acOk s p (fget eff SPAN_PWR_CTL.TARGET_MHZ) 1080 || (!own && off != s.fld .SPAN_PWR_CTL [p] SPAN_PWR_CTL.PD_OFF) ||
      (own && !offsOk s (8 * p) 8 off) then discardReg s .SPAN_PWR_CTL [p]
  else
    let s := s.plain .SPAN_PWR_CTL [p] eff
    if own then ownStep (applyOff s (8 * p) 8 off) p (target s p) else s

/-- A write of KST_PD_CTL; bits of absent Piers have no domain. -/
def pdCtlWrite (s : State) (eff : Nat) : State :=
  let cores := fget eff KST_PD_CTL.CORE_PD_OFF
  let piers := fget eff KST_PD_CTL.PIER_PD_OFF % 2 ^ (2 * s.asm.piers)
  if !s.owned 0 || !offsOk s 64 8 cores then discardReg s .KST_PD_CTL []
  else applyOff (applyOff (s.plain .KST_PD_CTL [] eff) 64 8 cores) 72 (2 * s.asm.piers) piers

/-- TARGET_WRITE (R420): of a Span, or of KST_KC_TARGET. -/
def execTargetWrite (span : Option Nat) (w : BitVec 64) (s : State) : Host.Outcome State Fault Refusal :=
  whenUp s (match span with
    | none => kcTargetWrite s w.toNat
    | some p => if p < 8 then spanPwrWrite s p w.toNat else s)

/-- TILE_GROUP_POWER (R413). -/
def execTileGroupPower (span : Nat) (w : BitVec 64) (s : State) : Host.Outcome State Fault Refusal :=
  whenUp s (if span < 8 then spanPwrWrite s span w.toNat else s)

/-- CORE_GROUP_POWER (R379). -/
def execCoreGroupPower (w : BitVec 64) (s : State) : Host.Outcome State Fault Refusal := whenUp s (pdCtlWrite s w.toNat)

/-- PIER_DOMAIN_POWER (R414). -/
def execPierDomainPower (w : BitVec 64) (s : State) : Host.Outcome State Fault Refusal := whenUp s (pdCtlWrite s w.toNat)

/-- Groups of a Span that stay on. -/
def groupsOn (s : State) (p : Nat) : Nat :=
  ((List.range 8).filter (fun g => domOn s (8 * p + g) && !s.pwr.offs.contains (8 * p + g))).length

/-- TILE_GROUP_IDLE_OFF (R415): Tension keeps two groups on in each Span and tries none again for 10 ms after a failed
drain (R253). -/
def execTileGroupIdleOff (span g : Nat) (s : State) : Host.Outcome State Fault Refusal :=
  let d := 8 * span + g
  whenUp s (
    if span < 8 ∧ g < 8 ∧ tensionActs s ∧ 3 ≤ groupsOn s span ∧ domOn s d ∧ offOk s d ∧ !s.pwr.offs.contains d ∧
        mget 0 s.pwr.retry d ≤ s.clk.fc then
      offBegin (setOffBit s d true) d
    else s)

/-- Groups of tiles that a dispatch needs are woken (R415). -/
def wakeFor (s : State) (ts : List Nat) : State :=
  (ts.filter (fun t => !tilePowered s t)).foldl (fun s t =>
    let d := 8 * (t / 64) + groupOf s t
    wakeBegin (setOffBit s d false) d) s

/-! Junction sensors (R428). -/

/-- The input stage removes power: nothing runs until the sequence of R494 has been completed. -/
def powerLost (s : State) : State := 
  { s with board := { s.board with pwrGood := false, convOn := false, alertInt := false } }.send (.pin 2 0)

/-- TEMP_SENSOR_READ: the hottest sensor of a Span (0 to 7), core group (8 to 15) or Pier (16 to 19). -/
def execTempSensorRead (u temp : Nat) (s : State) : Host.Outcome State Fault Refusal :=
  whenUp s (
    if 16 + s.asm.piers ≤ u then s
    else
      let s := if u < 8 then s.setFld .SPAN_PWR_STAT [u] SPAN_PWR_STAT.TJ_C (min 255 temp) else s
      let s := { s with pwr := { s.pwr with hot := if 95 ≤ temp then sins s.pwr.hot u else sdel s.pwr.hot u } }
      if 125 ≤ temp then
        powerLost ({ s with board := { s.board with tripped := true } }.send (.pin 1 0))
      else if 105 ≤ temp then
        if s.pwr.lim.contains u then s
        else
          let s := (s.satInc .TNS_EVENT [] TNS_EVENT.OT_CNT 1).setFld .TNS_EVENT [] TNS_EVENT.OT_SEEN 1
          let s := if u < 8 then s.setFld .SPAN_PWR_STAT [u] SPAN_PWR_STAT.OT_FAST 1 else s
          pwrSync (fixedBreak { s with pwr := { s.pwr with lim := sins s.pwr.lim u } })
      else if temp ≤ 100 then
        let s := if u < 8 then s.setFld .SPAN_PWR_STAT [u] SPAN_PWR_STAT.OT_FAST 0 else s
        pwrSync { s with pwr := { s.pwr with lim := sdel s.pwr.lim u } }
      else s)

end Sys2Proof.Machine
end

