-- ==== Sys2Proof/Machine/Order.lean ====
section
/-!
DEFINITION. Machine/Order.lean: the order of a tile's accesses outside it (R42, R235 to R238) and what a fence waits for
(R187, R239, R240).
-/

namespace Sys2Proof.Machine

/-! What an instruction reaches outside its tile. -/

/-- The pointer of an instruction of one pointer, from the scalar registers as they stand. -/
def entPtr (x : Tile) (w : BitVec 64) : BitVec 64 :=
  match opcOf w with
  | 0x10 => x.s (decS w).rs1.toNat + sx32 (decS w).imm
  | 0x11 => x.s (decS w).rs1.toNat + sx32 (decS w).imm
  | 0x53 => x.s (decV w).ss.toNat + (decV w).imm.signExtend 64 * 128
  | 0x54 => x.s (decV w).ss.toNat + (decV w).imm.signExtend 64 * 128
  | _ => x.s (decRsv w).ra.toNat + (decRsv w).imm.signExtend 64

/-- Whether an instruction reaches memory outside the tile. -/
def leavesTile (w0 : BitVec 64) : Bool :=
  match opcOf w0 with
  | 0x10 => (decS w0).func.getLsbD 3
  | 0x11 => (decS w0).func.getLsbD 3
  | 0x53 => (decV w0).func.getLsbD 0
  | 0x54 => (decV w0).func.getLsbD 0
  | 0xC0 => (decMov w0 0).ssp == 1 || (decMov w0 0).dsp == 1
  | 0xC2 => true
  | 0xC3 => true
  | _ => false

/-- Bytes of an instruction of one pointer, as far as lines matter: its access lies within one line but for a vector. -/
def ptrSpan (w0 : BitVec 64) : Nat := if opcOf w0 = 0x53 ∨ opcOf w0 = 0x54 then 512 else 1

/-- Pointers of the rows of one side of a MOV, with their bytes. -/
def rowPtrs (p : BitVec 64) (stride rows len : Nat) : List (BitVec 64 × Nat) :=
  if len = 0 then []
  else (List.range rows).filterMap (fun r => (ptrAdd p (r * stride)).map (fun q => (q, len)))

/-- What a MOV reads, or writes, through pointers. -/
def movPtrs (f : InsMov) (src dst : BitVec 64) (len : Nat) (wr : Bool) : List (BitVec 64 × Nat) :=
  let rows := f.rows1.toNat + 1
  if wr then (if f.dsp = 1 then rowPtrs dst f.dstride.toNat rows len else [])
  else (if f.ssp = 1 then rowPtrs src f.sstride.toNat rows len else [])

/-- What an active MOV reads, or writes, through pointers. -/
def MoveRec.ptrs (m : MoveRec) (wr : Bool) : List (BitVec 64 × Nat) := movPtrs (decMov m.w0 m.w1) m.src m.dst m.len wr

/-- What a waiting pointer load, LDR or STC reaches. -/
def LoadRec.ptrs (l : LoadRec) : List (BitVec 64 × Nat) := [(l.ptr, ptrSpan l.w0)]

/-- What a queued instruction reads, or writes, through pointers. -/
def entPtrs (s : State) (t : Nat) (e : QEnt) (wr : Bool) : List (BitVec 64 × Nat) :=
  let x := s.tile t
  if !leavesTile e.w0 then []
  else if opcOf e.w0 = 0xC0 then
    let f := decMov e.w0 e.w1
    movPtrs f (x.s f.ss.toNat) (x.s f.sd.toNat) ((x.s f.sl.toNat).toNat % 2 ^ 32) wr
  else if (if wr then (memRW e.w0).2 else (memRW e.w0).1) then [(entPtr x e.w0, ptrSpan e.w0)]
  else []

/-- The registers from which a queued instruction takes its pointers. -/
def ptrRegs (e : QEnt) : List Nat :=
  if opcOf e.w0 = 0xC2 ∨ opcOf e.w0 = 0xC3 then [(decRsv e.w0).ra.toNat] else addrRegs e

/-! Locations (R48): a raw offset, 2^57 and a host address, 2^67 and any other local address, or a peer's local address
above 2^68 times its number plus one. -/

/-- The parts of a byte range that lie within one 2 MiB page. -/
def pageParts (a n : Nat) : List (Nat × Nat) :=
  if n = 0 then []
  else (List.range ((a + n - 1) / 2097152 - a / 2097152 + 1)).map (fun i =>
    let lo := if i = 0 then a else (a / 2097152 + i) * 2097152
    (lo, min (a + n) ((a / 2097152 + i + 1) * 2097152) - lo))

/-- The location of a byte of a page under an entry. -/
def entryLoc (e : BitVec 64) (a : Nat) : Nat :=
  (if peLoc e then 2 ^ 57 else 0) + peFrame e * 2097152 + a % 2097152

/-- The entries that a translation of a unified address may use (R55). -/
def entriesOf (s : State) (a : Nat) : List (BitVec 64) :=
  ptEntry s (a / 2097152) :: (mfind s.mem.stale (a / 2097152)).toList

/-- The locations a local address may resolve to. -/
def locsOf (s : State) (a : Nat) : List Nat :=
  if a < 0x20000000000 then (entriesOf s a).map (fun e => entryLoc e a)
  else if a < 0x30000000000 then [a - 0x20000000000]
  else if a < 0x38000000000 then [2 ^ 57 + s.fld .RAW_HOST_CFG [] RAW_HOST_CFG.BASE * 2 ^ 30 + (a - 0x30000000000)]
  else [2 ^ 67 + a]

/-- Whether a local address is of Strict type (R42, R45). -/
def strictAt (s : State) (a : Nat) : Bool :=
  if a < 0x20000000000 then (entriesOf s a).any (fun e => peValid e && peRtype e == 2)
  else if a < 0x30000000000 then s.fld .RAW_HBM_ATTR [] RAW_HBM_ATTR.RTYPE == 2
  else decide (0x3F000000000 ≤ a)

/-- The lines, by location, of accesses through pointers (R236). -/
def ptrLines (s : State) (l : List (BitVec 64 × Nat)) : List (Nat × Nat) :=
  l.flatMap (fun q =>
    let lines (b n : Nat) : Nat × Nat := (b / 128, (b + n - 1) / 128)
    match decPtr s q.1 with
    | .peer m a => [lines (2 ^ 68 * (m + 1) + a) q.2]
    | .local_ a => (pageParts a q.2).flatMap (fun r => (locsOf s r.1).map (fun b => lines b r.2))
    | _ => [])

/-- Whether an access through a pointer is Strict. -/
def ptrStrict (s : State) (l : List (BitVec 64 × Nat)) : Bool :=
  l.any (fun q => match decPtr s q.1 with
    | .local_ a => (pageParts a q.2).any (fun r => strictAt s r.1)
    | _ => false)

/-- A read that has left the tile toward a peer, and so is under way (R235). -/
def LoadRec.asked (s : State) (l : LoadRec) : Bool :=
  match decPtr s l.ptr with
  | .peer _ _ => true
  | _ => false

/-! Order. -/

/-- Whether an earlier access of the tile to one of these lines has still to be made, or may be one to them (R236). -/
def lineBefore (s : State) (t tag : Nat) (lines : List (Nat × Nat)) : Bool :=
  let x := s.tile t
  let q := (x.qs ++ x.qv ++ x.qm ++ x.qx).filter (fun e => decide (e.tag < tag))
  let pend (g : Nat) : List Nat :=
    (q.filter (fun e => decide (e.tag < g))).flatMap (fun e => (regUses s t e).2) ++
      (x.uses.filter (fun u => decide (u.tag < g))).flatMap (·.writes)
  q.any (fun e => leavesTile e.w0 &&
      ((ptrRegs e).any (fun r => (pend e.tag).contains r) ||
        overlaps (ptrLines s (entPtrs s t e false ++ entPtrs s t e true)) lines)) ||
    x.loads.any (fun l => decide (l.tag < tag) && overlaps (ptrLines s l.ptrs) lines) ||
    x.moves.any (fun m => decide (m.tag < tag) && overlaps (ptrLines s (m.ptrs false ++ m.ptrs true)) lines)

/-- Whether an access of instruction `tag` with an identifier is held by other accesses of the tile: those of the same
identifier until they are performed (R235), earlier ones to the same lines (R236), for a Strict access earlier Strict ones
(R42), and in ORDERED mode any (R238). An access that is held has not issued; among those that are held the order of the
sequence tags decides (DEDUCED, log 53). The lines of one instruction go out together but in ORDERED mode. -/
def ordHeld (s : State) (t tag strm : Nat) (strict : Bool) (lines : List (Nat × Nat)) : Bool :=
  let x := s.tile t
  let mv := x.moves.filter (fun m => decide (m.tag < tag) && leavesTile m.w0)
  let ld := x.loads.filter (fun l => l.tag != tag && (decide (l.tag < tag) || l.asked s))
  x.outs.any (fun w => w.strm == strm && w.tag != tag) || (strm == 0 && !ld.isEmpty) ||
    mv.any (fun m => (decMov m.w0 m.w1).strm.toNat == strm) ||
    (strict && (mv.any (fun m => ptrStrict s (m.ptrs false ++ m.ptrs true)) || ld.any (fun l => ptrStrict s l.ptrs))) ||
    (x.ordered && (!x.outs.isEmpty || !ld.isEmpty || !mv.isEmpty)) || lineBefore s t tag lines

/-- Whether a waiting pointer load of the module is held; one toward a peer left when it executed. -/
def loadHeld (s : State) (t : Nat) (l : LoadRec) : Bool :=
  !l.asked s && ordHeld s t l.tag 0 (ptrStrict s l.ptrs) (ptrLines s l.ptrs)

/-- Whether an active MOV is held. -/
def movHeld (s : State) (t : Nat) (m : MoveRec) : Bool :=
  let l := m.ptrs false ++ m.ptrs true
  leavesTile m.w0 && ordHeld s t m.tag (decMov m.w0 m.w1).strm.toNat (ptrStrict s l) (ptrLines s l)

/-! Fences. -/

/-- Whether a fence type (0 LOAD, 1 STORE, 2 ALL, 3 IO) waits for a read or write: Strict accesses for IO only (R239). -/
def fenceWaits (type : Nat) (wr strict : Bool) : Bool :=
  (type == 3 || !strict) && (if wr then type != 0 else type != 1)

/-- Whether a fence type waits for the accesses of an instruction, given what it reads and writes through pointers; its
accesses to tile memory are not Strict. -/
def fenceCovers (s : State) (type : Nat) (w0 : BitVec 64) (rd wr : List (BitVec 64 × Nat)) : Bool :=
  ((memRW w0).1 && fenceWaits type false (ptrStrict s rd)) || ((memRW w0).2 && fenceWaits type true (ptrStrict s wr))

/-- Whether a pointer load has still to reach the point of a scope (R240): accepted at the Span cache or egress for TILE;
for SPAN its data for what the Span cache serves and for a tile memory window, while a Strict access or one to a peer has
been accepted at the egress; its data from MODULE on. -/
def loadShort (s : State) (t : Nat) (l : LoadRec) (scope : Nat) : Bool :=
  if scope = 0 ∨ scope = 1 ∧ (l.asked s ∨ ptrStrict s l.ptrs) then loadHeld s t l else true

/-- Whether nothing is outstanding that a fence of a scope (0 TILE to 3 SYSTEM), type and SMASK waits for (R239, R240):
earlier instructions queued, the array's, active MOVs and pointer loads, and writes on their way: toward a peer from MODULE
on, toward the host for SYSTEM. Tile-memory accesses of the array carry no identifier and are always covered. A MODULE
fence that waits for room in the far write buffer (R251) is one whose FENCE_COMPLETE comes later. -/
def fenceClear (s : State) (t tag scope type smask : Nat) : Bool :=
  let x := s.tile t
  let inM (id : Nat) : Bool := smask == 0 || (smask >>> id) % 2 == 1
  let q := (x.qs ++ x.qv ++ x.qm ++ x.qx).filter (fun e => decide (e.tag < tag))
  let pend (g : Nat) : List Nat :=
    (q.filter (fun e => decide (e.tag < g))).flatMap (fun e => (regUses s t e).2) ++
      (x.uses.filter (fun u => decide (u.tag < g))).flatMap (·.writes)
  let ent (e : QEnt) : Bool :=
    (inM (strmId e) || opcOf e.w0 == 0x80 || opcOf e.w0 == 0x81) &&
      (if (ptrRegs e).any (fun r => (pend e.tag).contains r) then fenceCovers s type e.w0 [] []
       else fenceCovers s type e.w0 (entPtrs s t e false) (entPtrs s t e true))
  !(q.any ent ||
    (type != 1 && x.mmas.any (fun m => decide (m.tag < tag) && decide (m.st < 2))) ||
    (type != 0 && x.drains.any (fun d => decide (d.tag < tag) && decide (d.st < 3))) ||
    x.moves.any (fun m => decide (m.tag < tag) && inM (decMov m.w0 m.w1).strm.toNat &&
      fenceCovers s type m.w0 (m.ptrs false) (m.ptrs true)) ||
    x.loads.any (fun l => decide (l.tag < tag) && inM 0 && fenceCovers s type l.w0 l.ptrs l.ptrs && loadShort s t l scope) ||
    x.outs.any (fun w => decide (w.tag < tag) && inM w.strm && fenceWaits type true w.strict &&
      (if w.peer then decide (2 ≤ scope) else scope == 3)))

/-- The status of a fence over the writes of its dispatch that were discarded (R187). -/
def fenceStatus (x : Tile) (type smask : Nat) : Nat :=
  let inM (id : Nat) : Bool := smask == 0 || (smask >>> id) % 2 == 1
  if type = 0 then 0
  else if x.wfail.any (fun w => decide (16 ≤ w) && inM (w - 16)) then 0x0A
  else if x.wfail.any (fun w => decide (w < 16) && inM w) then 0x03
  else 0

end Sys2Proof.Machine
end

