-- ==== Sys2Proof/Machine/Route.lean ====
section
/-!
DEFINITION. Machine/Route.lean: the Claden-X link of an access to another module (R403, R404, R406), and what waits for a
bundle's bucket that moves (R392).
-/

namespace Sys2Proof.Machine

/-! Rows awaited by a Lattice engine. -/

/-- An entry awaited: its number, target module and local row. -/
def rowKey (i m lrow : Nat) : Nat := (m * 2 ^ 32 + i) * 2 ^ 20 + lrow
/-- The number of an awaited entry. -/
def rowIdx (k : Nat) : Nat := k / 2 ^ 20 % 2 ^ 32
/-- Its target module. -/
def rowMod (k : Nat) : Nat := k / 2 ^ 52 % 2 ^ 15
/-- Its bucket. -/
def rowBucket (k : Nat) : Nat := Config.rowHash (k % 2 ^ 67) % 16

/-! Links toward a module. -/

/-- The bucket of a line of another module. -/
def peerBucket (m a : Nat) : Nat := bucketOf ((m + 1) * 2 ^ 35 + a / 128)

/-- Width units of a Claden-X link (R404). -/
def clxUnits (s : State) (l : Nat) : Nat := if s.fld .CLX_LINK_STAT (clxIx l) CLX_LINK_STAT.LANES = 4 then 1 else 2

/-- The table of a module's buckets over its eligible links (R404). -/
def peerTable (s : State) (m : Nat) : List Nat :=
  bucketTable (((clxLinks s).filter (linkFor s m)).map (fun l => (l, clxUnits s l)))

/-- Buckets of the accesses of a tile to a module that are under way. -/
def tileBuckets (s : State) (m : Nat) (x : Tile) : List Nat :=
  (x.outs.filter (fun w => w.peer && w.target == m)).flatMap (fun w => w.addrs.map (peerBucket m)) ++
    x.loads.flatMap (fun l => match decPtr s l.ptr with
      | .peer k a =>
        if k = m then (List.range (if opcOf l.w0 = 0x53 then 4 else 1)).map (fun i => peerBucket m (a + 128 * i)) else []
      | _ => [])

/-- Buckets of the index rows awaited from a module. -/
def latBuckets (s : State) (m : Nat) : List Nat :=
  s.lat.qs.flatMap (fun p => match p.2.run with
    | some r => (r.rows.filter (fun k => rowMod k == m)).map rowBucket
    | none => [])

/-- Whether an access to a module is under way on a link (R406): an access is on the link that its bucket has, since a
bucket keeps its link while one is. -/
def peerBusy (s : State) (m l : Nat) : Bool :=
  (s.tiles.flatMap (fun p => tileBuckets s m p.2) ++ latBuckets s m).any (fun b => mfind s.links.xb (16 * m + b) == some l)

/-- The link of a bucket of a module, which it then has; none while it moves from a link on which accesses to the module
are under way (R406). -/
def peerLink (s : State) (m b : Nat) : Option (Nat × State) :=
  match (peerTable s m)[b]? with
  | none => none
  | some l =>
    if (mfind s.links.xb (16 * m + b)).any (fun o => o != l && peerBusy s m o) then none
    else some (l, { s with links := { s.links with xb := mins s.links.xb (16 * m + b) l } })

/-! What waits for a bucket of a bundle that moves (R392). -/

/-- The die of a unit (R436); none for an HBM controller, whose edge the assembly settles (R17). -/
def unitDie (u : Nat) : Option Nat :=
  match u / 4096 with
  | 1 => some (u / 256 % 16)
  | 2 => some 8
  | 3 => some (9 + u / 256 % 16)
  | _ => none

/-- The die at which a requester stands; for a peer the Pier is not told. -/
def Rq.die (q : Rq) : Option Nat :=
  match q with
  | .tile t => some (t / 64)
  | .eng _ u => unitDie u
  | .core _ => some 8
  | .host => some 9
  | .pcie p => some (9 + p)
  | .peer => none
  | .fw => some 8

/-- The die of a register slice (R34). -/
def sliceDie (k : Nat) : Nat := if k = 0 then 8 else if k < 9 then k - 1 else k

/-- The die of a target, with the address that chooses its bucket: the tile's Span, the slice of a register (R34), the far
home at Pier 0 (R256); for a line of HBM, whose controller's die the spec does not give, none. -/
def Tgt.die (t : Tgt) : Option (Nat × Nat) :=
  match t with
  | .win u off => some (u / 64, u * 16384 + off / 128)
  | .reg a => if a / 2 ^ 32 % 16 = 13 then none else some (sliceDie (a / 2 ^ 32 % 16), a)
  | .line l _ => if isFar l then some (9, l) else none

/-- Whether an access waits for a bucket between its requester's die and its target's. -/
def tgtHeld (s : State) (q : Rq) (t : Tgt) : Bool :=
  match q.die, t.die with
  | some a, some (b, key) => dieHeld s a b key
  | _, _ => false

end Sys2Proof.Machine
end

