-- ==== Sys2Proof/Machine/Stay.lean ====
section
/-!
DEFINITION. Machine/Stay.lean: counters at their homes (R198, R207 to R210), the Stay instructions of a tile (R197
to R200) and the messages between a tile and a home.
-/

namespace Sys2Proof.Machine

/-! Counters and registrations. -/

/-- A counter at reset. -/
def Ctr.zero : Ctr := ⟨0, 0, 0⟩

/-- A counter. -/
def State.ctr (s : State) (home idx : Nat) : Ctr := mget Ctr.zero s.stay.ctrs (ctrKey home idx)
/-- A counter written. -/
def State.setCtr (s : State) (home idx : Nat) (c : Ctr) : State :=
  { s with stay := { s.stay with ctrs := mset Ctr.zero s.stay.ctrs (ctrKey home idx) c } }

/-- Whether a home and an index name a counter: 1,024 in each Span, 4,096 in the Keystone (R207). -/
def ctrExists (home idx : Nat) : Bool := (decide (home < 8) && decide (idx < 1024)) || (home == 8 && decide (idx < 4096))

/-- Base and count of a window word for a home (layout of TILE_STAY_WIN). -/
def winOf (w home : Nat) : Nat × Nat :=
  if home = 8 then (fget w TILE_STAY_WIN.KST_BASE, fget w TILE_STAY_WIN.KST_COUNT)
  else (fget w TILE_STAY_WIN.SPAN_BASE, fget w TILE_STAY_WIN.SPAN_COUNT)

/-- Whether a window word covers a counter. -/
def winCovers (w home idx : Nat) : Bool :=
  let (b, n) := winOf w home
  decide (b ≤ idx) && decide (idx < b + n)

/-- Whether a registration is valid. -/
def collValid (s : State) (n : Nat) : Bool := s.bit .KST_COLL_ID [n] KST_COLL_ID.VALID

/-- The valid registration whose window covers a counter. -/
def collOf (s : State) (home idx : Nat) : Option Nat :=
  (List.range 64).find? (fun n => collValid s n && winCovers (s.rd .KST_COLL_WIN [n]) home idx)

/-- Whether a counter lies in the window of a failed registration (R215). -/
def ctrFailed (s : State) (home idx : Nat) : Bool :=
  match collOf s home idx with
  | some n => s.bit .KST_COLL_ID [n] KST_COLL_ID.FAILED
  | none => false

/-- Whether a module is a member by the copied bitmap (R211). -/
def collMember (s : State) (n m : Nat) : Bool := (mget 0 s.stay.memb n).getLsbD m

/-- Whether a remote operation is granted (R210): a registration that lists the sender and covers the counter. -/
def collGrants (s : State) (m home idx : Nat) : Bool :=
  (List.range 64).any (fun n => collValid s n && collMember s n m && winCovers (s.rd .KST_COLL_WIN [n]) home idx)

/-! Waits. -/

/-- Whether a wait is satisfied by a counter (R198). -/
def WaitReg.sat (w : WaitReg) (c : Ctr) : Bool :=
  if w.barrier then c.gen != w.val else decide (0 ≤ (c.value - w.val).toInt)

/-- What a counter returns: its generation when it is a barrier, else its value. -/
def Ctr.shown (c : Ctr) : Nat := if c.target = 0 then c.value.toNat else c.gen.toNat

/-- A record of a tile's Stay operation changed. -/
def mapStay (s : State) (t tag : Nat) (f : StayRec → StayRec) : State :=
  let x := s.tile t
  s.setTile t { x with stays := x.stays.map (fun r => if r.tag = tag then f r else r) }

/-- A release on its way to a waiter, in the class of its wait, with its VALUE and STATUS (R205, R209, R215). -/
def releaseTo (s : State) (w : WaitReg) (val stat : Nat) : State :=
  match w.who with
  | .tile t tag => mapStay s t tag (fun r => { r with ph := 5, res := val, stat := stat })
  | .remote m id cls => stayTell s cls m 0xE1 [id, val, stat]

/-- Release of every registration that a counter satisfies (R209). -/
def wakeCtr (s : State) (home idx : Nat) : State :=
  let c := s.ctr home idx
  let hit (w : WaitReg) : Bool := w.home == home && w.idx == idx && w.sat c
  (s.stay.waits.filter hit).foldl (fun s w => releaseTo s w c.shown 0)
    { s with stay := { s.stay with waits := s.stay.waits.filter (fun w => !hit w) } }

/-- Whether a wait finds an entry (R209): a tile of the node's own Span has a reserved one; 192 entries of a Span
and 1,024 of the Keystone are shared. -/
def waitRoom (s : State) (home : Nat) (who : Waiter) : Bool :=
  let own (w : Waiter) : Bool := match w with
    | .tile t _ => t / 64 == home
    | .remote _ _ _ => false
  if own who then true
  else decide ((s.stay.waits.filter (fun w => w.home == home && !own w.who)).length < (if home = 8 then 1024 else 192))

/-- What a home answers: a result with VALUE and STATUS, a registration, or a refusal for want of an entry; with the
token of an arrival. -/
inductive HomeR
  | done (val stat : Nat)
  | reg (tok : Nat)
  | full (tok : Nat)
deriving DecidableEq, Repr

/-- A wait at its home: satisfied, registered or refused. -/
def waitAt (s : State) (who : Waiter) (home idx : Nat) (barrier : Bool) (val : BitVec 32) (tok : Nat) :
    State × HomeR :=
  let c := s.ctr home idx
  let w : WaitReg := ⟨home, idx, who, barrier, val⟩
  if w.sat c then (s, .done c.shown 0)
  else if waitRoom s home who then
    ({ s with stay := { s.stay with waits := s.stay.waits ++ [w] } }, .reg tok)
  else (s, .full tok)

/-- SARRIVE at the home: the token, and release of the waiters at the target (R198). -/
def arriveAt (s : State) (home idx : Nat) : State × Nat :=
  let c := s.ctr home idx
  let v := c.value + 1
  if v = c.target then (wakeCtr (s.setCtr home idx ⟨0, c.target, c.gen + 1⟩) home idx, c.gen.toNat)
  else (s.setCtr home idx { c with value := v }, c.gen.toNat)

/-- An operation that changes nothing: VALUE is not stated, so it is free (assumption 20). -/
def stayRefuse (s : State) (stat : Nat) : State × HomeR :=
  ({ s with freeCtr := s.freeCtr + 1 }, .done (Config.freeWord s.freeCtr).toNat stat)

/-- A Trestle engine without work. -/
def TrSpan.zero : TrSpan := ⟨0, 0, 0, 0, none, false, 0, [], [], [], []⟩
/-- The Trestle engine of a Span. -/
def State.trs (s : State) (p : Nat) : TrSpan := mget TrSpan.zero s.tr p
/-- Its update. -/
def State.setTrs (s : State) (p : Nat) (x : TrSpan) : State := { s with tr := mset TrSpan.zero s.tr p x }

/-- A layer with its status is among those a tile's dispatch has consumed (R347). -/
def Tile.tookLayer (y : Tile) (st : Nat) : Tile :=
  { y with layer := y.layer ||| (2 ^ (st % 256) + st / 256 * 2 ^ 16) }

/-- What Trestle sees of an add to one of its counters (R342, R347): T(n) when START first reaches n + 1, and the
layer a dispatch consumes when one of its tiles adds to DONE, with its status or, before it has one, by its number. -/
def trNote (s : State) (who : Waiter) (home idx old new : Nat) : State :=
  let x := s.trs home
  if 8 ≤ home ∨ ¬ x.go then s
  else
    let sy := s.rd .TR_SYNC [home]
    let s := if idx = fget sy TR_SYNC.START_IDX ∧ new - old ≤ 4096 then
        let ks := ((List.range (new - old)).map (fun i => old + 1 + i)).filter (fun k => (mfind x.times k).isNone)
        s.setTrs home { x with times := ks.foldl (fun m k => mins m k (s.rd .SPAN_AC_CNT [home])) x.times }
      else s
    match who with
    | .tile t _ =>
      if idx = fget sy TR_SYNC.DONE_IDX ∧ t / 64 = home then
        let y := s.tile t
        let n := old / max 1 (fget sy TR_SYNC.RELEASE_CNT)
        match mfind x.stats n with
        | some st => s.setTile t (y.tookLayer st)
        | none => s.setTile t { y with wants := sins y.wants n }
      else s
    | .remote _ _ _ => s

/-- One operation performed at its home (R198, R207 to R209, R215). SINIT is refused in a registered window even
when the registration has failed, by the order of R15 (assumption 21). -/
def homeOp (s : State) (who : Waiter) (op home idx : Nat) (val : BitVec 32) : State × HomeR :=
  let c := s.ctr home idx
  let bar := c.target != 0
  if !ctrExists home idx then stayRefuse s 0x0E
  else if op = 0xD0 then
    if s.stay.waits.any (fun w => w.home == home && w.idx == idx) || (collOf s home idx).isSome then stayRefuse s 0x0E
    else (s.setCtr home idx ⟨0, val, 0⟩, .done 0 0)
  else if ctrFailed s home idx then stayRefuse s 0x03
  else match op with
  | 0xD1 => if bar then let (s, tok) := arriveAt s home idx; (s, .done tok 0) else stayRefuse s 0x0E
  | 0xD2 => if bar then waitAt s who home idx true val val.toNat else stayRefuse s 0x0E
  | 0xD3 =>
    if bar then
      let (s, tok) := arriveAt s home idx
      waitAt s who home idx true (BitVec.ofNat 32 tok) tok
    else stayRefuse s 0x0E
  | 0xD4 =>
    if bar then stayRefuse s 0x0E
    else
      let v := c.value + val
      let s := trNote s who home idx c.value.toNat v.toNat
      (wakeCtr (s.setCtr home idx { c with value := v }) home idx, .done v.toNat 0)
  | 0xD5 => if bar then stayRefuse s 0x0E else waitAt s who home idx false val val.toNat
  | 0xD6 => (s, .done c.shown 0)
  | _ => stayRefuse s 0x0E

/-- An engine adds 1 to a counter named by its absolute number (R210, R224, R291, R342). -/
def sigAdd (s : State) (home idx : Nat) : State := (homeOp s (.remote 0 0 0) 0xD4 home idx 1).1

/-- Whether a waiter is one of a module by its number. -/
def Waiter.isRemote (w : Waiter) (m id : Nat) : Bool :=
  match w with
  | .remote n i _ => n == m && i == id
  | _ => false

/-- The registration of a waiter of another module withdrawn (R209). -/
def withdraw (s : State) (m id home idx : Nat) : State :=
  { s with stay := { s.stay with
      waits := s.stay.waits.filter (fun w => !(w.who.isRemote m id && w.home == home && w.idx == idx)) } }

/-! The tile's side. -/

/-- The operation a record sends: a barrier wait that has already arrived goes on as SWAITG with its token (R200). -/
def StayRec.op (r : StayRec) : Nat := if r.tok.isSome then 0xD2 else opcOf r.w0
/-- The value it sends. -/
def StayRec.value (r : StayRec) : BitVec 32 :=
  match r.tok with
  | some k => BitVec.ofNat 32 k
  | none => BitVec.ofNat 32 r.val

/-- The absolute counter a record names: a local one through TILE_STAY_WIN (R197). -/
def stayIdx (s : State) (t : Nat) (r : StayRec) : Nat :=
  if r.far then refIdx r.ref else (winOf (s.rd .TILE_STAY_WIN (tix t)) (refHome r.ref)).1 + refIdx r.ref

/-- The record of a Stay operation of a tile. -/
def stayRec (s : State) (t tag : Nat) : Option StayRec := (s.tile t).stays.find? (fun r => r.tag == tag)

/-- The result is written and the operation ends (R198, R199): the status of its fence, when not OK, takes STATUS. -/
def stayEnd (s : State) (t : Nat) (r : StayRec) (val stat : Nat) : State :=
  let st := if r.fstat ≠ 0 then r.fstat else stat
  let x := s.tile t
  let y := x.setS (decStay r.w0).rd.toNat (BitVec.ofNat 64 (val % 2 ^ 32 + st % 256 * 2 ^ 32))
  endUse (s.setTile t { y with stays := x.stays.filter (fun q => q.tag != r.tag) }) t r.tag

/-- A far barrier wait of a preempted tile goes back to its queue once its token is known (R200). -/
def stayBack (s : State) (t : Nat) (r : StayRec) (tok : Nat) : State :=
  if s.tstate t = 3 then
    let x := s.tile t
    let e : QEnt := ⟨r.tag, r.pc, 0, r.w0, 0, 0, some tok⟩
    let s := stayTell s r.cls (refMod r.ref) 0xD8 [t, r.tag, refHome r.ref, refIdx r.ref]
    s.setTile t { x with stays := x.stays.filter (fun q => q.tag != r.tag), qs := e :: x.qs,
                         uses := x.uses.filter (fun u => u.tag != r.tag) }
  else s

/-- What a home has answered, at a tile's record: phase 2 a result on its way, 3 registered, 4 refused. -/
def stayAnswer (s : State) (t tag : Nat) (h : HomeR) : State :=
  let keep (r : StayRec) (tok : Nat) : Option Nat := if opcOf r.w0 = 0xD3 then some tok else r.tok
  match h with
  | .done v st => mapStay s t tag (fun r => { r with ph := 2, res := v, stat := st })
  | .reg tok => mapStay s t tag (fun r => { r with ph := 3, tok := keep r tok, heard := s.clk.fc })
  | .full tok => mapStay s t tag (fun r => { r with ph := 4, tok := keep r tok, heard := s.clk.fc })

/-- A message to a counter of the module sent: its record waits in phase 1 with a stamp (R206). -/
def staySent (s : State) (t tag : Nat) : State :=
  let s := { s with stay := { s.stay with stamp := s.stay.stamp + 1 } }
  mapStay s t tag (fun r => { r with ph := 1, sent := s.stay.stamp })

/-- Whether an earlier message of the same Span node to the same counter in the same class has not arrived (R206). -/
def stayBehind (s : State) (t : Nat) (q : StayRec) : Bool :=
  s.tiles.any (fun p => p.1 / 64 == t / 64 && p.2.stays.any (fun r =>
    r.ph == 1 && !r.far && r.cls == q.cls && refHome r.ref == refHome q.ref && stayIdx s p.1 r == stayIdx s t q &&
    decide (r.sent < q.sent)))

/-- The operation of a record reaches its home in the module, or leaves as a message; a far module that is lost or has
no route answers UNREACHABLE at once (R250, R405). -/
def staySendRec (s : State) (t : Nat) (r : StayRec) : State :=
  if r.far then
    match staySend s r.cls (refMod r.ref) r.op
        [t, r.tag, refHome r.ref, refIdx r.ref, r.value.toNat] with
    | some s => mapStay s t r.tag (fun r => { r with ph := 1, heard := s.clk.fc })
    | none =>
      let (s, h) := stayRefuse s 0x03
      stayAnswer s t r.tag h
  else
    let (s, h) := homeOp s (.tile t r.tag) r.op (refHome r.ref) (stayIdx s t r) r.value
    stayAnswer s t r.tag h

/-- The fence of a signalling instruction ends (R199): its hold on later writes ends too, while the wait of SBAR
goes on holding. -/
def fenceEnds (s : State) (t : Nat) (r : StayRec) : State :=
  let x := s.tile t
  let st := fenceStatus x 1 0
  let s := s.setTile t { x with
    uses := x.uses.map (fun (u : Use) => if u.tag = r.tag ∧ ¬ r.wait then { u with hold := 0 } else u) }
  let s := if st = 0x03 then s.setFld .TILE_MOVE_STAT (tix t) TILE_MOVE_STAT.UNREACH 1
    else if st = 0x0A then s.setFld .TILE_MOVE_STAT (tix t) TILE_MOVE_STAT.HOSTLOST 1 else s
  settle (mapStay (staySent s t r.tag) t r.tag (fun r => { r with fstat := st })) t

/-- Whether a reference raises STAY_RANGE (R197): bits [63:32], a reserved HOME, MODULE without REMOTE, or a local
counter outside the window. -/
def refBad (s : State) (t : Nat) (r : BitVec 64) (far : Bool) : Bool :=
  (r.extractLsb' 32 32) != 0 || decide (8 < refHome r) || (!r.getLsbD 31 && refMod r != 0) ||
  (!far && decide ((winOf (s.rd .TILE_STAY_WIN (tix t)) (refHome r)).2 ≤ refIdx r))

/-- A Stay instruction from the scalar stream (R197 to R199). A far operation without a fence leaves at once. -/
def stayIssue (opc t : Nat) (f : InsStay) (s : State) : Host.Outcome State Fault Refusal :=
  issue s t .scalar (encStay opc f) 0 (fun s e =>
    let x := s.tile t
    let ref := x.s f.rc.toNat
    let far := ref.getLsbD 31 && refMod ref != actId s
    let wait := opc == 0xD2 || opc == 0xD3 || opc == 0xD5
    if !x.predOn f.pred.toNat then .done s
    else if 2 ≤ f.pri.toNat ∨ (opc = 0xD0 ∧ ref.getLsbD 31) then .exc 0x04 0
    else if refBad s t ref far then .exc 0x0C 0
    else
      let fenced := f.fs ≠ 0 ∧ (opc = 0xD1 ∨ opc = 0xD4 ∨ (opc = 0xD3 ∧ e.arrived = none))
      let r : StayRec := ⟨e.tag, e.pc, e.w0, ref, ((x.s f.rv.toNat).extractLsb' 0 32).toNat, wait, far,
        if fenced then 0 else 1, e.arrived, 0, 0, 0, s.clk.fc, 0⟩
      let u : Use := ⟨e.tag, 0, wait, [], [f.rd.toNat], [], [], (holdOf e).1, 0⟩
      let s := addUse s t u
      let x := s.tile t
      let s := s.setTile t { x with stays := x.stays ++ [r] }
      .done (if fenced then s else if far then staySendRec s t r else staySent s t e.tag))

/-- SINIT (R198). -/
def execSinit (t : Nat) (f : InsStay) (s : State) : Host.Outcome State Fault Refusal := stayIssue 0xD0 t f s
/-- SARRIVE. -/
def execSarrive (t : Nat) (f : InsStay) (s : State) : Host.Outcome State Fault Refusal := stayIssue 0xD1 t f s
/-- SWAITG. -/
def execSwaitg (t : Nat) (f : InsStay) (s : State) : Host.Outcome State Fault Refusal := stayIssue 0xD2 t f s
/-- SBAR. -/
def execSbar (t : Nat) (f : InsStay) (s : State) : Host.Outcome State Fault Refusal := stayIssue 0xD3 t f s
/-- SADD. -/
def execSadd (t : Nat) (f : InsStay) (s : State) : Host.Outcome State Fault Refusal := stayIssue 0xD4 t f s
/-- SWAITV. -/
def execSwaitv (t : Nat) (f : InsStay) (s : State) : Host.Outcome State Fault Refusal := stayIssue 0xD5 t f s
/-- SREAD. -/
def execSread (t : Nat) (f : InsStay) (s : State) : Host.Outcome State Fault Refusal := stayIssue 0xD6 t f s

/-! Messages. -/

/-- The answer to a remote operation: a result, a registration or a refusal (kinds 0xE0, 0xE4, 0xE3). -/
def answerTo (s : State) (m id cls : Nat) (h : HomeR) : State :=
  match h with
  | .done v st => stayTell s cls m 0xE0 [id, v, st]
  | .reg tok => stayTell s cls m 0xE4 [id, tok]
  | .full tok => stayTell s cls m 0xE3 [id, tok]

/-- STAY_COUNTER_REQUEST (R207): an operation at its home. For a tile it waits for the fence of R199, after which its
message is sent, and a far operation leaves; messages of one node to one counter in one class arrive in their order
(R206). -/
def execStayCounterRequest (r : StayReq) (s : State) : Host.Outcome State Fault Refusal :=
  match r with
  | .tile t tag =>
    whenLive s (
      match stayRec s t tag with
      | none => s
      | some q =>
        let go (s : State) : State :=
          match stayRec s t tag with
          | some q => if q.far || !stayBehind s t q then staySendRec s t q else s
          | none => s
        if q.ph = 0 then
          if fenceClear s t tag ((decStay q.w0).fs.toNat - 4) 1 0 then go (fenceEnds s t q) else s
        else if q.ph = 1 ∧ ¬ q.far then go s
        else s)
  | .remote m id cls op home idx val =>
    let refuse (st : Nat) : State :=
      let (s, h) := stayRefuse s st
      answerTo s m id cls h
    whenPeer s (if op = 0xD8 then s else refuse 0x03) (
      if op = 0xD8 then withdraw s m id home idx
      else if collGrants s m home idx && decide (op ≠ 0xD0) then
        let (s, h) := homeOp s (.remote m id cls) op home idx (BitVec.ofNat 32 val)
        answerTo s m id cls h
      else refuse 0x0E)

/-- STAY_ACK (R198, R200): the answer of an operation arrives at its tile. For a far one the operands carry it:
kind 0 a result, 1 a registration, 2 a refusal, with the token as `val`. -/
def execStayAck (t tag kind val status : Nat) (s : State) : Host.Outcome State Fault Refusal :=
  whenLive s (
    match stayRec s t tag with
    | none => s
    | some r =>
      if r.ph = 2 then stayEnd s t r r.res r.stat
      else if r.far ∧ r.ph = 1 then
        match kind with
        | 0 => stayEnd s t r val status
        | 1 => if r.wait then stayBack (stayAnswer s t tag (.reg val)) t r val else s
        | _ => if r.wait then stayBack (stayAnswer s t tag (.full val)) t r val else s
      else s)

/-- STAY_RELEASE (R209): the release of a wait arrives at its tile. -/
def execStayRelease (t tag val status : Nat) (s : State) : Host.Outcome State Fault Refusal :=
  whenLive s (
    match stayRec s t tag with
    | none => s
    | some r =>
      if r.ph = 5 then stayEnd s t r r.res r.stat
      else if r.far ∧ r.ph = 3 then stayEnd s t r val status
      else s)

/-- STAY_WAIT_RETRY (R209): a refused wait is sent again. -/
def execStayWaitRetry (t tag : Nat) (s : State) : Host.Outcome State Fault Refusal :=
  whenLive s (
    match stayRec s t tag with
    | none => s
    | some r => if r.ph = 4 then (if r.far then staySendRec s t r else staySent s t tag) else s)

/-- STAY_WAIT_PROBE (R200): a probe in class 2 leaves for the home of a far wait, reaches a home that answers for a
wait registered there, or its answer returns. -/
def execStayWaitProbe (p : StayProbe) (s : State) : Host.Outcome State Fault Refusal :=
  whenLive s (match p with
    | .send t tag =>
      match stayRec s t tag with
      | none => s
      | some r =>
        if r.far && r.wait && r.ph == 3 then
          stayTell s 2 (refMod r.ref) 0xD7 [t, r.tag, refHome r.ref, refIdx r.ref] else s
    | .recv m id cls home idx =>
      if s.stay.waits.any (fun w => w.who.isRemote m id && w.home == home && w.idx == idx) then
        stayTell s cls m 0xE2 [id] else s
    | .answer t tag =>
      match stayRec s t tag with
      | none => s
      | some r =>
        if r.far && r.wait && r.ph == 3 then mapStay s t tag (fun r => { r with heard := s.clk.fc }) else s)

end Sys2Proof.Machine
end

