-- ==== Sys2Proof/Machine/Coll.lean ====
section
/-!
DEFINITION. Machine/Coll.lean: collective registrations (R211 to R215), the end of a remote wait (R200) and Stay
messages that the module forwards (R405).
-/

namespace Sys2Proof.Machine

/-! Failure of a registration (R215). -/

/-- COLL_ID of a Lattice descriptor. -/
def latCollId (ws : List (BitVec 64)) : Nat := ((ws.getD 0 0).extractLsb' 16 16).toNat

/-- What a failing registration ends (R215, steps 2 and 3): its waiters are released with UNREACHABLE, its running
Lattice descriptors end with UNREACHABLE, and those posted but not started will complete with CANCELLED. -/
def collStop (s : State) (n : Nat) : State :=
  let win := s.rd .KST_COLL_WIN [n]
  let cid := s.fld .KST_COLL_ID [n] KST_COLL_ID.COLL_ID
  let hit (w : WaitReg) : Bool := winCovers win w.home w.idx
  let ws := s.stay.waits.filter hit
  let s := { s with stay := { s.stay with waits := s.stay.waits.filter (fun w => !hit w) } }
  let s := ws.foldl (fun s w =>
    releaseTo { s with freeCtr := s.freeCtr + 1 } w (Config.freeWord s.freeCtr).toNat 0x03) s
  let qs := s.lat.qs.map (fun p => (p.1, { p.2 with run := p.2.run.map (fun r =>
    if latCollId r.words = cid then { r with stat := statFold r.stat 0x03, fin := true } else r) }))
  let cuts := s.lat.qs.map (fun p => (cid, (p.1, p.2.posted)))
  { s with lat := { s.lat with qs := qs }
           stay := { s.stay with cuts := s.stay.cuts.filter (fun c => c.1 != cid) ++ cuts } }

/-- A failing registration (R215): FAILED, and its work ended. -/
def collFail (s : State) (n : Nat) : State :=
  if !collValid s n || s.bit .KST_COLL_ID [n] KST_COLL_ID.FAILED then s
  else collStop (s.setFld .KST_COLL_ID [n] KST_COLL_ID.FAILED 1) n

/-- Loss of a member (R215): every registration with AUTO_FAIL = 1 that lists the module fails. -/
def autoFail (s : State) (m : Nat) : State :=
  (List.range 64).foldl (fun s n =>
    if collValid s n && s.bit .KST_COLL_ID [n] KST_COLL_ID.AUTO_FAIL && collMember s n m then collFail s n else s) s

/-- An access to a module has reached its link-loss timeout (R215, R250): the module is lost, and registrations with
AUTO_FAIL that list it fail. -/
def lostPeer (s : State) (m : Nat) : State := autoFail (markLost s m) m

/-! Writes of KST_COLL_ID (R211 to R213). -/

/-- Two ranges of counters overlap. -/
def rangesMeet (a an b bn : Nat) : Bool := decide (0 < an) && decide (0 < bn) && decide (a < b + bn) && decide (b < a + an)

/-- Two windows overlap at some HOME. -/
def winsMeet (v w : Nat) : Bool :=
  rangesMeet (winOf v 0).1 (winOf v 0).2 (winOf w 0).1 (winOf w 0).2 ||
  rangesMeet (winOf v 8).1 (winOf v 8).2 (winOf w 8).1 (winOf w 8).2

/-- A dispatch of the tile is running. -/
def dispatching (s : State) (t : Nat) : Bool := (s.tile t).started && s.tstate t != 0 && s.tstate t != 7

/-! Accesses of an engine for a context (R53, R62), without allocating. -/

/-- The Lattice engine of a Pier (R436). -/
def unitLat (p : Nat) : Nat := unitPier p 0x0A

/-- The queue service and the mailbox services work on KMH3 (R436). -/
def unitSvc : Nat := unitKst 0x44

/-- Whether a unit is a Lattice engine. -/
def isLat (u : Nat) : Bool := u / 4096 == 3 && u % 256 == 0x0A

/-- The target of one piece; for a peer's data the checks of R40 hold too. The inner `none` is a refusal, logged; the
outer one an access that must wait. -/
def engTarget (s : State) (ctx unit : Nat) (peer wr : Bool) (a : Nat) : Option (Option (Tgt × Nat) × State) :=
  let (d, s) := decLocal s (.eng ctx unit) a wr
  let (e, s) := if peer then decLocal s .peer a wr else (d, s)
  match d, e with
  | .held, _ => none
  | _, .held => none
  | .ok (.reg _) _, _ => some (none, logFail s (.eng ctx unit) a)
  | .ok t act, .ok _ _ => if tgtHeld s (.eng ctx unit) t then none else some (some (t, act), s)
  | _, _ => some (none, logFail s (.eng ctx unit) a)

/-- The first failing status. -/
def firstStat (a b : Nat) : Nat := if a = 0 then b else a

/-- A read of one piece: its bytes, whether they are poisoned, and a status. A Lattice read of a line that an
unresolved OPTIMISTIC epoch has recorded waits (R217). -/
def engReadOne (s : State) (ctx unit : Nat) (peer : Bool) (a n : Nat) (ext : Ext) :
    Option (State × List (BitVec 8) × Bool × Nat) :=
  match engTarget s ctx unit peer false a with
  | none => none
  | some (none, s) => some (s, List.replicate n 0, false, 0x0E)
  | some (some (t, act), s) =>
    if isLat unit && (tgtKeys t n).any (gateRecorded s) then none
    else (readPiece s .none_ t act a n true ext).map (fun q =>
      (q.s, if q.stat = 0 then q.bytes else List.replicate n 0, q.poison, q.stat))

/-- Reads of pieces: bytes, whether each is poisoned, and the first failing status; each piece succeeds or fails on its
own (R510). -/
def engReadAt (s : State) (ctx unit : Nat) (peer : Bool) (ps : List (Nat × Nat)) (ext : Ext) :
    Option (State × List (BitVec 8) × List Bool × Nat) :=
  match ps with
  | [] => some (s, [], [], 0)
  | (a, n) :: r =>
    match engReadOne s ctx unit peer a n ext with
    | none => none
    | some (s, bs, p, st) =>
      match engReadAt s ctx unit peer r ext with
      | none => none
      | some (s, bs', ps', st') => some (s, bs ++ bs', List.replicate n p ++ ps', firstStat st st')

/-- A read of `n` bytes for a context by a unit; a refused piece has the status PERMISSION. -/
def engRead (s : State) (ctx unit : Nat) (peer : Bool) (a n : Nat) (ext : Ext) :
    Option (State × List (BitVec 8) × List Bool × Nat) := engReadAt s ctx unit peer (pieces a n) ext

/-- A write of one piece, and its status; far data carries the unit that wrote it. -/
def engWriteOne (s : State) (ctx unit : Nat) (peer wr : Bool) (a : Nat) (bs : List (BitVec 8)) (poison : Bool)
    (ext : Ext) : Option (State × Nat) :=
  match engTarget s ctx unit peer wr a with
  | none => none
  | some (none, s) => some (s, 0x0E)
  | some (some (t, act), s) =>
    (writePiece s .none_ t act a bs poison true ext).map (fun q =>
      (match t with
       | .line l _ => noteFar s q.1 l unit
       | _ => q.1, q.2))

/-- Writes of pieces for a context: each succeeds or fails on its own and the first failing status is reported
(R510). -/
def engWriteAt (s : State) (ctx unit : Nat) (peer wr : Bool) (ps : List (Nat × Nat)) (bs : List (BitVec 8))
    (pz : List Bool) (ext : Ext) : Option (State × Nat) :=
  match ps with
  | [] => some (s, 0)
  | (a, n) :: r =>
    match engWriteOne s ctx unit peer wr a (bs.take n) ((pz.take n).any id) ext with
    | none => none
    | some (s, st) =>
      match engWriteAt s ctx unit peer wr r (bs.drop n) (pz.drop n) ext with
      | none => none
      | some (s, st') => some (s, firstStat st st')

/-- A write for a context. `wr` = false leaves WRITE of the page out of the checks (R366: completion words). -/
def engWrite (s : State) (ctx unit : Nat) (peer wr : Bool) (a : Nat) (bs : List (BitVec 8)) (pz : List Bool)
    (ext : Ext) : Option (State × Nat) := engWriteAt s ctx unit peer wr (pieces a bs.length) bs pz ext

/-- The member bitmap (R211): read with the context's permissions in the unified range. -/
def readMemb (s : State) (n ctx : Nat) (ext : Ext) : Option (State × Option (BitVec 32768)) :=
  let a := s.fld .KST_COLL_MEMB [n] KST_COLL_MEMB.MEMB_BASE * 4096
  if 0x20000000000 ≤ a then some (s, none)
  else match engRead s ctx unitSvc false a 4096 ext with
    | none => none
    | some (s, bs, pz, st) => some (s, if st = 0 ∧ ¬ pz.any id then some (packBytes 32768 bs) else none)

/-- KST_COLL_BUSY follows the ACTIVE bits; at zero, a deferred step of Tension is taken (R431). -/
def collBusy (s : State) : State :=
  let b := ((List.range 64).map (fun n => s.fld .KST_COLL_ID [n] KST_COLL_ID.ACTIVE * 2 ^ n)).sum
  let s := s.wr .KST_COLL_BUSY [] b
  if b = 0 then deferEnd s else s

/-- ACTIVE set. -/
def collActivate (s : State) (n : Nat) : State := collBusy (s.setFld .KST_COLL_ID [n] KST_COLL_ID.ACTIVE 1)

/-- A write of ACTIVE while VALID = 1 (R213): a clear is held until RUN reads zero; a later 1 takes its place. -/
def collActiveWrite (s : State) (n : Nat) (on : Bool) : State :=
  if on then collActivate { s with stay := { s.stay with heldClr := sdel s.stay.heldClr n } } n
  else if s.fld .KST_COLL_ID [n] KST_COLL_ID.RUN = 0 then collBusy (s.setFld .KST_COLL_ID [n] KST_COLL_ID.ACTIVE 0)
  else { s with stay := { s.stay with heldClr := sins s.stay.heldClr n } }

/-- The release of a registration (R212): VALID, ACTIVE and FAILED read 0. -/
def collRelease (s : State) (n : Nat) : State :=
  collBusy { ((s.setFld .KST_COLL_ID [n] KST_COLL_ID.VALID 0).setFld .KST_COLL_ID [n] KST_COLL_ID.ACTIVE 0).setFld
      .KST_COLL_ID [n] KST_COLL_ID.FAILED 0 with
    stay := { s.stay with heldClr := sdel s.stay.heldClr n, heldRel := sdel s.stay.heldRel n
                          memb := mdel s.stay.memb n } }

/-- A held clear or release takes effect once RUN reads zero (R212, R213). -/
def collRunZero (s : State) (n : Nat) : State :=
  if s.fld .KST_COLL_ID [n] KST_COLL_ID.RUN ≠ 0 then s
  else if s.stay.heldRel.contains n then collRelease s n
  else if s.stay.heldClr.contains n then
    collBusy { s.setFld .KST_COLL_ID [n] KST_COLL_ID.ACTIVE 0 with
      stay := { s.stay with heldClr := sdel s.stay.heldClr n } }
  else s

/-- Whether waiters or Lattice descriptors of a registration remain (R212). -/
def collBusyWork (s : State) (n : Nat) : Bool :=
  let win := s.rd .KST_COLL_WIN [n]
  s.stay.waits.any (fun w => winCovers win w.home w.idx) || decide (0 < s.fld .KST_COLL_ID [n] KST_COLL_ID.RUN) ||
  s.lat.qs.any (fun p => decide (p.2.started < p.2.posted))

/-- A write of KST_COLL_ID with its effective value. VALID = 0 first ends what remains, and the release waits for the
completion of the running descriptors (R212). The checks of VALID = 1 discard the whole write; the module does
nothing while the bitmap cannot be read yet. -/
def collIdWrite (s : State) (n eff : Nat) (ext : Ext) : State :=
  let r := RegId.KST_COLL_ID
  let old := collValid s n
  let new := fget eff KST_COLL_ID.VALID == 1
  let auto (s : State) : State := s.setFld r [n] KST_COLL_ID.AUTO_FAIL (fget eff KST_COLL_ID.AUTO_FAIL)
  let ids (s : State) : State :=
    (s.setFld r [n] KST_COLL_ID.COLL_ID (fget eff KST_COLL_ID.COLL_ID)).setFld r [n] KST_COLL_ID.CTX_ID
      (fget eff KST_COLL_ID.CTX_ID)
  let rest (s : State) : State :=
    let s := collActiveWrite s n (fget eff KST_COLL_ID.ACTIVE == 1)
    if fget eff KST_COLL_ID.ABORT = 1 then collFail s n else s
  if old then
    if new then rest (auto s)
    else
      let s := auto s
      if !collBusyWork s n then collRelease s n
      else
        let s := collStop (s.setFld r [n] KST_COLL_ID.FAILED 1) n
        collRunZero { s with stay := { s.stay with heldRel := sins s.stay.heldRel n } } n
  else if !new then ids (auto s)
  else
    let win := s.rd .KST_COLL_WIN [n]
    let bad := (List.range 64).any (fun m => m != n && collValid s m &&
        (s.fld r [m] KST_COLL_ID.COLL_ID == fget eff KST_COLL_ID.COLL_ID || winsMeet win (s.rd .KST_COLL_WIN [m]))) ||
      s.tiles.any (fun p => dispatching s p.1 && winsMeet win (s.rd .TILE_STAY_WIN (tix p.1)))
    if bad then discardReg s r [n]
    else match readMemb s n (fget eff KST_COLL_ID.CTX_ID) ext with
      | none => s
      | some (s, none) => discardReg s r [n]
      | some (s, some m) =>
        let s := (auto (ids s)).setFld r [n] KST_COLL_ID.VALID 1
        rest { s with stay := { s.stay with memb := mset 0 s.stay.memb n m } }

/-- COLL_REGISTER. -/
def execCollRegister (n : Nat) (w : BitVec 64) (ext : Ext) (s : State) : Host.Outcome State Fault Refusal :=
  whenLive s (if n < 64 then collIdWrite s n (fput w.toNat KST_COLL_ID.VALID 1) ext else s)

/-- COLL_RELEASE. -/
def execCollRelease (n : Nat) (w : BitVec 64) (s : State) : Host.Outcome State Fault Refusal :=
  whenLive s (if n < 64 then collIdWrite s n (fput w.toNat KST_COLL_ID.VALID 0) ⟨[], [], 0⟩ else s)

/-- COLL_ACTIVE_SET. -/
def execCollActiveSet (n : Nat) (w : BitVec 64) (ext : Ext) (s : State) : Host.Outcome State Fault Refusal :=
  whenLive s (if n < 64 then collIdWrite s n (fput w.toNat KST_COLL_ID.ACTIVE 1) ext else s)

/-- COLL_ACTIVE_CLEAR. -/
def execCollActiveClear (n : Nat) (w : BitVec 64) (ext : Ext) (s : State) : Host.Outcome State Fault Refusal :=
  whenLive s (if n < 64 then collIdWrite s n (fput w.toNat KST_COLL_ID.ACTIVE 0) ext else s)

/-- COLL_ABORT. -/
def execCollAbort (n : Nat) (w : BitVec 64) (ext : Ext) (s : State) : Host.Outcome State Fault Refusal :=
  whenLive s (if n < 64 then collIdWrite s n (fput w.toNat KST_COLL_ID.ABORT 1) ext else s)

/-! The end of a remote operation (R200). -/

/-- STAY_WAIT_TIMEOUT: a far operation without an answer, or whose module is lost, completes with UNREACHABLE and a
free VALUE; a registration with AUTO_FAIL fails (R215). -/
def execStayWaitTimeout (t tag : Nat) (s : State) : Host.Outcome State Fault Refusal :=
  whenLive s (
    match stayRec s t tag with
    | none => s
    | some r =>
      if r.far ∧ r.ph ≠ 0 ∧ r.ph ≠ 2 then
        let s := autoFail s (refMod r.ref)
        stayEnd { s with freeCtr := s.freeCtr + 1 } t r (Config.freeWord s.freeCtr).toNat 0x03
      else s)

/-! Forwarding (R405). -/

/-- A message dropped at a Pier. -/
def stayDrop (s : State) : State := s.satInc .CLX_STAY_CFG [] CLX_STAY_CFG.STAY_DROP 1

/-- STAY_FORWARD: a message for another module arrives at a Pier with a hop count. -/
def execStayForward (pier cls dest kind hops : Nat) (args : List Nat) (s : State) :
    Host.Outcome State Fault Refusal :=
  whenUp s (
    if s.asm.piers ≤ pier ∨ dest = actId s then s
    else if hops = 0 ∨ ¬ stayRouted s dest then stayDrop s
    else stayPut s ⟨cls, dest, kind, hops - 1, args⟩)

/-- STAY_FORWARD_TIMEOUT: the oldest message held for a module without an active link is dropped and counted. -/
def execStayForwardTimeout (dest : Nat) (s : State) : Host.Outcome State Fault Refusal :=
  whenUp s (
    match s.stay.held.findIdx? (fun x => x.dest == dest) with
    | none => s
    | some i =>
      stayDrop { s with stay := { s.stay with held := s.stay.held.eraseIdx i } })

end Sys2Proof.Machine
end

