-- ==== Sys2Proof/Machine/Lattice.lean ====
section
/-!
DEFINITION. Machine/Lattice.lean: the Lattice engines (R221 to R231): queues, descriptors and their completion,
reductions, and index-driven scatter and gather.
-/

namespace Sys2Proof.Machine

/-! Queues. -/

/-- A queue without work. -/
def LatQ.zero : LatQ := ⟨0, 0, 0, 0, none, none⟩
/-- A queue of a Pier. -/
def State.latQ (s : State) (pier q : Nat) : LatQ := mget LatQ.zero s.lat.qs (16 * pier + q)
/-- Its update, with LAT_Q_STAT: HEAD, BUSY and DISABLE_PENDING. -/
def State.setLatQ (s : State) (pier q : Nat) (x : LatQ) : State :=
  let s := { s with lat := { s.lat with qs := mset LatQ.zero s.lat.qs (16 * pier + q) x } }
  let ix := [pier, q]
  let idle := x.run.isNone && x.started == x.posted
  let s := s.setFld .LAT_Q_STAT ix LAT_Q_STAT.HEAD (x.started % 2 ^ s.fld .LAT_Q_BASE ix LAT_Q_BASE.LOG2_SIZE)
  let s := s.setFld .LAT_Q_STAT ix LAT_Q_STAT.BUSY (b2n x.run.isSome)
  s.setFld .LAT_Q_STAT ix LAT_Q_STAT.DISABLE_PENDING (b2n (s.bit .LAT_Q_CTL ix LAT_Q_CTL.DISABLE && !idle))

/-- Slots of a queue's ring. -/
def latSize (s : State) (pier q : Nat) : Nat := 2 ^ s.fld .LAT_Q_BASE [pier, q] LAT_Q_BASE.LOG2_SIZE

/-- A write of LAT_DB (R221): a TAIL outside the ring, or while EN = 0 (assumption 27), is discarded and logged. -/
def latDbWrite (s : State) (pier q eff : Nat) : State :=
  let tail := fget eff LAT_DB.TAIL
  let size := latSize s pier q
  if ¬ s.bit .LAT_Q_CTL [pier, q] LAT_Q_CTL.EN ∨ size ≤ tail then discardReg s .LAT_DB [pier, q]
  else
    let x := s.latQ pier q
    s.setLatQ pier q { x with tail := tail, posted := x.posted + (tail + size - x.tail) % size }

/-- LAT_DOORBELL. -/
def execLatDoorbell (pier q : Nat) (w : BitVec 64) (s : State) : Host.Outcome State Fault Refusal :=
  whenLive s (if pier < s.asm.piers ∧ q < 16 then latDbWrite s pier q w.toNat else s)

/-- A write of LAT_Q_BASE: only while EN = 0, and with a listed size. -/
def latBaseWrite (s : State) (pier q eff : Nat) : State :=
  let n := fget eff LAT_Q_BASE.LOG2_SIZE
  if s.bit .LAT_Q_CTL [pier, q] LAT_Q_CTL.EN ∨ n < 4 ∨ 12 < n then discardReg s .LAT_Q_BASE [pier, q]
  else s.plain .LAT_Q_BASE [pier, q] eff

/-- A write of LAT_Q_CTL (R231). Setting EN starts the queue afresh (assumption 28). -/
def latCtlWrite (s : State) (pier q eff : Nat) : State :=
  let ix := [pier, q]
  let was := s.bit .LAT_Q_CTL ix LAT_Q_CTL.DISABLE
  let en := s.bit .LAT_Q_CTL ix LAT_Q_CTL.EN
  let s := s.plain .LAT_Q_CTL ix eff
  let dis := s.bit .LAT_Q_CTL ix LAT_Q_CTL.DISABLE
  let x := s.latQ pier q
  let fresh := !en && s.bit .LAT_Q_CTL ix LAT_Q_CTL.EN
  let x := if fresh then { x with tail := 0, posted := 0, started := 0, tries := 0, cut := none } else x
  let s := if fresh then
    { s with stay := { s.stay with cuts := s.stay.cuts.filter (fun c => c.2.1 != 16 * pier + q) } } else s
  let x : LatQ := if dis && !was then
      { x with
        cut := some x.posted
        run := if s.bit .LAT_Q_CTL ix LAT_Q_CTL.ABORT_EN then
          x.run.map (fun (r : LatRun) => { r with stat := statFold r.stat 0x01, fin := true }) else x.run }
    else if !dis then { x with cut := none }
    else x
  s.setLatQ pier q x

/-- LAT_Q_DISABLE. -/
def execLatQDisable (pier q : Nat) (w : BitVec 64) (s : State) : Host.Outcome State Fault Refusal :=
  whenLive s (if pier < s.asm.piers ∧ q < 16 then latCtlWrite s pier q (fput w.toNat LAT_Q_CTL.DISABLE 1) else s)

/-! Descriptors. -/

/-- Bits [hi:lo] of word w of a descriptor. -/
def dW (ws : List (BitVec 64)) (w hi lo : Nat) : Nat := bitsOf (ws.getD w 0).toNat hi lo

/-- The checks of R223 that need no registration. -/
def latDescOk (ws : List (BitVec 64)) : Bool :=
  let k := dW ws 0 7 0
  (k == 1 || k == 2 || k == 3) && decide (dW ws 0 9 8 ≤ 2) &&
  (dW ws 0 13 10 == 1 || dW ws 0 13 10 == 3 || dW ws 0 13 10 == 14) &&
  dW ws 0 39 39 == 0 && dW ws 0 47 47 == 0 && dW ws 1 63 56 == 0 &&
  dW ws 2 63 42 == 0 && dW ws 3 63 42 == 0 && dW ws 4 63 42 == 0 && dW ws 5 63 42 == 0 &&
  dW ws 6 63 33 == 0 && dW ws 7 63 0 == 0 &&
  (if k == 1 then dW ws 1 31 0 % 256 == 0
   else dW ws 1 47 32 % 16 == 0 && decide (16 ≤ dW ws 1 47 32) && decide (dW ws 1 47 32 ≤ 32768))

/-- The valid registration of a COLL_ID. -/
def collById (s : State) (cid : Nat) : Option Nat :=
  (List.range 64).find? (fun n => collValid s n && s.fld .KST_COLL_ID [n] KST_COLL_ID.COLL_ID == cid)

/-- The slot at the head of a queue: its words, or `none` inside when it cannot be read. -/
def latHead (s : State) (pier q : Nat) (ext : Ext) : Option (State × Option (List (BitVec 64))) :=
  let x := s.latQ pier q
  let ctx := s.fld .LAT_Q_CTL [pier, q] LAT_Q_CTL.CTX_ID
  let a := s.fld .LAT_Q_BASE [pier, q] LAT_Q_BASE.BASE * 64 + x.started % latSize s pier q * 64
  match engRead s ctx (unitLat pier) false a 64 ext with
  | none => none
  | some (s, bs, pz, st) =>
    if st ≠ 0 ∨ pz.any id then some (s, none)
    else some (s, some ((List.range 8).map (fun i => BitVec.ofNat 64 (leNat ((bs.drop (8 * i)).take 8)))))

/-- The SEQ a slot must carry (R222). -/
def latSeqOk (x : LatQ) (ws : List (BitVec 64)) : Bool := dW ws 0 63 56 == x.started % 256

/-- Whether the head may be taken up: enabled, posted and nothing running, and the engine has its power (R411). -/
def latReady (s : State) (pier q : Nat) : Bool :=
  let x := s.latQ pier q
  decide (pier < s.asm.piers) && decide (q < 16) && x.run.isNone && decide (x.started < x.posted) &&
  s.bit .LAT_Q_CTL [pier, q] LAT_Q_CTL.EN && !hostGone s && (s.fld .KST_PD_CTL [] KST_PD_CTL.PIER_PD_ON >>> (2 * pier)) % 2 == 1

/-- The status with which the head completes without starting (R15, R215, R223, R231), or none when it starts. -/
def latVerdict (s : State) (pier q : Nat) (ws : List (BitVec 64)) : Option Nat :=
  let x := s.latQ pier q
  let cid := latCollId ws
  match x.cut with
  | some c => some (if x.started < c then 0x01 else 0x09)
  | none =>
    if s.stay.cuts.any (fun c => c.1 == cid && c.2.1 == 16 * pier + q && decide (x.started < c.2.2)) then some 0x01
    else if !latDescOk ws then some 0x0E
    else match collById s cid with
      | none => some 0x0E
      | some n =>
        let sig := dW ws 6 31 0
        if s.fld .KST_COLL_ID [n] KST_COLL_ID.CTX_ID ≠ s.fld .LAT_Q_CTL [pier, q] LAT_Q_CTL.CTX_ID then some 0x0E
        else if dW ws 6 32 32 = 1 ∧
            ¬ (sig < 65536 ∧ winCovers (s.rd .KST_COLL_WIN [n]) (bitsOf sig 15 12) (bitsOf sig 11 0)) then some 0x0E
        else if s.bit .KST_COLL_ID [n] KST_COLL_ID.FAILED then some 0x03
        else none

/-- The completion word written and the queue moved on (R224): `none` = the write must wait. -/
def latFinish (s : State) (pier q : Nat) (ws : List (BitVec 64)) (slot status dropped : Nat) (ext : Ext) :
    Option State :=
  let ctx := s.fld .LAT_Q_CTL [pier, q] LAT_Q_CTL.CTX_ID
  let w := status + slot * 2 ^ 16 + min dropped (2 ^ 32 - 1) * 2 ^ 32
  (engWrite s ctx (unitLat pier) false false (dW ws 5 41 0) (leBytes 8 w) [] ext).map (·.1)

/-- Whether SIG may be signalled for a descriptor that never started: every check of R223 holds for it. -/
def latSigOk (s : State) (ws : List (BitVec 64)) : Bool :=
  latDescOk ws && dW ws 6 32 32 == 1 && decide (dW ws 6 31 0 < 65536) &&
  (match collById s (latCollId ws) with
   | some n => winCovers (s.rd .KST_COLL_WIN [n]) (dW ws 6 15 12) (dW ws 6 11 0)
   | none => false)

/-- The head completed without a start; one that completes with PERMISSION signals nothing. -/
def latSkip (s : State) (pier q : Nat) (ws : List (BitVec 64)) (status : Nat) (ext : Ext) : Option State :=
  let x := s.latQ pier q
  (latFinish s pier q ws (x.started % latSize s pier q) status 0 ext).map (fun s =>
    let s := if latSigOk s ws && status != 0x0E then
      sigAdd s (dW ws 6 15 12) (dW ws 6 11 0) else s
    s.setLatQ pier q { x with started := x.started + 1, tries := 0 })

/-- LAT_SEQ_REREAD (R222): the slot is read again, 8 times at most, and then completes with STALE_COMMAND. A slot that
cannot be read is passed over in the same way, without a completion word. -/
def execLatSeqReread (pier q : Nat) (ext : Ext) (s : State) : Host.Outcome State Fault Refusal :=
  whenLive s (
    if !latReady s pier q then s
    else match latHead s pier q ext with
      | none => s
      | some (s, ws) =>
        let x := s.latQ pier q
        let bad := match ws with
          | some ws => !latSeqOk x ws
          | none => true
        if !bad || x.cut.isSome && ws.isSome then s
        else if x.tries + 1 < 8 then s.setLatQ pier q { x with tries := x.tries + 1 }
        else match ws with
          | some ws => (latSkip s pier q ws 0x06 ext).getD s
          | none => s.setLatQ pier q { x with started := x.started + 1, tries := 0 })

/-- RUN of a COLL_ID's registration. -/
def collRun (s : State) (cid : Nat) (up : Bool) : State :=
  match collById s cid with
  | none => s
  | some n =>
    let r := s.fld .KST_COLL_ID [n] KST_COLL_ID.RUN
    collRunZero (s.setFld .KST_COLL_ID [n] KST_COLL_ID.RUN (if up then r + 1 else r - 1)) n

/-- The head started as a descriptor of a kind: the state with it running, or none when this is not what comes next. -/
def latStart (s : State) (pier q kind : Nat) (ext : Ext) : Option (State × LatRun × Nat) :=
  if !latReady s pier q then none
  else match latHead s pier q ext with
    | some (s, some ws) =>
      let x := s.latQ pier q
      if (latVerdict s pier q ws).isSome || !latSeqOk x ws || dW ws 0 7 0 != kind then none
      else match collById s (latCollId ws) with
        | none => none
        | some n =>
          let r : LatRun := ⟨ws, x.started % latSize s pier q, [], [], [], 0, 0, false⟩
          let s := s.setLatQ pier q { x with started := x.started + 1, tries := 0, run := some r }
          let s := collRun s (latCollId ws) true
          some (if dW ws 0 15 15 = 1 then collActivate s n else s, r, n)
    | _ => none

/-! Reductions (R225 to R228). -/

/-- One level of the pairwise tree: an odd input is carried on. -/
def pairLevel {α : Type} (f : α → α → α × FFlags) : List α → List α × FFlags
  | a :: b :: r =>
    let (c, fl) := f a b
    let (l, gl) := pairLevel f r
    (c :: l, fl.or gl)
  | l => (l, .none)

/-- The pairwise tree of R226: 3 levels reach the root of at most 7 inputs. -/
def pairTree {α : Type} (f : α → α → α × FFlags) (l : List α) : List α × FFlags :=
  let (a, f1) := pairLevel f l
  let (b, f2) := pairLevel f a
  let (c, f3) := pairLevel f b
  (c, (f1.or f2).or f3)

/-- FP32, the format of every float sum. -/
def fp32 : FFmt := (floatFmt 1 0).getD ⟨8, 23, 127, 2, true⟩

/-- One combination of two FP32 values. -/
def latFloat (op : Nat) (a b : FVal) : FVal × FFlags :=
  if op = 0 then
    let (v, inv) := a.add b
    let (code, fl) := fp32.encodeArith true v
    (fp32.decode code, fl.or ⟨false, false, inv⟩)
  else
    let (v, inv) := fminmax (op == 1) a b
    (v, ⟨false, false, inv⟩)

/-- One combination of two INT32 values. -/
def latInt (op : Nat) (a b : Int) : Int × FFlags :=
  if op = 0 then
    let (w, fl) := satInt32 (a + b)
    (signedOf w 32, fl)
  else if op = 1 then (max a b, .none)
  else (min a b, .none)

/-- One element: the inputs' codes in ascending bit order of IN_MASK; `none` for no input. A BF16 input is the upper half
of an FP32 code, which FP32 reads (R68, R226). -/
def latElem (fmt op : Nat) (xs : List Nat) : Option (Nat × FFlags) :=
  if fmt = 14 then
    match pairTree (latInt op) (xs.map (fun w => signedOf w 32)) with
    | (v :: _, fl) => some ((v % 4294967296).toNat, fl)
    | _ => none
  else
    let f := (floatFmt fmt 0).getD fp32
    match pairTree (latFloat op) (xs.map (fun w => fp32.decode (if fmt = 3 then w * 65536 else w))) with
    | (v :: _, fl) => let e := f.encode true false v ⟨0, 0⟩; some (e.code, fl.or e.flags)
    | _ => none

/-- One block of 256 bytes: the inputs' bytes combined element by element. -/
def latCombine (fmt op : Nat) (ins : List (List (BitVec 8))) : List (BitVec 8) × FFlags :=
  let w := if fmt = 3 then 2 else 4
  (List.range (256 / w)).foldl (fun (acc : List (BitVec 8) × FFlags) i =>
    match latElem fmt op (ins.map (fun l => leNat ((l.drop (i * w)).take w))) with
    | some (c, fl) => (acc.1 ++ leBytes w c, acc.2.or fl)
    | none => acc) ([], .none)

/-- Bytes without an input: nothing is stated, so they are free (assumption 29). -/
def freeBytes (s : State) (n : Nat) : List (BitVec 8) × State :=
  ((List.range n).map (fun i => (Config.freeValue (s.freeCtr + i)).extractLsb' 0 8), { s with freeCtr := s.freeCtr + n })

/-- The context of a registration. -/
def collCtx (s : State) (n : Nat) : Nat := s.fld .KST_COLL_ID [n] KST_COLL_ID.CTX_ID

/-- A frame on its way out of a port. -/
def latSendFrame (s : State) (pier port coll step off : Nat) (bs : List (BitVec 8)) (poison : Bool) : State :=
  s.sendOn (6 * pier + port) 2 (.latFrame (6 * pier + port) 0 ([coll, step, off, b2n poison] ++ bs.map (·.toNat)))

/-- The link ports that a REDUCE sends to. -/
def latOuts (r : LatRun) : List Nat := (List.range 6).filter (fun p => (dW r.words 0 46 40 >>> (p + 1)) % 2 = 1)

/-- The module at the other end of a port, if known. -/
def latPortMod (s : State) (pier port : Nat) : Option Nat :=
  let l := [pier, port]
  if s.bit .CLX_LINK_STAT l CLX_LINK_STAT.PEER_VALID then some (s.fld .CLX_LINK_STAT l CLX_LINK_STAT.PEER_MOD) else none

/-- A port toward a module marked lost, to which nothing is sent (R250). -/
def latPortLost (s : State) (pier port : Nat) : Bool :=
  match latPortMod s pier port with
  | some m => peerLost s m
  | none => false

/-- The outputs of one block (R225 to R227) when every input is there and nothing must wait. -/
def latBlock (s : State) (pier : Nat) (r : LatRun) (off : Nat) (ext : Ext) : Option (State × LatRun) :=
  if r.fin || r.made.contains off || dW r.words 1 31 0 ≤ off then none
  else match collById s (latCollId r.words) with
    | none => none
    | some n =>
      let ctx := collCtx s n
      let ports := (List.range 6).filter (fun p => (dW r.words 0 38 32 >>> (p + 1)) % 2 = 1)
      let fr := ports.map (fun p => r.frames.find? (fun f => f.port == p && f.off == off))
      if fr.any (·.isNone) then none
      else
        let fr := fr.filterMap id
        let src := dW r.words 2 41 0 + off
        let loc := dW r.words 0 38 32 % 2 = 1
        match (if loc then engRead s ctx (unitLat pier) false src 256 ext else some (s, [], [], 0)) with
        | none => none
        | some (s, bs, pz, st) =>
          if st ≠ 0 then some (s, { r with stat := statFold r.stat st, made := off :: r.made })
          else
            let ins := (if loc then [bs] else []) ++ fr.map (·.data)
            let (out, fl) := latCombine (dW r.words 0 13 10) (dW r.words 0 9 8) ins
            let (out, s) := if ins.isEmpty then freeBytes s 256 else (out, s)
            let bad := fr.any (·.poison)
            let pzs := (List.range 256).map (fun i => bad || ((pz.drop (i / 128 * 128)).take 128).any id)
            let s := s.wr .LAT_FLAGS [pier] (s.rd .LAT_FLAGS [pier] ||| (b2n fl.ovf + 2 * b2n fl.unf + 4 * b2n fl.inv))
            let st := statFold (if pzs.any id then 0x04 else 0)
              (if fl.ovf && dW r.words 0 14 14 == 1 then 0x0D else 0)
            let outs := latOuts r
            let st := if outs.any (latPortLost s pier) then statFold st 0x03 else st
            let r := { r with stat := statFold r.stat st, made := off :: r.made
                              frames := r.frames.filter (fun f => f.off != off) }
            let s := (outs.filter (fun p => !latPortLost s pier p)).foldl (fun s p =>
              latSendFrame s pier p (latCollId r.words) (dW r.words 1 55 48) off out (pzs.any id)) s
            if dW r.words 0 46 40 % 2 = 1 then
              (engWrite s ctx (unitLat pier) false true (dW r.words 3 41 0 + off) out pzs ext).map (fun q =>
                (q.1, { r with stat := statFold r.stat q.2 }))
            else some (s, r)

/-- Every block that can be produced now is produced. -/
def latBlocks (s : State) (pier q : Nat) (offs : List Nat) (ext : Ext) : State :=
  offs.foldl (fun s off =>
    match (s.latQ pier q).run with
    | none => s
    | some r =>
      match latBlock s pier r off ext with
      | none => s
      | some (s, r) => s.setLatQ pier q { s.latQ pier q with run := some r }) s

/-- Offsets of the blocks of a REDUCE. -/
def latOffs (r : LatRun) : List Nat := (List.range (dW r.words 1 31 0 / 256)).map (· * 256)

/-- Whether a staged or arriving frame belongs to a running REDUCE. -/
def latMatches (r : LatRun) (f : LatFrame) : Bool :=
  dW r.words 0 7 0 == 1 && latCollId r.words == f.coll && dW r.words 0 55 48 == f.step &&
  (dW r.words 0 38 32 >>> (f.port + 1)) % 2 == 1

/-- REDUCE: the head starts, takes up the frames staged for it and produces what it can; a running one goes on with
blocks that had to wait. -/
def execReduce (pier q : Nat) (ext : Ext) (s : State) : Host.Outcome State Fault Refusal :=
  whenLive s (
    match (s.latQ pier q).run with
    | some r => if dW r.words 0 7 0 = 1 then latBlocks s pier q (latOffs r) ext else s
    | none =>
      match latStart s pier q 1 ext with
      | none => s
      | some (s, r, _) =>
        let hit (p : Nat × LatFrame) : Bool := p.1 == pier && latMatches r p.2
        let r := { r with frames := (s.lat.staged.filter hit).map (·.2) }
        let s := { s with lat := { s.lat with staged := s.lat.staged.filter (fun p => !hit p) } }
        latBlocks (s.setLatQ pier q { s.latQ pier q with run := some r }) pier q (latOffs r) ext)

/-- A frame refused or discarded, counted. -/
def latRefused (s : State) (pier : Nat) : State := s.satInc .LAT_STAT [pier] LAT_STAT.REFUSED 1

/-- LAT_FRAME (R215, R225): a frame of 256 bytes for an offset arrives on a port of a Pier from module m; kinds 1 and
2 of the answer: refused, accepted. A full staging buffer of 8 MiB holds every frame back. -/
def execLatFrame (pier port m coll step off : Nat) (data : BitVec 2048) (poison : Bool) (ext : Ext) (s : State) :
    Host.Outcome State Fault Refusal :=
  whenLive s (
    if s.asm.piers ≤ pier ∨ 6 ≤ port ∨ 32768 ≤ (s.lat.staged.filter (fun p => p.1 == pier)).length then s
    else
      let f : LatFrame := ⟨port, coll, step, off, (List.range 256).map (fun i => data.extractLsb' (8 * i) 8), poison⟩
      let answer (s : State) (k : Nat) : State := s.sendOn (6 * pier + port) 1 (.latFrame (6 * pier + port) k [coll, step, off])
      match collById s coll with
      | none => answer (latRefused s pier) 1
      | some n =>
        if s.bit .KST_COLL_ID [n] KST_COLL_ID.FAILED then
          record (latRefused s pier) ⟨unitPier pier 0x0A, 0, 0x0F, 0x03, none, 0, 0xFFFC⟩
        else if !collMember s n m then answer (latRefused s pier) 1
        else match (List.range 16).find? (fun q =>
            match (s.latQ pier q).run with
            | some r => latMatches r f && !r.fin
            | none => false) with
          | some q =>
            match (s.latQ pier q).run with
            | some r =>
              let s := s.setLatQ pier q { s.latQ pier q with run := some { r with frames := r.frames ++ [f] } }
              latBlocks (answer s 2) pier q [off] ext
            | none => s
          | none => answer { s with lat := { s.lat with staged := s.lat.staged ++ [(pier, f)] } } 2)

/-- LAT_PORT_TIMEOUT (R227): the frames of a contributing port have stopped. -/
def execLatPortTimeout (pier q port : Nat) (s : State) : Host.Outcome State Fault Refusal :=
  whenLive s (
    match (s.latQ pier q).run with
    | none => s
    | some r =>
      if dW r.words 0 7 0 = 1 ∧ (dW r.words 0 38 32 >>> (port + 1)) % 2 = 1 ∧ port < 6 ∧
          (latOffs r).any (fun o => !r.made.contains o && !r.frames.any (fun f => f.port == port && f.off == o)) then
        let s := s.setLatQ pier q { s.latQ pier q with
          run := some { r with stat := statFold r.stat 0x03, fin := true } }
        match latPortMod s pier port with
        | some m => autoFail s m
        | none => s
      else s)

/-! Rows (R229, R230). -/

/-- What a target makes of a row: a refusal, nothing at all, a drop, or its address, context and signal. -/
inductive RowR
  | refuse
  | gone
  | drop
  | at_ (a ctx : Nat) (sig : Option (Nat × Nat))
deriving DecidableEq, Repr

/-- The place of row `row` of buffer `buf` for a sender. -/
def rowAt (s : State) (pier m coll buf row : Nat) (ext : Ext) : Option (State × RowR) :=
  match collById s coll with
  | none => some (latRefused s pier, .refuse)
  | some n =>
    if s.bit .KST_COLL_ID [n] KST_COLL_ID.FAILED then
      some (record (latRefused s pier) ⟨unitPier pier 0x0A, 0, 0x0F, 0x03, none, 0, 0xFFFC⟩, .gone)
    else if !collMember s n m then some (latRefused s pier, .refuse)
    else if s.fld .KST_COLL_BUF [n] KST_COLL_BUF.BUF_COUNT ≤ buf then some (s, .drop)
    else match engRead s (collCtx s n) (unitLat pier) false (s.fld .KST_COLL_BUF [n] KST_COLL_BUF.BUF_BASE * 16 + buf * 16) 16 ext with
      | none => none
      | some (s, bs, pz, st) =>
        if st ≠ 0 ∨ pz.any id then some (latRefused s pier, .refuse)
        else
          let w0 := leNat (bs.take 8)
          let w1 := leNat (bs.drop 8)
          if bitsOf w1 19 0 ≤ row then some (s, .drop)
          else some (s, .at_ (bitsOf w0 41 0 + row * bitsOf w1 39 20) (collCtx s n)
            (if bitsOf w1 40 40 = 1 then some (bitsOf w1 56 53, bitsOf w1 52 41) else none))

/-- A drop at a Pier as target (R230): beyond CAP or the buffer table, or refused under R53. -/
def rowDrop (s : State) (pier : Nat) : State := s.satInc .LAT_STAT [pier] LAT_STAT.DROP_CNT 1

/-- A scattered row at its target: a status and whether it was dropped; no status where nothing answers. -/
def rowScatter (s : State) (pier m coll buf row : Nat) (bs : List (BitVec 8)) (poison : Bool) (ext : Ext) :
    Option (State × Option (Nat × Bool)) :=
  match rowAt s pier m coll buf row ext with
  | none => none
  | some (s, .refuse) => some (s, some (0x0E, false))
  | some (s, .gone) => some (s, none)
  | some (s, .drop) => some (rowDrop s pier, some (0, true))
  | some (s, .at_ a ctx sig) =>
    match engWrite s ctx (unitLat pier) (m != actId s) true a bs (List.replicate bs.length poison) ext with
    | none => none
    | some (s, st) =>
      if st = 0 then
        some (match sig with
          | some (h, i) => sigAdd s h i
          | none => s, some (0, false))
      else some (if st = 0x0E then rowDrop s pier else s, some (st, st == 0x0E))

/-- A row fetched at its target. -/
def rowFetch (s : State) (pier m coll buf row n : Nat) (ext : Ext) :
    Option (State × Option (Nat × Bool × List (BitVec 8) × Bool)) :=
  match rowAt s pier m coll buf row ext with
  | none => none
  | some (s, .refuse) => some (s, some (0x0E, false, [], false))
  | some (s, .gone) => some (s, none)
  | some (s, .drop) => some (rowDrop s pier, some (0, true, [], false))
  | some (s, .at_ a ctx _) =>
    match engRead s ctx (unitLat pier) (m != actId s) a n ext with
    | none => none
    | some (s, bs, pz, st) =>
      some (if st = 0x0E then rowDrop s pier else s, some (st, st == 0x0E, bs, pz.any id))

/-- Fields of an index entry. -/
def ieMod (w : Nat) : Nat := bitsOf w 14 0
/-- SKIP. -/
def ieSkip (w : Nat) : Bool := bitsOf w 15 15 == 1
/-- BUF. -/
def ieBuf (w : Nat) : Nat := bitsOf w 23 16
/-- ROW. -/
def ieRow (w : Nat) : Nat := bitsOf w 43 24
/-- LROW. -/
def ieLrow (w : Nat) : Nat := bitsOf w 63 44

/-- The mark of an entry whose local row a later entry has written already (R229): its data is not written. -/
def rowPast (k : Nat) : Nat := k % 2 ^ 67 + 2 ^ 67
/-- Whether an awaited entry still has its local row to write. -/
def rowLive (k lrow : Nat) : Bool := decide (k < 2 ^ 67) && k % 2 ^ 20 == lrow

/-- The way of an index row or a request to a module (R404, R406): a status, or the link of its bucket; the outer `none`
is a row that waits while its bucket moves. -/
def rowLink (s : State) (m k : Nat) : Option (Nat × Nat × State) :=
  match peerRoute s m with
  | (0, s) => (peerLink s m (rowBucket k)).map (fun p => (0, p.1, p.2))
  | (st, s) => some (st, 0, s)

/-- The answer to a row or a request, on the RSP channel of an eligible link of this Pier; which of several is a free
choice (DESIGN CHOICE, log 160). It is lost where none is left. -/
def rowBack (s : State) (pier m k : Nat) (args : List Nat) : State :=
  match (List.range 6).filter (fun i => linkFor s m (6 * pier + i)) with
  | [] => s
  | l =>
    let (i, s) := s.freeNat l.length
    s.sendOn (6 * pier + l.getD i 0) 1 (.latFrame (6 * pier + l.getD i 0) k (m :: args))

/-- A row that its route refuses (R404): one without a route fails as an undecoded access, logged for the engine. -/
def rowNo (s : State) (pier st : Nat) : State := if st = 0x0E then logDiscard s 0 (unitLat pier) else s

/-- A status folded into a run. -/
def LatRun.fold (r : LatRun) (st : Nat) : LatRun := { r with stat := statFold r.stat st }

/-- A fetched row written to its local place. Entries before it that are still awaited write that row no more. -/
def rowLand (s : State) (pier : Nat) (r : LatRun) (ctx lrow : Nat) (bs : List (BitVec 8)) (poison : Bool) (ext : Ext) :
    Option (State × LatRun) :=
  (engWrite s ctx (unitLat pier) false true (dW r.words 3 41 0 + lrow * dW r.words 1 47 32) bs
    (List.replicate bs.length poison) ext).map (fun q =>
      (q.1, { (r.fold q.2).fold (if poison then 0x04 else 0) with
        rows := r.rows.map (fun k => if rowLive k lrow then rowPast k else k) }))

/-- One index entry: ignored, refused, done here, or sent. Messages of kind 3 carry a row, of kind 4 a request. -/
def rowEntry (s : State) (pier q n : Nat) (r : LatRun) (i w : Nat) (ext : Ext) : Option (State × LatRun) :=
  let ctx := collCtx s n
  let coll := latCollId r.words
  let rb := dW r.words 1 47 32
  let m := ieMod w
  if ieSkip w then some (s, r)
  else if !collMember s n m then some (s, r.fold 0x0E)
  else if dW r.words 0 7 0 = 2 then
    match engRead s ctx (unitLat pier) false (dW r.words 2 41 0 + ieLrow w * rb) rb ext with
    | none => none
    | some (s, bs, pz, st) =>
      if st ≠ 0 then some (s, r.fold st)
      else
        let bad := pz.any id
        let r := r.fold (if bad then 0x04 else 0)
        if m = actId s then
          (rowScatter s pier m coll (ieBuf w) (ieRow w) bs bad ext).map (fun x =>
            match x.2 with
            | some (st, dr) => (x.1, { r.fold st with dropped := r.dropped + b2n dr })
            | none => (x.1, r.fold 0x03))
        else match rowLink s m (rowKey i m (ieLrow w)) with
          | none => none
          | some (0, l, s) =>
            some (s.sendOn l 0
                (.latFrame l 3 ([m, coll, ieBuf w, ieRow w, q * 2 ^ 32 + i, b2n bad] ++ bs.map (·.toNat))),
              { r with rows := r.rows ++ [rowKey i m (ieLrow w)] })
          | some (st, _, s) => some (rowNo s pier st, r.fold st)
  else if m = actId s then
    match rowFetch s pier m coll (ieBuf w) (ieRow w) rb ext with
    | none => none
    | some (s, none) => some (s, r.fold 0x03)
    | some (s, some (st, dr, bs, bad)) =>
      if st ≠ 0 ∨ dr then some (s, { r.fold st with dropped := r.dropped + b2n dr })
      else rowLand s pier r ctx (ieLrow w) bs bad ext
  else match rowLink s m (rowKey i m (ieLrow w)) with
    | none => none
    | some (0, l, s) =>
      some (s.sendOn l 0 (.latFrame l 4 [m, coll, ieBuf w, ieRow w, q * 2 ^ 32 + i, rb]),
        { r with rows := r.rows ++ [rowKey i m (ieLrow w)] })
    | some (st, _, s) => some (rowNo s pier st, r.fold st)

/-- Index entries in order. -/
def rowEntries (s : State) (pier q n : Nat) (r : LatRun) (i : Nat) (ws : List Nat) (ext : Ext) :
    Option (State × LatRun) :=
  match ws with
  | [] => some (s, r)
  | w :: rest =>
    match rowEntry s pier q n r i w ext with
    | none => none
    | some (s, r) => rowEntries s pier q n r (i + 1) rest ext

/-- Words of 8 bytes. -/
def words8 (bs : List (BitVec 8)) : List Nat := (List.range (bs.length / 8)).map (fun i => leNat ((bs.drop (8 * i)).take 8))

/-- An index kind starts: its table is read and its entries are taken in order. Nothing happens while an access must
wait. -/
def rowKind (kind pier q : Nat) (ext : Ext) (s0 : State) : State :=
  match latStart s0 pier q kind ext with
  | none => s0
  | some (s, r, n) =>
    match engRead s (collCtx s n) (unitLat pier) false (dW r.words 4 41 0) (dW r.words 1 31 0 * 8) ext with
    | none => s0
    | some (s, bs, pz, st) =>
      let done (s : State) (r : LatRun) : State := s.setLatQ pier q { s.latQ pier q with run := some r }
      if st ≠ 0 then done s (r.fold st)
      else
        match rowEntries s pier q n (r.fold (if pz.any id then 0x04 else 0)) 0
            (if pz.any id then [] else words8 bs) ext with
        | none => s0
        | some (s, r) => done s r

/-- ISCATTER. -/
def execIscatter (pier q : Nat) (ext : Ext) (s : State) : Host.Outcome State Fault Refusal :=
  whenLive s (rowKind 2 pier q ext s)

/-- IGATHER. -/
def execIgather (pier q : Nat) (ext : Ext) (s : State) : Host.Outcome State Fault Refusal :=
  whenLive s (rowKind 3 pier q ext s)

/-- The awaited entry of a run. The answer to one whose local row an earlier entry has still to write is kept back, so
that the later entry's data remains (R229). -/
def rowAwaited (r : LatRun) (i : Nat) : Option Nat :=
  match r.rows.find? (fun k => rowIdx k == i) with
  | none => none
  | some k =>
    if k < 2 ^ 67 ∧ r.rows.any (fun j => decide (rowIdx j < i) && rowLive j (k % 2 ^ 20)) then none else some k

/-- The answer to an entry folded into its descriptor. UNREACHABLE is a row that has reached its timeout (R215, R250;
DEDUCED, log 153). -/
def rowAnswer (s : State) (pier q i status : Nat) (drop : Bool) (data : Option (List (BitVec 8) × Bool)) (ext : Ext) :
    State :=
  match (s.latQ pier q).run with
  | none => s
  | some r =>
    match rowAwaited r i with
    | none => s
    | some k =>
      let r' : LatRun := { r.fold status with rows := r.rows.filter (· != k), dropped := r.dropped + b2n drop }
      let done (s : State) (r : LatRun) : State :=
        let s := s.setLatQ pier q { s.latQ pier q with run := some r }
        if status = 0x03 then lostPeer s (rowMod k) else s
      match data, collById s (latCollId r.words) with
      | some (bs, bad), some n =>
        if status ≠ 0 ∨ drop ∨ r.fin ∨ 2 ^ 67 ≤ k then done s r'
        else match rowLand s pier r' (collCtx s n) (k % 2 ^ 20) (bs.take (dW r.words 1 47 32)) bad ext with
          | none => s
          | some (s, r) => done s r
      | _, _ => done s r'

/-- LAT_ROW_ARRIVAL: a row or a request at its target, answered by kinds 5 (with data) and 6, or an answer at its
initiator. -/
def execLatRowArrival (pier : Nat) (r : LatRow) (ext : Ext) (s : State) : Host.Outcome State Fault Refusal :=
  let back (s : State) (m k : Nat) (args : List Nat) : State := rowBack s pier m k args
  whenPeer s
    (if s.asm.piers ≤ pier then s
      else match r with
        | .scatter m _ _ _ id _ _ => back s m 6 [id, 0x03, 0]
        | .request m _ _ _ id _ => back s m 5 [id, 0x03, 0, 0]
        | _ => s)
    (if s.asm.piers ≤ pier then s
      else match r with
        | .scatter m coll buf row id data poison =>
          match rowScatter s pier m coll buf row data poison ext with
          | none => s
          | some (s, none) => s
          | some (s, some (st, dr)) => back s m 6 [id, st, b2n dr]
        | .request m coll buf row id n =>
          match rowFetch s pier m coll buf row n ext with
          | none => s
          | some (s, none) => s
          | some (s, some (st, dr, bs, bad)) => back s m 5 ([id, st, b2n dr, b2n bad] ++ bs.map (·.toNat))
        | .done q i st dr => if q < 16 then rowAnswer s pier q i st dr none ext else s
        | .answer q i st dr bs bad => if q < 16 then rowAnswer s pier q i st dr (some (bs, bad)) ext else s)

/-! Completion. -/

/-- Whether a running descriptor has done all it will do. -/
def latDone (r : LatRun) : Bool :=
  r.fin || (if dW r.words 0 7 0 = 1 then (latOffs r).all (fun o => r.made.contains o) else r.rows.isEmpty)

/-- A frame of a REDUCE has reached its timeout: the module it was for, one of those at its output ports (which is a free
choice), is lost. -/
def latFrameLost (s : State) (pier : Nat) (r : LatRun) : State :=
  match (latOuts r).filterMap (latPortMod s pier) with
  | [] => s
  | l => let (i, s) := s.freeNat l.length; lostPeer s (l.getD i 0)

/-- LAT_DESC_COMPLETE (R224): `status` is what the receiving engines answered for its frames (0, or the first
applicable refusal or timeout). A head that never starts completes here too. -/
def execLatDescComplete (pier q status : Nat) (ext : Ext) (s : State) : Host.Outcome State Fault Refusal :=
  whenLive s (
    match (s.latQ pier q).run with
    | some r =>
      if !latDone r then s
      else match latFinish s pier q r.words r.slot (statFold r.stat (status % 16)) (if dW r.words 0 7 0 = 1 then 0 else r.dropped) ext with
        | none => s
        | some s =>
          let s := if dW r.words 6 32 32 = 1 then sigAdd s (dW r.words 6 15 12) (dW r.words 6 11 0) else s
          let s := collRun (s.setLatQ pier q { s.latQ pier q with run := none }) (latCollId r.words) false
          if status % 16 = 0x03 then latFrameLost s pier r else s
    | none =>
      if !latReady s pier q then s
      else match latHead s pier q ext with
        | some (s, some ws) =>
          match latVerdict s pier q ws with
          | some st => if (s.latQ pier q).cut.isSome || latSeqOk (s.latQ pier q) ws then (latSkip s pier q ws st ext).getD s else s
          | none => s
        | _ => s)

end Sys2Proof.Machine
end

