-- ==== Sys2Proof/Machine/Cache.lean ====
section
/-!
DEFINITION. Machine/Cache.lean: the Span cache beyond the protocol (chapter 11): the maintenance engine (R287 to
R293), disable and enable (R294 to R298) and the Skein ways (R282).
-/

namespace Sys2Proof.Machine

/-- Register index of a Span. -/
def spx (p : Nat) : List Nat := [p]

/-! Trestle as the cache sees it. -/

/-- Layers of a Span that have been released (R342): DONE divided by RELEASE_CNT. -/
def trReleased (s : State) (p : Nat) : Nat :=
  let sy := s.rd .TR_SYNC [p]
  (s.ctr p (fget sy TR_SYNC.DONE_IDX)).value.toNat / max 1 (fget sy TR_SYNC.RELEASE_CNT)

/-- BUSY of TR_Q_STAT: a layer is fetching, or has arrived and is not yet released. -/
def trBusy (s : State) (p : Nat) : Bool :=
  let x := s.trs p
  x.go && (!x.run.isEmpty || decide (trReleased s p < x.next))

/-! The maintenance engine. -/

/-- Whether the raw part [x, y) of a range, as raw offsets, is populated throughout (R289, R301). -/
def rawPopulated (s : State) (x y : Nat) : Bool :=
  let rsize := s.asm.stacks * gib2
  (List.range 33).all (fun k =>
    let lo := max x (k * rsize)
    let hi := min y (k * rsize + rsize)
    if hi ≤ lo then true
    else if 32 ≤ k then false
    else decide (hi ≤ k * rsize + (s.liveList k).length * gib2) && s.fld .HBM_REGION [k] HBM_REGION.STATE != 2) &&
  decide (y ≤ 33 * rsize)

/-- Whether a range of lines lies in the unified range, the populated raw HBM window and an enabled raw host window
(R289). -/
def maintRangeOk (s : State) (a n : Nat) : Bool :=
  let e := a + n * 128
  (decide (e ≤ 0x20000000000) || decide (0x30000000000 ≤ a) ||
    rawPopulated s (a - 0x20000000000) (min e 0x30000000000 - 0x20000000000)) &&
  (decide (e ≤ 0x30000000000) || (decide (e ≤ 0x38000000000) && s.bit .RAW_HOST_CFG [] RAW_HOST_CFG.EN))

/-- Whether a GO is refused (R289); CLEAN and CLEAN_INVAL need EN = 1 by the table of R287 (assumption 22). -/
def maintRefused (s : State) (p eff : Nat) : Bool :=
  let op := fget eff SPAN_CMAINT_CTL.OP
  let way := fget eff SPAN_CMAINT_CTL.TARGET == 1
  let all := fget eff SPAN_CMAINT_CTL.SCOPE == 1
  let en := s.bit .SPAN_CACHE_CTL [p] SPAN_CACHE_CTL.EN
  let n := s.rd .SPAN_CMAINT_LEN [p]
  op == 0 || (op == 2 && (en || all)) || (op != 2 && !en) ||
  (way && (all || fget eff SPAN_CMAINT_CTL.WAY_MASK == 0)) ||
  (!way && (n == 0 || !maintRangeOk s (s.fld .SPAN_CMAINT_ADDR [p] SPAN_CMAINT_ADDR.ADDR * 128) n)) ||
  (fget eff SPAN_CMAINT_CTL.SIG_EN == 1 && decide (8 < s.fld .SPAN_CMAINT_SIG [p] SPAN_CMAINT_SIG.HOME))

/-- A write of SPAN_CMAINT_CTL (R287 to R293). -/
def cmaintWrite (s : State) (p eff : Nat) : State :=
  let busy := s.bit .SPAN_CMAINT_STAT [p] SPAN_CMAINT_STAT.BUSY
  let go := fget eff SPAN_CMAINT_CTL.GO = 1
  if go ∧ busy then discardReg s .SPAN_CMAINT_CTL [p]
  else
    let s := s.plain .SPAN_CMAINT_CTL [p] eff
    if go then
      if maintRefused s p eff then
        let s := s.setFld .SPAN_CMAINT_STAT [p] SPAN_CMAINT_STAT.ERR 1
        let s := s.setFld .SPAN_CMAINT_STAT [p] SPAN_CMAINT_STAT.STATUS 0x0E
        discardReg s .SPAN_CMAINT_CTL [p]
      else
        let s := s.setFld .SPAN_CMAINT_STAT [p] SPAN_CMAINT_STAT.BUSY 1
        let s := s.setFld .SPAN_CMAINT_STAT [p] SPAN_CMAINT_STAT.PROGRESS 0
        let s := s.setFld .SPAN_CMAINT_STAT [p] SPAN_CMAINT_STAT.SKIP_CNT 0
        let r : MaintRec := {
          op := fget eff SPAN_CMAINT_CTL.OP, byWay := fget eff SPAN_CMAINT_CTL.TARGET == 1
          all := fget eff SPAN_CMAINT_CTL.SCOPE == 1, mask := fget eff SPAN_CMAINT_CTL.WAY_MASK
          addr := s.fld .SPAN_CMAINT_ADDR [p] SPAN_CMAINT_ADDR.ADDR * 128, len := s.rd .SPAN_CMAINT_LEN [p]
          skein := false, aborted := false, scanned := false, status := 0, pos := 0 }
        { s with mem := { s.mem with maint := mins s.mem.maint p r } }
    else if fget eff SPAN_CMAINT_CTL.ABORT = 1 ∧ busy then
      { s with mem := { s.mem with maint := s.mem.maint.map (fun (e : Nat × MaintRec) =>
          if e.1 = p then (e.1, { e.2 with aborted := true }) else e) } }
    else s

/-- One line of a Span cache examined by an operation (R287): a dirty one leaves through the buffer (R284), a clean one is
dropped or left. -/
def maintLine (s : State) (p op line : Nat) (c : CLine) : State :=
  if op = 2 then dropCopy s p line
  else if 3 ≤ c.st then
    match hitLine s p line with
    | (s, some c) => vebPush (dropCopy s p line) ⟨p, line, c.st, c.v, false, false, true⟩
    | (s, none) => s
  else if op = 3 then
    let s := dropCopy s p line
    if c.st = 2 then serveEvc s p line else s
  else s

/-- An ALL operation at the home of one line (R288). -/
def maintHome (s : State) (op line : Nat) : State :=
  if op = 3 then recallLine s line
  else match dirLook s line with
    | (s, none) => s
    | (s, some d) =>
      if d.st < 2 then s
      else
        let r := snoopDone s .snpx d.owner line
        let s := match r.fwd with
          | some v => memWrite r.s line v fullMask
          | none => r.s
        dirPut s line (dirSH d.sharers)

/-- The line a range address names, when it is resolved: `none` with a VALID = 0 page, or where nothing decodes. -/
def maintResolve (s : State) (a : Nat) : Option Nat :=
  if a < 0x20000000000 then
    let e := ptEntry s (a / 2097152)
    if !peValid e then none
    else if peLoc e then some (2 ^ 47 + (peFrame e * 2097152 + a % 2097152) / 128)
    else (rawResolve s (peFrame e * 2097152 + a % 2097152)).map (· / 128)
  else if a < 0x30000000000 then (rawResolve s (a - 0x20000000000)).map (· / 128)
  else some (2 ^ 47 + (s.fld .RAW_HOST_CFG [] RAW_HOST_CFG.BASE * 2 ^ 30 + (a - 0x30000000000)) / 128)

/-- What an operation selects from where it stands up to `n` sets or lines examined, in the order of the scan: the set or
line reached, and a line (R288). -/
def maintSel (s : State) (p : Nat) (r : MaintRec) (n : Nat) : List (Nat × Nat) :=
  if r.byWay then
    let l := (s.mem.lines.filter (fun e => e.1 / 2 ^ 48 == p && (r.mask >>> e.2.way) % 2 == 1)).map (fun e => e.1 % 2 ^ 48)
    let l := l.filter (fun l => decide (r.pos ≤ cacheIndex l) && decide (cacheIndex l < n))
    (l.foldl (fun m l => mins m (cacheIndex l * 2 ^ 48 + l) (cacheIndex l, l)) []).map (·.2)
  else (List.range (n - r.pos)).filterMap (fun i =>
    (maintResolve s (r.addr + (r.pos + i) * 128)).map (fun l => (r.pos + i, l)))

/-- Lines examined one after the other; it stops where the buffer is full, and says there (R290). -/
def maintScan (s : State) (p : Nat) (r : MaintRec) : List (Nat × Nat) → State × Option Nat
  | [] => (s, none)
  | (i, l) :: ls =>
    if r.all then maintScan (maintHome s r.op l) p r ls
    else match agentLine s p l with
      | none => maintScan s p r ls
      | some c =>
        if r.op ≠ 2 ∧ 3 ≤ c.st ∧ 512 ≤ vebLen s p then (s, some i) else maintScan (maintLine s p r.op l c) p r ls

/-- Pages without VALID that a range reaches between two points of its scan, each once (R288). -/
def maintSkips (s : State) (r : MaintRec) (lo hi : Nat) : Nat :=
  if r.byWay then 0
  else ((List.range (hi - lo)).filter (fun k =>
    let a := r.addr + (lo + k) * 128
    decide (a < 0x20000000000) && !peValid (ptEntry s (a / 2097152)) &&
      (lo + k == 0 || a / 2097152 != (a - 128) / 2097152))).length

/-- Whether what is selected can be examined: nothing is under way on it, no entry of the buffer holds it, and no home keeps
it in a hold. -/
def maintClear (s : State) (p : Nat) (r : MaintRec) (ls : List (Nat × Nat)) : Bool :=
  ls.all (fun e => !lineBusy s e.2 && (vebFind s p e.2).isNone && !(r.all && heldLine s e.2))

/-- Whether every WB that the operation of a Span caused has been accepted (R291). -/
def maintWritten (s : State) (p : Nat) : Bool := !s.mem.vebs.any (fun e => e.span == p && e.maint)

/-- The steps of R291 once an operation has ended. An increase of SKEIN_WAYS takes effect here, unless it was
aborted (R282), and sends no signal (assumption 23). -/
def maintEnd (s : State) (p : Nat) (r : MaintRec) (status : Nat) : State :=
  let ctl := s.rd .SPAN_CMAINT_CTL [p]
  let s := { s with mem := { s.mem with maint := mdel s.mem.maint p } }
  let s := if r.byWay ∧ r.op = 2 ∧ r.mask = 0xFFFF ∧ ¬ r.aborted ∧ ¬ s.bit .SPAN_CACHE_CTL [p] SPAN_CACHE_CTL.EN then
      s.setFld .SPAN_CACHE_STAT [p] SPAN_CACHE_STAT.INV_CLEAN 1 else s
  let s := if r.skein ∧ ¬ r.aborted then s.setFld .SPAN_CACHE_CTL [p] SPAN_CACHE_CTL.SKEIN_WAYS r.len else s
  let s := s.setFld .SPAN_CMAINT_STAT [p] SPAN_CMAINT_STAT.STATUS status
  let s := s.setFld .SPAN_CMAINT_STAT [p] SPAN_CMAINT_STAT.DONE 1
  let s := s.setFld .SPAN_CMAINT_STAT [p] SPAN_CMAINT_STAT.BUSY 0
  if r.skein then s
  else
    let s := if fget ctl SPAN_CMAINT_CTL.SIG_EN = 1 then
        sigAdd s (s.fld .SPAN_CMAINT_SIG [p] SPAN_CMAINT_SIG.HOME) (s.fld .SPAN_CMAINT_SIG [p] SPAN_CMAINT_SIG.INDEX)
      else s
    if fget ctl SPAN_CMAINT_CTL.INT_EN = 1 then s.send (.kmhIrq 3 1) else s

/-! SPAN_CACHE_CTL (R282, R294, R297). -/

/-- A write of SPAN_CACHE_CTL. A write that is refused for one field is discarded as a whole (assumption 24); one
that leaves SKEIN_WAYS as it is writes no SKEIN_WAYS. -/
def cacheCtlWrite (s : State) (p eff : Nat) : State :=
  let en := s.bit .SPAN_CACHE_CTL [p] SPAN_CACHE_CTL.EN
  let en1 := fget eff SPAN_CACHE_CTL.EN == 1
  let force := fget eff SPAN_CACHE_CTL.FORCE == 1
  let sw := s.fld .SPAN_CACHE_CTL [p] SPAN_CACHE_CTL.SKEIN_WAYS
  let sw1 := fget eff SPAN_CACHE_CTL.SKEIN_WAYS
  let busy := s.bit .SPAN_CMAINT_STAT [p] SPAN_CMAINT_STAT.BUSY
  let clean := s.bit .SPAN_CACHE_STAT [p] SPAN_CACHE_STAT.INV_CLEAN
  if (sw1 ≠ sw ∧ (11 < sw1 ∨ busy ∨ !(s.trs p).run.isEmpty ∨ !en)) ∨ (en1 && !en && !clean && !force) then
    discardReg s .SPAN_CACHE_CTL [p]
  else
    let s := if sw1 < sw then s.setFld .SPAN_CACHE_CTL [p] SPAN_CACHE_CTL.SKEIN_WAYS sw1
      else if sw < sw1 then
        let mask := ((List.range (sw1 - sw)).map (fun i => 2 ^ (16 - sw1 + i))).sum
        let s := s.setFld .SPAN_CMAINT_STAT [p] SPAN_CMAINT_STAT.BUSY 1
        let s := s.setFld .SPAN_CMAINT_STAT [p] SPAN_CMAINT_STAT.PROGRESS 0
        { s with mem := { s.mem with
            maint := mins s.mem.maint p ⟨3, true, false, mask, 0, sw1, true, false, false, 0, 0⟩ } }
      else s
    if en1 && !en then
      let s := s.setFld .SPAN_CACHE_CTL [p] SPAN_CACHE_CTL.EN 1
      if clean then s
      else recordAt (s.setFld .SPAN_CACHE_STAT [p] SPAN_CACHE_STAT.STALE_EN 1) (unitSpan p 0x50) 8 0x10 0 none
    else if !en1 then
      let s := s.setFld .SPAN_CACHE_STAT [p] SPAN_CACHE_STAT.INV_CLEAN 0
      if en then s.setFld .SPAN_CACHE_STAT [p] SPAN_CACHE_STAT.DIS_PENDING 1 else s
    else s

/-- A SPAN_CACHE_CTL word with the stored SKEIN_WAYS. -/
def cacheCtlWord (s : State) (p en force : Nat) : Nat :=
  en + 2 * force + 16 * s.fld .SPAN_CACHE_CTL [p] SPAN_CACHE_CTL.SKEIN_WAYS

/-! Commands. -/

/-- A write of SPAN_CMAINT_CTL with an operation and GO. -/
def maintGo (p op : Nat) (w : BitVec 64) (s : State) : Host.Outcome State Fault Refusal :=
  whenLive s (if p < 8 then
    cmaintWrite s p (fput (fput (fput w.toNat SPAN_CMAINT_CTL.OP op) SPAN_CMAINT_CTL.GO 1) SPAN_CMAINT_CTL.ABORT 0)
    else s)

/-- CLEAN (R287). -/
def execClean (span : Nat) (w : BitVec 64) (s : State) : Host.Outcome State Fault Refusal := maintGo span 1 w s
/-- INVAL. -/
def execInval (span : Nat) (w : BitVec 64) (s : State) : Host.Outcome State Fault Refusal := maintGo span 2 w s
/-- CLEAN_INVAL. -/
def execCleanInval (span : Nat) (w : BitVec 64) (s : State) : Host.Outcome State Fault Refusal := maintGo span 3 w s

/-- CMAINT_ABORT (R292): a write of ABORT with the other fields as they stand. -/
def execCmaintAbort (span : Nat) (s : State) : Host.Outcome State Fault Refusal :=
  whenLive s (if span < 8 then
    cmaintWrite s span (fput (s.rd .SPAN_CMAINT_CTL [span]) SPAN_CMAINT_CTL.ABORT 1) else s)

/-- The scan of an operation as far as it goes; `n` sets or lines end it. -/
def maintGoOn (s : State) (p : Nat) (r : MaintRec) (n : Nat) : State × MaintRec :=
  if r.scanned then (s, r)
  else
    let ls := maintSel s p r n
    if !maintClear s p r ls then (s, r)
    else
      let (s1, stop) := maintScan s p r ls
      let upto := stop.getD n
      let s1 := s1.satInc .SPAN_CMAINT_STAT [p] SPAN_CMAINT_STAT.SKIP_CNT (maintSkips s r r.pos upto)
      let s1 := s1.setFld .SPAN_CMAINT_STAT [p] SPAN_CMAINT_STAT.PROGRESS upto
      let r := { r with pos := upto, scanned := stop.isNone }
      ({ s1 with mem := { s1.mem with maint := mins s1.mem.maint p r } }, r)

/-- CMAINT_DONE (R290, R291): the scan goes on as far as the buffer lets it; when it is over and every WB it caused has
been accepted, the operation ends with what became of its host-bound writebacks (HOST_LOST, UNREACHABLE or OK). After
ABORT the number of sets or lines examined is free. -/
def execCmaintDone (span status : Nat) (s : State) : Host.Outcome State Fault Refusal :=
  whenLive s (
    match (if span < 8 then mfind s.mem.maint span else none) with
    | none => s
    | some r =>
      let total := if r.byWay then 24576 else r.len
      let (n, s) := if r.aborted && !r.scanned then
          let (k, s) := s.freeNat (total - r.pos + 1)
          (r.pos + k, s)
        else (total, s)
      let (s, r) := maintGoOn s span r n
      if !r.scanned || !maintWritten s span then s
      else
        let st := if status = 0x0A ∨ status = 0x03 then status else 0
        maintEnd s span r (statFold (if r.aborted then 0x01 else 0) st))

/-- CACHE_DISABLE (R294). -/
def execCacheDisable (span : Nat) (s : State) : Host.Outcome State Fault Refusal :=
  whenLive s (if span < 8 then cacheCtlWrite s span (cacheCtlWord s span 0 0) else s)

/-- CACHE_DISABLE_DONE (R294): every transaction of the cache is closed and the buffer empty; dirty lines left are
counted. The class of their record is INTERNAL (assumption 25). -/
def execCacheDisableDone (span : Nat) (s : State) : Host.Outcome State Fault Refusal :=
  whenLive s (
    if span < 8 ∧ s.bit .SPAN_CACHE_STAT [span] SPAN_CACHE_STAT.DIS_PENDING ∧ vebLen s span = 0 ∧
        ¬ s.mem.reqs.any (fun r => r.agent == span) ∧ ¬ s.mem.txns.any (fun e => e.2.req == span) then
      let n := (s.mem.lines.filter (fun e => e.1 / 2 ^ 48 == span && decide (3 ≤ e.2.st))).length
      let s := s.setFld .SPAN_CACHE_STAT [span] SPAN_CACHE_STAT.DIRTY_AT_DIS (min n 0xFFFFF)
      let s := if n = 0 then s else
        recordAt (s.setFld .SPAN_CACHE_STAT [span] SPAN_CACHE_STAT.DIRTY_LOST 1) (unitSpan span 0x50) 4 0 0 none
      (s.setFld .SPAN_CACHE_CTL [span] SPAN_CACHE_CTL.EN 0).setFld .SPAN_CACHE_STAT [span]
        SPAN_CACHE_STAT.DIS_PENDING 0
    else s)

/-- CACHE_ENABLE (R297). -/
def execCacheEnable (span : Nat) (force : Bool) (s : State) : Host.Outcome State Fault Refusal :=
  whenLive s (if span < 8 then cacheCtlWrite s span (cacheCtlWord s span 1 (b2n force)) else s)

/-- SKEIN_WAYS_WRITE (R282): EN is written as it reads. -/
def execSkeinWaysWrite (span n : Nat) (s : State) : Host.Outcome State Fault Refusal :=
  whenLive s (if span < 8 then
    cacheCtlWrite s span (b2n (s.bit .SPAN_CACHE_CTL [span] SPAN_CACHE_CTL.EN) + 16 * (n % 16)) else s)

end Sys2Proof.Machine
end

