-- ==== Sys2Proof/Machine/Hbm.lean ====
section
/-!
DEFINITION. Machine/Hbm.lean: the HBM controllers' own commands (chapter 12): accesses, the patrol scrub (R308), the
thermal curve and shutdown (R310 to R312) and the frame class map (R307).
-/

namespace Sys2Proof.Machine

/-- Errors that storage has developed: sectors with a correctable (1) or uncorrectable (2) pattern. They reach the
model through the command that finds them. -/
def addErrs (s : State) (errs : List (Nat × Nat)) : State :=
  { s with mem := { s.mem with er := errs.foldl (fun m e => mset 0 m e.1 (min e.2 2)) s.mem.er } }

/-- HBM_ACCESS (R304 to R306): one access of a line by its controller; a write carries its poison marks. -/
def execHbmAccess (line : Nat) (write : Bool) (v : BitVec 1024) (mask : BitVec 128) (pz : BitVec 4)
    (errs : List (Nat × Nat)) (s : State) : Host.Outcome State Fault Refusal :=
  whenLive s (
    if isFar line ∨ hbmOff s then s
    else
      let s := touch (addErrs s errs) (frameOf s (line * 128))
      if write then hbmWrite (lineWritten s line) line ⟨v, pz, 0⟩ mask else (hbmRead s line).1)

/-- SCRUB_READ (R308): one codeword. Owned lines, retired channels and unpopulated parts are skipped; the frame
counter follows, and a lower frame begins a new pass. -/
def execScrubRead (sct err : Nat) (s : State) : Host.Outcome State Fault Refusal :=
  whenLive s (
    let p := sct * 32
    match (if s.bit .HBM_SCRUB_CTL [] HBM_SCRUB_CTL.EN && !hbmOff s then physRaw s p else none) with
    | none => s
    | some x =>
      let owned := match mfind s.mem.dirs (p / 128) with
        | some d => decide (2 ≤ d.st)
        | none => false
      let f := x / 2097152
      let s := if err = 0 then s else addErrs s [(sct, err)]
      let last := s.fld .HBM_SCRUB_STAT [] HBM_SCRUB_STAT.FRAME
      let s := if f < last then
          let s := s.wrapInc .HBM_SCRUB_STAT [] HBM_SCRUB_STAT.PASS_CNT 1
          let s := s.setFld .HBM_SCRUB_STAT [] HBM_SCRUB_STAT.LAST_CE (min s.hbmx.scrubCe 0xFFFF)
          { s with hbmx := { s.hbmx with scrubCe := 0 } }
        else s
      let s := s.setFld .HBM_SCRUB_STAT [] HBM_SCRUB_STAT.FRAME f
      if owned then s
      else
        let c := frameC s f
        let cw := if c then [sct / 2 * 2, sct / 2 * 2 + 1] else [sct]
        let e := cwState s c cw
        let st := p / gib2 / 32
        let k := p / gib2 % 32
        let s := if e = 3 then s else cwCount s c st k sct e
        if e = 1 then encodeCw { s with hbmx := { s.hbmx with scrubCe := s.hbmx.scrubCe + 1 } } c cw false
        else if e = 2 then s.send (.kmhIrq 2 4)
        else s)

/-- Entry e of the throttle curve: temperature and share. -/
def thrEntry (s : State) (e : Nat) : Nat × Nat :=
  let w := s.rd .HBM_THR_CURVE [e / 4] >>> (16 * (e % 4))
  (w % 256, w / 256 % 64)

/-- Whether a curve of two words is legal (R311). -/
def thrOk (w0 w1 : Nat) : Bool :=
  let es := (List.range 8).map (fun e => (if e < 4 then w0 else w1) >>> (16 * (e % 4)))
  let ts := es.map (· % 256)
  let sh := es.map (fun w => w / 256 % 64)
  ts.all (fun t => decide (85 ≤ t) && decide (t ≤ 104)) &&
  (ts.zip (ts.drop 1)).all (fun p => decide (p.1 < p.2)) && (sh.zip (sh.drop 1)).all (fun p => decide (p.2 ≤ p.1))

/-- A write of one word of HBM_THR_CURVE, judged with the other word (R311). -/
def thrWrite (s : State) (n eff : Nat) : State :=
  let w := plainWrite (regInfo .HBM_THR_CURVE).flds (s.rd .HBM_THR_CURVE [n]) eff
  let o := s.rd .HBM_THR_CURVE [1 - n]
  if (if n = 0 then thrOk w o else thrOk o w) then s.wr .HBM_THR_CURVE [n] w else discardReg s .HBM_THR_CURVE [n]

/-- THR_CURVE_WRITE (R311). -/
def execThrCurveWrite (n : Nat) (w : BitVec 64) (s : State) : Host.Outcome State Fault Refusal :=
  whenLive s (if n < 2 then thrWrite s n w.toNat else s)

/-- A write of HBM_FCLASS (R307): bits of frames that are not populated read 1 and are not written. -/
def fclassSet (s : State) (n eff : Nat) : State :=
  let old := s.rd .HBM_FCLASS [n]
  s.wr .HBM_FCLASS [n] ((List.range 64).foldl (fun w b =>
    fput w ⟨b, b⟩ (if (rawResolve s ((64 * n + b) * 2097152)).isSome then eff >>> b else 1)) old)

/-- FCLASS_WRITE (R307). -/
def execFclassWrite (n : Nat) (w : BitVec 64) (s : State) : Host.Outcome State Fault Refusal :=
  whenLive s (if n < 8192 then fclassSet s n w.toNat else s)

/-- The shutdown of a stack (R312 events 1 to 3). -/
def stackShutdown (s : State) (k : Nat) : State :=
  let s := s.setFld .HBM_STK_STAT [k] HBM_STK_STAT.STATE 3
  let s := s.satInc .HBM_THR_STAT [k] HBM_THR_STAT.SHUT_CNT 1
  contTrigger (s.send (.kmhIrq 2 3)) (unitHbm k 0x40) 7 0x0C none none

/-- The entry of the curve a reading puts in force (R310), as its number plus one; `cur` is the present one. -/
def thrSelect (s : State) (cur t : Nat) : Nat :=
  let sel := (List.range 8).foldl (fun b e => if (thrEntry s e).1 ≤ t then e + 1 else b) 0
  if cur ≤ sel then sel
  else if t + s.fld .HBM_THR_CTL [] HBM_THR_CTL.HYST ≤ (thrEntry s (cur - 1)).1 then sel else cur

/-- A reading of t degrees: refresh, curve, shutdown and return from cooling (R310 to R312). -/
def stackReading (s : State) (k t : Nat) : State :=
  let s := { s with hbmx := { s.hbmx with fails := mdel s.hbmx.fails k } }
  let s := s.setFld .HBM_STK_STAT [k] HBM_STK_STAT.TEMP t
  let s := s.setFld .HBM_STK_STAT [k] HBM_STK_STAT.MAX_TEMP (max t (s.fld .HBM_STK_STAT [k] HBM_STK_STAT.MAX_TEMP))
  let s := s.setFld .HBM_STK_STAT [k] HBM_STK_STAT.HI_REFRESH (b2n (decide (85 ≤ t)))
  let st := s.fld .HBM_STK_STAT [k] HBM_STK_STAT.STATE
  let n := thrSelect s (mget 0 s.hbmx.ent k) t
  let share := if n = 0 then 63 else (thrEntry s (n - 1)).2
  let s := { s with hbmx := { s.hbmx with ent := mset 0 s.hbmx.ent k n } }
  let s := s.setFld .HBM_STK_STAT [k] HBM_STK_STAT.SHARE_M1 share
  if st = 3 ∨ (st = 4 ∧ 90 < t) then s
  else if 105 ≤ t then stackShutdown s k
  else s.setFld .HBM_STK_STAT [k] HBM_STK_STAT.STATE (if share < 63 then 2 else 1)

/-- HBM_TEMP_READING (R310, R312): a reading, or a failed one. -/
def execHbmTempReading (stack : Nat) (temp : Option Nat) (s : State) : Host.Outcome State Fault Refusal :=
  whenUp s (
    let st := s.fld .HBM_STK_STAT [stack] HBM_STK_STAT.STATE
    if s.asm.stacks ≤ stack ∨ st = 0 then s
    else match temp with
      | some t => stackReading s stack (t % 256)
      | none =>
        let n := mget 0 s.hbmx.fails stack + 1
        let s := { s with hbmx := { s.hbmx with fails := mset 0 s.hbmx.fails stack n } }
        let s := s.setFld .HBM_STK_STAT [stack] HBM_STK_STAT.SENSOR_FAIL 1
        if n = 25 ∧ st ≠ 3 ∧ st ≠ 4 then stackShutdown s stack else s)

/-- HBM_COOL_TIMEOUT (R312): a stack still out of service writes a permanent-fault record. -/
def execHbmCoolTimeout (stack : Nat) (s : State) : Host.Outcome State Fault Refusal :=
  whenUp s (
    let st := s.fld .HBM_STK_STAT [stack] HBM_STK_STAT.STATE
    if stack < s.asm.stacks ∧ (st = 3 ∨ st = 4) then recordAt s (unitHbm stack 0x40) 6 0x0C 0 none else s)

/-- A write of HBM_RETIRE_CTL (R314): GO starts event 1 for the named channel, or is refused with ERR. -/
def hbmRetireWrite (s : State) (eff : Nat) : State :=
  let s := s.plain .HBM_RETIRE_CTL [] eff
  if fget eff HBM_RETIRE_CTL.GO = 0 then s
  else
    let st := fget eff HBM_RETIRE_CTL.STACK
    let k := fget eff HBM_RETIRE_CTL.CHANNEL
    let bad := !s.owned 4 || decide (s.asm.stacks ≤ st) ||
      (s.fld .HBM_REGION [k] HBM_REGION.LIVE >>> st) % 2 == 0 ||
      (s.fld .HBM_REGION [k] HBM_REGION.PEND >>> st) % 2 == 1
    let s := s.setFld .HBM_RETIRE_CTL [] HBM_RETIRE_CTL.ERR (b2n bad)
    if bad then s else retireChannel s st k

end Sys2Proof.Machine
end

