-- ==== Sys2Proof/Machine/Place.lean ====
section
/-!
DEFINITION. Machine/Place.lean: the Placement Table and objects as firmware keeps them (R319, R320, R326), the HBM
pool and R331, page moves (R324, R325), ageing and promotion (R322, R333), regions that lose a channel (R314, R335,
R336), scrub repair (R323) and translation invalidation (R55).
-/

namespace Sys2Proof.Machine

/-! Tables in memory. -/

/-- Raw offset of the object table (layout of PLC_PT_BASE). -/
def objBase (s : State) : Nat := s.fld .PLC_OBJ_BASE [] PLC_PT_BASE.BASE * 2097152 - 0x20000000000

/-- Pages with VALID = 1, in ascending index. -/
def ptPages (s : State) : List Nat :=
  (tblListed s (ptBase s) 8388608 8).filter (fun p => peValid (ptEntry s p))

/-- An entry written by firmware with its atomic operation; no old translation remains (R54, R55). -/
def setEntry (s : State) (page : Nat) (e : BitVec 64) : State :=
  let s := fwWriteBytes s (0x20000000000 + ptBase s + page * 8) (leBytes 8 e.toNat)
  { s with mem := { s.mem with stale := mdel s.mem.stale page } }

/-- Replacement of bits [hi:lo] of an entry. -/
def entPut (e : BitVec 64) (hi lo v : Nat) : BitVec 64 := BitVec.ofNat 64 (fput e.toNat ⟨hi, lo⟩ v)

/-- Word w of an object descriptor. -/
def objWord (s : State) (id w : Nat) : BitVec 64 := fwWord s (0x20000000000 + objBase s + id * 32 + w * 8)
/-- A descriptor word written by firmware. -/
def setObjWord (s : State) (id w : Nat) (v : BitVec 64) : State :=
  fwWriteBytes s (0x20000000000 + objBase s + id * 32 + w * 8) (leBytes 8 v.toNat)

/-- VALID of an object. -/
def objValid (s : State) (id : Nat) : Bool := (objWord s id 0).getLsbD 53
/-- BASE_PAGE. -/
def objPage (s : State) (id : Nat) : Nat := ((objWord s id 0).extractLsb' 0 20).toNat
/-- PAGES. -/
def objPages (s : State) (id : Nat) : Nat := ((objWord s id 0).extractLsb' 20 20).toNat
/-- KIND. -/
def objKind (s : State) (id : Nat) : Nat := ((objWord s id 0).extractLsb' 40 3).toNat
/-- POLICY. -/
def objPolicy (s : State) (id : Nat) : Nat := ((objWord s id 0).extractLsb' 43 2).toNat
/-- CTX_ID. -/
def objCtx (s : State) (id : Nat) : Nat := ((objWord s id 0).extractLsb' 45 8).toNat

/-- Valid objects. -/
def objIds (s : State) : List Nat := (tblListed s (objBase s) 2097152 32).filter (objValid s)

/-- The object that holds a page. -/
def objOf (s : State) (page : Nat) : Option Nat :=
  (objIds s).find? (fun i => decide (objPage s i ≤ page) && decide (page < objPage s i + objPages s i))

/-- The policy of a page: that of its object; a page of no object is treated as PIN_NEAR (assumption 26). -/
def pagePolicy (s : State) (page : Nat) : Nat :=
  match objOf s page with
  | some i => objPolicy s i
  | none => 0

/-- A page that the engine may not move (R47). -/
def peFixed (e : BitVec 64) : Bool := peNoMig e || peRtype e == 2

/-! The pool (R328, R329). -/

/-- Frames of a region (R301, R302). -/
def regionFrames (s : State) (k : Nat) : List Nat :=
  (List.range ((s.liveList k).length * 1024)).map (fun i => k * s.asm.stacks * 1024 + i)

/-- The region of a frame. -/
def frameRegion (s : State) (f : Nat) : Nat := f / (s.asm.stacks * 1024)

/-- Whether a region's STATE is NORMAL. -/
def regionNormal (s : State) (k : Nat) : Bool := s.fld .HBM_REGION [k] HBM_REGION.STATE == 0

/-- Frames that back a page, or that a move is filling. -/
def usedFrames (s : State) : List Nat :=
  ((ptPages s).filter (fun p => !peLoc (ptEntry s p))).map (fun p => peFrame (ptEntry s p)) ++
  (s.plc.moves.filter (fun m => !m.toFar)).map (·.dst)

/-- Far pages in use, as FRAME values. -/
def usedFar (s : State) : List Nat :=
  ((ptPages s).filter (fun p => peLoc (ptEntry s p))).map (fun p => peFrame (ptEntry s p)) ++
  (s.plc.moves.filter (fun m => m.toFar)).map (·.dst)

/-- Frames of the pool. -/
def poolCount (s : State) : Nat :=
  (((List.range 32).filter (regionNormal s)).map (fun k => (s.liveList k).length * 1024)).sum -
  ((s.plc.fw ++ s.plc.raw).filter (fun f => regionNormal s (frameRegion s f))).length

/-- The sum of all RESERVE values. -/
def reserveSum (s : State) : Nat := ((List.range 256).map (fun c => s.fld .CTX_POOL [c] CTX_POOL.RESERVE)).sum

/-- Free frames of the pool. -/
def freeCount (s : State) : Nat :=
  poolCount s - ((usedFrames s).filter (fun f =>
    regionNormal s (frameRegion s f) && !s.plc.fw.contains f && !s.plc.raw.contains f)).dedup.length

/-- CHARGED of a context: its pages backed by HBM. -/
def charged (s : State) (c : Nat) : Nat :=
  ((ptPages s).filter (fun p => let e := ptEntry s p; !peLoc e && peCtx e == c)).length

/-- PINNED of a context: those that are PIN_NEAR, NO_MIGRATE or Strict. -/
def pinnedOf (s : State) (c : Nat) : Nat :=
  ((ptPages s).filter (fun p =>
    let e := ptEntry s p
    !peLoc e && peCtx e == c && (peFixed e || pagePolicy s p == 0))).length

/-- Free frames of one region. -/
def freeIn (s : State) (k : Nat) : List Nat :=
  if !regionNormal s k then []
  else
    let u := usedFrames s
    (regionFrames s k).filter (fun f => !s.plc.fw.contains f && !s.plc.raw.contains f && !u.contains f)

/-- A free frame from the next region in turn (R302); which frame of the region is a free choice. -/
def takeFrame (s : State) : Option (Nat × State) :=
  match (List.range 32).find? (fun i => !(freeIn s ((s.plc.turn + i) % 32)).isEmpty) with
  | none => none
  | some i =>
    let k := (s.plc.turn + i) % 32
    let l := freeIn s k
    let (n, s) := s.freeNat l.length
    some (l.getD n 0, { s with plc := { s.plc with turn := (k + 1) % 32 } })

/-- The far pool's pages (PLC_FAR_CFG), as FRAME values. -/
def farPages (s : State) : List Nat :=
  if s.bit .PLC_FAR_CFG [] PLC_FAR_CFG.EN then
    (List.range (s.fld .PLC_FAR_CFG [] PLC_FAR_CFG.PAGES_M1 + 1)).map (fun i =>
      s.fld .PLC_FAR_CFG [] PLC_FAR_CFG.BASE + i)
  else []

/-- A free far page; which one is a free choice. -/
def takeFar (s : State) : Option (Nat × State) :=
  let u := usedFar s
  match (farPages s).filter (fun f => !u.contains f) with
  | [] => none
  | l => let (n, s) := s.freeNat l.length; some (l.getD n 0, s)

/-- Pages within the byte ranges of layers that Trestle holds (R334): started and not released. -/
def trestleHeld (s : State) (page : Nat) : Bool :=
  s.tr.any (fun q => q.2.run.any (fun l =>
    let w0 := l.words.getD 0 0
    let hit (id off len : Nat) : Bool :=
      let lo := objPage s id + off / 2097152
      let hi := objPage s id + (off + len - 1) / 2097152
      decide (lo ≤ page) && decide (page ≤ hi)
    hit (w0.toNat % 65536) ((l.words.getD 1 0).toNat % 2 ^ 40) ((l.words.getD 2 0).toNat % 2 ^ 32) ||
    (l.shadow && hit ((l.words.getD 3 0).toNat % 65536) ((l.words.getD 3 0).toNat / 65536 % 2 ^ 40)
      ((l.words.getD 4 0).toNat % 2 ^ 32)))) ||
  s.tr.any (fun q => q.2.inst.any (fun e => decide (trReleased s q.1 ≤ e.2) &&
    (let en := ptEntry s page
     if peLoc en then decide (2 ^ 47 + peFrame en * 16384 ≤ e.1) && decide (e.1 < 2 ^ 47 + peFrame en * 16384 + 16384)
     else !isFar e.1 && frameOf s (e.1 * 128) == peFrame en)))

/-- Eviction candidates (R330), of one context or of any. -/
def candidates (s : State) (only : Option Nat) (gap : Nat) : List Nat :=
  (ptPages s).filter (fun p =>
    let e := ptEntry s p
    let pol := pagePolicy s p
    !peLoc e && !peMoving e && !peFixed e && (pol == 1 || pol == 3) && !trestleHeld s p && !s.plc.skip.contains p &&
    !(s.plc.moves.any (fun m => m.page == p)) &&
    decide (s.fld .CTX_POOL [peCtx e] CTX_POOL.RESERVE < charged s (peCtx e)) &&
    (match only with
     | some c => peCtx e == c
     | none => true) && decide (gap ≤ peAge e))

/-- The oldest candidate: highest AGE, STREAM before PREFER_NEAR, lowest page. -/
def oldest (s : State) (l : List Nat) : Option Nat :=
  let key (p : Nat) : Nat := peAge (ptEntry s p) * 2 + b2n (pagePolicy s p == 3)
  match l with
  | [] => none
  | h :: r => some (r.foldl (fun b p => if key b < key p then p else b) h)

/-- Pages of a context on their way into HBM, which count against its frames from the decision on (R325, R331). -/
def incoming (s : State) (c : Nat) : Nat :=
  ((s.plc.moves.filterMap (fun m => if m.toFar then m.next else some m.page)).filter (fun p =>
    peLoc (ptEntry s p) && peCtx (ptEntry s p) == c)).length

/-- What R331 decides for page p of context c. -/
inductive PlaceR
  | frame (f : Nat)
  | evict (v : Nat)
  | no
deriving DecidableEq, Repr

/-- place(p, c) of R331, before any move; `gap0` as for PIN_NEAR. -/
def placeDecide (s : State) (c : Nat) (gap0 : Bool) : PlaceR × State :=
  let ch := charged s c + incoming s c
  let evict (v : Option Nat) : PlaceR :=
    match v with
    | some v => if (takeFar s).isSome then .evict v else .no
    | none => .no
  if ch = s.fld .CTX_POOL [c] CTX_POOL.LIMIT then (evict (oldest s (candidates s (some c) 0)), s)
  else match takeFrame s with
    | some (f, s) => (.frame f, s)
    | none =>
      let gap := if ch < s.fld .CTX_POOL [c] CTX_POOL.RESERVE ∨ gap0 then 0 else 2
      (evict (oldest s (candidates s none gap)), s)

/-! Moves (R324). -/

/-- The line number of byte 0 of a backing: HBM frame or far page. -/
def farLine0 (f : Nat) : Nat := 2 ^ 47 + f * 16384

/-- Whether a line belongs to a page. -/
def inPage (s : State) (loc : Bool) (f l : Nat) : Bool :=
  if loc then decide (farLine0 f ≤ l) && decide (l < farLine0 f + 16384) else !isFar l && frameOf s (l * 128) == f

/-- What is under way on the lines of a page goes on as far as it can. -/
def settlePage (s : State) (loc : Bool) (f : Nat) : State :=
  ((busyLines s).filter (inPage s loc f)).foldl settleLine s

/-- Whether something is under way on a line of a page. -/
def pageBusy (s : State) (loc : Bool) (f : Nat) : Bool := (busyLines s).any (inPage s loc f)

/-- Every line of a page recalled (R276). -/
def recallPage (s : State) (loc : Bool) (f : Nat) : State :=
  let s := ((busyLines s).filter (inPage s loc f)).foldl (fun s l => cancelLine (settleLine s l) l) s
  (s.mem.dirs.filter (fun e => inPage s loc f e.1)).foldl (fun s e => recallLine s e.1) s

/-- The first error-marked codeword of a frame. -/
def frameErr (s : State) (f : Nat) : Option Nat :=
  let c := frameC s f
  ((s.mem.er.map (·.1)) ++ s.mem.odd).find? (fun x => frameOf s (x * 32) == f &&
    cwState s c (if c then [x / 2 * 2, x / 2 * 2 + 1] else [x]) == 2)

/-- Bytes and poison marks of an HBM frame copied into another one (R325). -/
def copyFrame (s : State) (src dst : Nat) : State :=
  let mv (p : Nat) : Option Nat :=
    match physRaw s p with
    | some x => if x / 2097152 = src then rawResolve s (dst * 2097152 + x % 2097152) else none
    | none => none
  let pat := s.mem.patF.contains src
  let s0 := s
  let s := zeroFrame s dst
  let s := if pat then { s with mem := { s.mem with patF := sins s.mem.patF dst } } else s
  let s := s0.mem.hbm.foldl (fun s e =>
    match mv e.1 with
    | some q => setHbmByte s q e.2
    | none => s) s
  s0.mem.pz.foldl (fun s x =>
    match mv (x * 32) with
    | some q => poisonSector s (q / 32)
    | none => s) s

/-- An HBM frame written to a far page, with its marks. -/
def frameToFar (s : State) (src far : Nat) : State :=
  (List.range 16384).foldl (fun s i =>
    match rawResolve s (src * 2097152 + i * 128) with
    | none => s
    | some p =>
      let v : LineVal := ⟨packBytes 1024 ((List.range 128).map (fun j => hbmByte s (p + j))),
        (List.range 4).foldl (fun m j => m ||| markBit j (s.mem.pz.contains (p / 32 + j))) 0, 0⟩
      s.send (.hostWrite (far * 2097152 + i * 128) v fullMask)) s

/-- A far page read into an HBM frame, with the marks of the lines the host reports poisoned. -/
def farToFrame (s : State) (far dst : Nat) (ext : Ext) : State :=
  let base := far * 2097152
  let at_ (a : Nat) : Option Nat :=
    if base ≤ a ∧ a < base + 2097152 then rawResolve s (dst * 2097152 + (a - base)) else none
  let s := zeroFrame s dst
  let s := ext.bytes.foldl (fun s e =>
    match at_ e.1 with
    | some q => setHbmByte s q e.2
    | none => s) s
  ext.poison.foldl (fun s a =>
    match at_ (a / 128 * 128) with
    | some q => (List.range 4).foldl (fun s j => poisonSector s (q / 32 + j)) s
    | none => s) s

/-- RESIDENT of a page's object changed by the engine. -/
def residentAdd (s : State) (page : Nat) (up : Bool) : State :=
  match objOf s page with
  | none => s
  | some i =>
    let w := objWord s i 2
    let n := w.toNat % 2 ^ 20
    setObjWord s i 2 (entPut w 19 0 (if up then n + 1 else n - 1))

/-- PIN_BREAK of a PIN_NEAR page that leaves HBM (R335). -/
def pinBreak (s : State) (page : Nat) : State :=
  let s := s.setFld .PLC_STAT [] PLC_STAT.PIN_BREAK 1
  let s := recordAt s (unitKst 0x45) 5 0x09 0 none
  let s := { s with plc := { s.plc with back := sins s.plc.back page } }
  match objOf s page with
  | some i => setObjWord s i 0 (objWord s i 0 ||| BitVec.ofNat 64 (2 ^ 55))
  | none => s

/-- A page back in HBM waits no more; PIN_BREAK of its object reads 0 once none of its pages is left in the far tier
(R326, R335). -/
def pinReturn (s : State) (page : Nat) : State :=
  if !s.plc.back.contains page then s
  else
    let s := { s with plc := { s.plc with back := sdel s.plc.back page } }
    match objOf s page with
    | none => s
    | some i =>
      if s.plc.back.any (fun p => objOf s p == some i) then s else setObjWord s i 0 (entPut (objWord s i 0) 55 55 0)

/-- The copy of a move and its new location (R324 events 3 and 4): `none` when an error-marked codeword is consumed
instead. -/
def moveEffect (s : State) (m : PageMove) (ext : Ext) : State × Bool :=
  let e := ptEntry s m.page
  let s := recallPage s (peLoc e) (peFrame e)
  match (if peLoc e then none else frameErr s (peFrame e)) with
  | some x => (consume s x, false)
  | none =>
    let s :=
      if m.toFar then frameToFar s (peFrame e) m.dst
      else
        let s := setFrameClass s m.dst (peClass e)
        if peLoc e then farToFrame s (peFrame e) m.dst ext else copyFrame s (peFrame e) m.dst
    let e := entPut (entPut (entPut e 62 32 m.dst) 16 16 (b2n m.toFar)) 17 17 0
    let s := residentAdd (setEntry s m.page e) m.page (!m.toFar)
    (s.wrapInc .PLC_STAT [] PLC_STAT.MOVE_CNT 1, true)

/-- A move begun (R324 event 1). -/
def moveStart (s : State) (m : PageMove) : State :=
  let s := setEntry s m.page (entPut (ptEntry s m.page) 17 17 1)
  { s with plc := { s.plc with moves := s.plc.moves ++ [m] } }

/-- Moves under way in one direction (R325); an eviction that a move toward HBM follows counts in both. -/
def movesTo (s : State) (far : Bool) : Nat :=
  (s.plc.moves.filter (fun m => m.toFar == far || (!far && m.next.isSome))).length

/-- Whether a page that waits may still be moved: valid, not moving, and not held. -/
def wantOk (s : State) (w : PageWant) : Bool :=
  let e := ptEntry s w.page
  peValid e && !peMoving e && !peFixed e && !s.plc.skip.contains w.page &&
  (if w.kind = 1 then !peLoc e && !regionNormal s (frameRegion s (peFrame e)) else peLoc e && !trestleHeld s w.page)

/-- The next waiting page taken up, if the engine has room for its move (R325): placed under R331; out of a retiring region
it goes to the far tier when it cannot be placed (R335). -/
def plcStep (s : State) : State :=
  match s.plc.wants with
  | [] => s
  | w :: r =>
    let s1 := { s with plc := { s.plc with wants := r } }
    if s.owned 1 || s.castingOff then s
    else if !wantOk s w then s1
    else
      match placeDecide s1 (peCtx (ptEntry s w.page)) (w.kind = 1 || pagePolicy s w.page == 0) with
      | (.frame f, s2) => if 2 ≤ movesTo s false then s else moveStart s2 ⟨w.page, false, f, none⟩
      | (.evict v, s2) =>
        if 2 ≤ movesTo s true ∨ 2 ≤ movesTo s false then s
        else (match takeFar s2 with
          | some (f, s2) => moveStart s2 ⟨v, true, f, some w.page⟩
          | none => s1)
      | (.no, s2) =>
        if w.kind ≠ 1 then s2
        else if 2 ≤ movesTo s true then s
        else (match takeFar s2 with
          | some (f, s2) =>
            moveStart (if pagePolicy s w.page = 0 then pinBreak s2 w.page else s2) ⟨w.page, true, f, none⟩
          | none => { s1 with plc := { s1.plc with wants := s1.plc.wants ++ [w] } })

/-- PIN_NEAR pages that left HBM return before every promotion, as soon as a frame is free (R335). -/
def backWants (s : State) : State :=
  if s.plc.back.isEmpty ∨ (takeFrame s).isNone then s
  else
    let new := s.plc.back.filter (fun p => !s.plc.wants.any (fun w => w.page == p))
    { s with plc := { s.plc with wants := new.map (fun p => (⟨p, 2⟩ : PageWant)) ++ s.plc.wants } }

/-- The engine's work as far as it can begin. -/
def plcRun (s : State) : State := (List.range 4).foldl (fun s _ => plcStep s) (backWants s)

/-- PAGE_MOVE_DONE (R324 events 2 to 5). The recall waits for what is under way on the lines of the page (R276). -/
def execPageMoveDone (page : Nat) (ext : Ext) (s : State) : Host.Outcome State Fault Refusal :=
  whenLive s (
    match s.plc.moves.find? (fun m => m.page == page) with
    | none => s
    | some m =>
      let old := peFrame (ptEntry s page)
      let fromFar := peLoc (ptEntry s page)
      if (m.toFar || fromFar) && (!hostUp s || decide (ext.status ≠ 0)) then s
      else
        let s1 := settlePage s fromFar old
        match (if pageBusy s1 fromFar old then (s, false) else moveEffect s1 m ext) with
        | (s, false) => s
        | (s, true) =>
          let s := { s with plc := { s.plc with moves := s.plc.moves.filter (fun x => x.page != page) } }
          let s := if m.toFar then s else pinReturn s page
          plcRun (match m.next with
            | some p =>
              let e := ptEntry s p
              if peValid e && !peMoving e && !peFixed e then moveStart s ⟨p, false, old, none⟩ else s
            | none => s))

/-- A move given up: the old location stands. -/
def moveDrop (s : State) (m : PageMove) : State :=
  let s := setEntry s m.page (entPut (ptEntry s m.page) 17 17 0)
  { s with plc := { s.plc with moves := s.plc.moves.filter (fun x => x.page != m.page)
                               skip := sins s.plc.skip m.page } }

/-- PAGE_MOVE_ABANDON (R324). -/
def execPageMoveAbandon (page : Nat) (s : State) : Host.Outcome State Fault Refusal :=
  whenLive s (
    match s.plc.moves.find? (fun m => m.page == page) with
    | none => s
    | some m => plcRun ((moveDrop s m).satInc .PLC_STAT [] PLC_STAT.ABANDON_CNT 1))

/-- MOVING_HOLD_TIMEOUT (R321): a page that software left moving releases its held accesses as undecoded. -/
def execMovingHoldTimeout (page : Nat) (s : State) : Host.Outcome State Fault Refusal :=
  whenLive s (
    let e := ptEntry s page
    if page < 1048576 ∧ peValid e ∧ peMoving e ∧ ¬ s.plc.moves.any (fun m => m.page == page) then
      { s with plc := { s.plc with expired := sins s.plc.expired page } }
    else s)

/-! Ageing (R322, R333). -/

/-- The activity bit of a page: of its frame, or of the page when it is host-backed. -/
def pageAct (page : Nat) (e : BitVec 64) : Nat := if peLoc e then 1048576 + page else peFrame e

/-- AGEING_SWEEP: every valid page is aged; then PIN_NEAR pages that wait to return, and young far pages in
ascending order, are to be placed. -/
def execAgeingSweep (s : State) : Host.Outcome State Fault Refusal :=
  whenLive s (
    if s.owned 1 then s
    else
      let pages := ptPages s
      let young := pages.filter (fun p =>
        let e := ptEntry s p
        peLoc e && s.mem.act.contains (pageAct p e) && (pagePolicy s p == 1 || pagePolicy s p == 3) && !peFixed e)
      let acts := s.mem.act
      let s := pages.foldl (fun s p =>
        let e := ptEntry s p
        let age := if acts.contains (pageAct p e) then 0 else min 255 (peAge e + 1)
        let s := if age = peAge e then s else setEntry s p (entPut e 27 20 age)
        { s with mem := { s.mem with act := sdel s.mem.act (pageAct p e) } }) s
      let n := s.fld .PLC_AGE_CTL [] PLC_AGE_CTL.PROMOTE_MAX * 64
      let wants := s.plc.back.map (fun p => (⟨p, 2⟩ : PageWant)) ++ (young.take n).map (fun p => ⟨p, 0⟩)
      plcRun { s with plc := { s.plc with wants := s.plc.wants.filter (fun w => w.kind == 1) ++ wants, skip := [] } })

/-! Scrub repair (R323). -/

/-- A line of a replica (R326): in host memory, or on a peer module, which is asked and whose answer the outside gives under
the pointer itself; one that times out is lost (R250). The inner `none` where it cannot be read, the outer one while the
read must wait. -/
def repLine (s : State) (rep off : Nat) (ext : Ext) : Option (State × Option LineVal) :=
  let ask (key : Nat) : Option LineVal :=
    if ext.status ≠ 0 ∨ ext.poison.contains key then none else some (extLine ext key)
  if rep = 0 then some (s, none)
  else match decPtr s (BitVec.ofNat 64 (rep + off)) with
    | .local_ a =>
      match (decLocal s .fw a false).1 with
      | .ok (.line l _) _ =>
        some (s, if !isFar l then some (peekLine s l) else if hostUp s then ask (farAddr l) else none)
      | .held => none
      | _ => some (s, none)
    | .peer m a =>
      (match peerRoute s m with
       | (0, s) =>
         (peerLink s m (peerBucket m a)).map (fun p =>
           let s := p.2.sendOn p.1 0 (.peerRead m a p.1 128)
           (if ext.status = 0x03 then lostPeer s m else s, ask (rep + off)))
       | (_, s) => some (s, none))
    | _ => some (s, none)

/-- SCRUB_POISON_REPORT: the mark over the codeword, POISONED in the page, and repair from a replica when the page
is not writable. -/
def execScrubPoisonReport (sct : Nat) (ext : Ext) (s : State) : Host.Outcome State Fault Refusal :=
  whenLive s (
    let f := frameOf s (sct * 32)
    let c := frameC s f
    if cwState s c (if c then [sct / 2 * 2, sct / 2 * 2 + 1] else [sct]) ≠ 2 then s
    else
      let s0 := s
      let s := poisonSector s sct
      match (ptPages s).find? (fun p => let e := ptEntry s p; !peLoc e && peFrame e == f) with
      | none => s
      | some p =>
        let e := ptEntry s p
        let s := setEntry s p (entPut e 18 18 1)
        match objOf s p with
        | none => s
        | some i =>
          let rep := (objWord s i 1).toNat
          match physRaw s (sct * 32) with
          | none => s
          | some x =>
            let off := (p - objPage s i) * 2097152 + x % 2097152 / 128 * 128
            if peWrite e then s
            else match repLine s rep off ext with
              | none => s0
              | some (s, none) => s
              | some (s, some v) => memWrite (lineWritten s (sct / 4)) (sct / 4) v fullMask)

/-! Channel retirement (R314 to R316, R335, R336). -/

/-- Frames that hold a reform (R315): they back a page that may not move, or are reserved for raw use. -/
def holdCount (s : State) (k : Nat) : Nat :=
  (((ptPages s).filter (fun p => let e := ptEntry s p; !peLoc e && frameRegion s (peFrame e) == k && peFixed e)).map
    (fun p => peFrame (ptEntry s p)) ++ s.plc.raw.filter (fun f => frameRegion s f == k)).dedup.length

/-- A run of n consecutive free frames in a NORMAL region other than k, chosen freely. -/
def freeRun (s : State) (k n : Nat) : Option (Nat × State) :=
  let runs := ((List.range 32).filter (· != k)).flatMap (fun j =>
    let l := freeIn s j
    l.filter (fun f => (List.range n).all (fun i => l.contains (f + i))))
  match runs with
  | [] => none
  | l => let (i, s) := s.freeNat l.length; some (l.getD i 0, s)

/-- An eviction on behalf of firmware (R336): the oldest candidate of any context goes to the far tier. -/
def fwEvict (s : State) : State :=
  if 2 ≤ movesTo s true then s
  else match oldest s (candidates s none 0), takeFar s with
    | some v, some (f, s) => moveStart s ⟨v, true, f, none⟩
    | _, _ => s

/-- A firmware table of n frames that lies in region k moves to another region (R336); it waits for frames, and for what is
under way on its lines. -/
def tableLeave (s : State) (k n : Nat) (r : RegId) (base : Nat) : State :=
  let f0 := base / 2097152
  if frameRegion s f0 ≠ k then s
  else if (List.range n).any (fun i => pageBusy (settlePage s false (f0 + i)) false (f0 + i)) then s
  else match freeRun s k n, (List.range n).findSome? (fun i => frameErr (recallPage s false (f0 + i)) (f0 + i)) with
    | none, _ => fwEvict s
    | some _, some x => consume s x
    | some (g, s), none =>
      let s := (List.range n).foldl (fun s i =>
        copyFrame (setFrameClass (recallPage s false (f0 + i)) (g + i) true) (f0 + i) (g + i)) s
      let s := s.setFld r [] PLC_PT_BASE.BASE ((0x20000000000 + g * 2097152) / 2097152)
      let fw := (List.range n).foldl (fun l i => sins (sdel l (f0 + i)) (g + i)) s.plc.fw
      let s := { s with plc := { s.plc with fw := fw }, mem := { s.mem with stale := [] } }
      (s.setFld .PLC_STAT [] PLC_STAT.TBL_MOVED 1).send (.kmhIrq 3 5)

/-- Event 2 of R314 for a region: firmware tables leave, and every page that may move waits for a place. -/
def regionEmpty (s : State) (k : Nat) : State :=
  let s := tableLeave s k 4 .PLC_PT_BASE (ptBase s)
  let s := tableLeave s k 1 .PLC_OBJ_BASE (objBase s)
  let ps := (ptPages s).filter (fun p => let e := ptEntry s p; !peLoc e && frameRegion s (peFrame e) == k && !peFixed e)
  plcRun { s with plc := { s.plc with wants :=
    (ps.filter (fun p => !s.plc.wants.any (fun w => w.page == p))).map (fun p => ⟨p, 1⟩) ++ s.plc.wants } }

/-- CHANNEL_RETIRE (R314): a write of HBM_RETIRE_CTL; the placement engine then empties the region. -/
def execChannelRetire (w : BitVec 64) (s : State) : Host.Outcome State Fault Refusal :=
  whenLive s (
    let s := hbmRetireWrite s (fput w.toNat HBM_RETIRE_CTL.GO 1)
    let k := fget w.toNat HBM_RETIRE_CTL.CHANNEL
    if s.fld .HBM_REGION [k] HBM_REGION.STATE = 1 then regionEmpty s k else s)

/-- Nothing that must leave a region is left in it. -/
def regionClear (s : State) (k : Nat) : Bool :=
  !((ptPages s).any (fun p => let e := ptEntry s p; !peLoc e && frameRegion s (peFrame e) == k)) &&
  !(s.plc.moves.any (fun m => !m.toFar && frameRegion s m.dst == k)) &&
  frameRegion s (ptBase s / 2097152) != k && frameRegion s (objBase s / 2097152) != k

/-- REGION_REFORM (R314 event 3): HOLD_CNT is 0 and the region has been emptied. A retiring region that still holds
pages is emptied on. -/
def execRegionReform (k : Nat) (s : State) : Host.Outcome State Fault Refusal :=
  whenLive s (
    if k < 32 ∧ s.fld .HBM_REGION [k] HBM_REGION.STATE = 1 then
      if holdCount s k = 0 ∧ regionClear s k then s.setFld .HBM_REGION [k] HBM_REGION.STATE 2 else regionEmpty s k
    else s)

/-- REGION_REFORM_DONE (R314 events 4 and 5): the pending stacks leave, the region holds zeros under class C, and the
region map is committed. -/
def execRegionReformDone (k : Nat) (s : State) : Host.Outcome State Fault Refusal :=
  whenLive s (
    if k < 32 ∧ s.fld .HBM_REGION [k] HBM_REGION.STATE = 2 then
      let pend := s.fld .HBM_REGION [k] HBM_REGION.PEND
      let inK (p : Nat) : Bool := p / gib2 % 32 == k
      let fr := regionFrames s k
      let s := fr.foldl (fun s f => setFrameClass s f true) s
      let s := { s with mem := { s.mem with
        hbm := s.mem.hbm.filter (fun e => !inK e.1)
        pz := s.mem.pz.filter (fun x => !inK (x * 32))
        er := s.mem.er.filter (fun e => !inK (e.1 * 32))
        odd := s.mem.odd.filter (fun x => !inK (x * 32))
        patF := s.mem.patF.filter (fun f => !fr.contains f)
        frmD := s.mem.frmD.filter (fun f => !fr.contains f) } }
      let s := { s with plc := { s.plc with fw := s.plc.fw.filter (fun f => !fr.contains f) } }
      let live := s.fld .HBM_REGION [k] HBM_REGION.LIVE
      let s := s.setFld .HBM_REGION [k] HBM_REGION.LIVE (live - (live &&& pend))
      let s := (s.setFld .HBM_REGION [k] HBM_REGION.PEND 0).setFld .HBM_REGION [k] HBM_REGION.STATE 0
      let s := ((List.range 12).filter (fun i => (pend >>> i) % 2 = 1)).foldl (fun s i =>
        (s.setFld .HBM_STK_STAT [i] HBM_STK_STAT.CH_RETIRED
          (s.fld .HBM_STK_STAT [i] HBM_STK_STAT.CH_RETIRED ||| 2 ^ k)).commit .HBM_STK_STAT [i]) s
      let s := (s.commit .HBM_REGION [k]).counted
      plcRun s
    else s)

/-! Translations (R55). -/

/-- A write of ATTR_INVAL. -/
def attrInvalWrite (s : State) (eff : Nat) : State :=
  if fget eff ATTR_INVAL.GO = 1 then
    if s.bit .ATTR_INVAL [] ATTR_INVAL.BUSY then discardReg s .ATTR_INVAL []
    else
      let s := (s.plain .ATTR_INVAL [] eff).setFld .ATTR_INVAL [] ATTR_INVAL.BUSY 1
      { s with plc := { s.plc with
          inval := if fget eff ATTR_INVAL.ALL = 1 then 1048576 else fget eff ATTR_INVAL.PAGE_IDX } }
  else s.plain .ATTR_INVAL [] eff

/-- ATTR_INVAL. -/
def execAttrInval (w : BitVec 64) (s : State) : Host.Outcome State Fault Refusal :=
  whenLive s (attrInvalWrite s (fput w.toNat ATTR_INVAL.GO 1))

/-- ATTR_INVAL_DONE: old entries of what GO named are used no more. -/
def execAttrInvalDone (s : State) : Host.Outcome State Fault Refusal :=
  whenLive s (
    if s.bit .ATTR_INVAL [] ATTR_INVAL.BUSY then
      let i := s.plc.inval
      let all := i == 1048576
      let s := s.setFld .ATTR_INVAL [] ATTR_INVAL.BUSY 0
      { s with
        mem := { s.mem with stale := if all then [] else mdel s.mem.stale i }
        plc := { s.plc with expired := s.plc.expired.filter (fun p =>
          !((all || p == i) && !peMoving (ptEntry s p))) } }
    else s)

end Sys2Proof.Machine
end

