-- ==== Sys2Proof/Machine/Trestle.lean ====
section
/-!
DEFINITION. Machine/Trestle.lean: the Trestle engines (R337 to R349): rings, layers, misses and shadows, line
retries, and the writes of their registers.
-/

namespace Sys2Proof.Machine

/-! Registers. -/

/-- Slots of a Trestle ring (layout of LAT_Q_BASE). -/
def trSize (s : State) (p : Nat) : Nat := 2 ^ s.fld .TR_Q_BASE [p] LAT_Q_BASE.LOG2_SIZE

/-- A write of TR_DB (R340): as for a Lattice queue. -/
def trDbWrite (s : State) (p eff : Nat) : State :=
  let tail := fget eff LAT_DB.TAIL
  let size := trSize s p
  if ¬ s.bit .TR_CTL [p] TR_CTL.EN ∨ size ≤ tail then discardReg s .TR_DB [p]
  else
    let x := s.trs p
    s.setTrs p { x with tail := tail, posted := x.posted + (tail + size - x.tail) % size }

/-- A software write of a Trestle register, which needs the policy (R351). -/
def trSoft (s : State) (r : RegId) (p : Nat) (k : State) : State := if s.owned 2 then k else discardReg s r [p]

/-- TR_DOORBELL. -/
def execTrDoorbell (span : Nat) (w : BitVec 64) (s : State) : Host.Outcome State Fault Refusal :=
  whenLive s (if span < 8 then trSoft s .TR_DB span (trDbWrite s span w.toNat) else s)

/-- A write of TR_Q_BASE. -/
def trBaseWrite (s : State) (p eff : Nat) : State :=
  let n := fget eff LAT_Q_BASE.LOG2_SIZE
  if s.bit .TR_CTL [p] TR_CTL.EN ∨ n < 4 ∨ 12 < n then discardReg s .TR_Q_BASE [p]
  else s.plain .TR_Q_BASE [p] eff

/-- A write of TR_WIN (R338). -/
def trWinWrite (s : State) (p eff : Nat) : State :=
  if trBusy s p ∨ fget eff TR_WIN.SLOTS < 2 then discardReg s .TR_WIN [p] else s.plain .TR_WIN [p] eff

/-- A write of TR_SYNC. -/
def trSyncWrite (s : State) (p eff : Nat) : State :=
  if trBusy s p then discardReg s .TR_SYNC [p] else s.plain .TR_SYNC [p] eff

/-- A counter zeroed by GO. -/
def zeroCtr (s : State) (home idx : Nat) : State := wakeCtr (s.setCtr home idx Ctr.zero) home idx

/-- GO (R342): numbering restarts, the counters are zeroed and T(-1) is recorded; layers of the old numbering get no
status any more. -/
def trGo (s : State) (p : Nat) : State :=
  let sy := s.rd .TR_SYNC [p]
  let s := zeroCtr (zeroCtr (zeroCtr s p (fget sy TR_SYNC.START_IDX)) p (fget sy TR_SYNC.READY_IDX)) p
    (fget sy TR_SYNC.DONE_IDX)
  let s := (List.range 64).foldl (fun s i =>
    let x := s.tile (64 * p + i)
    if x.wants.isEmpty then s else s.setTile (64 * p + i) { x with wants := [] }) s
  s.setTrs p { s.trs p with go := true, next := 0, times := [(0, s.rd .SPAN_AC_CNT [p])], stats := [], inst := [] }

/-- A write of TR_CTL (R342, R349). Setting EN starts the ring afresh (assumption 28). -/
def trCtlWrite (s : State) (p eff : Nat) : State :=
  let go := fget eff TR_CTL.GO = 1
  if go ∧ trBusy s p then discardReg s .TR_CTL [p]
  else
    let en := s.bit .TR_CTL [p] TR_CTL.EN
    let was := s.bit .TR_CTL [p] TR_CTL.DISABLE
    let s := s.plain .TR_CTL [p] eff
    let x := s.trs p
    let x : TrSpan := if !en && s.bit .TR_CTL [p] TR_CTL.EN then
      { x with tail := 0, posted := 0, started := 0, tries := 0, cut := none } else x
    let dis := s.bit .TR_CTL [p] TR_CTL.DISABLE
    let x : TrSpan :=
      if dis && !was then
        { x with
          cut := some x.posted
          run := if s.bit .TR_CTL [p] TR_CTL.ABORT_EN then
            x.run.map (fun (l : TrLayer) => { l with stat := statFold l.stat 0x01 }) else x.run }
      else if !dis then { x with cut := none }
      else x
    let s := s.setTrs p x
    if go then trGo s p else s

/-- TRESTLE_GO. -/
def execTrestleGo (span : Nat) (w : BitVec 64) (s : State) : Host.Outcome State Fault Refusal :=
  whenLive s (if span < 8 then trSoft s .TR_CTL span (trCtlWrite s span (fput w.toNat TR_CTL.GO 1)) else s)

/-- TRESTLE_DISABLE. -/
def execTrestleDisable (span : Nat) (w : BitVec 64) (s : State) : Host.Outcome State Fault Refusal :=
  whenLive s (if span < 8 then trSoft s .TR_CTL span (trCtlWrite s span (fput w.toNat TR_CTL.DISABLE 1)) else s)

/-! Descriptors. -/

/-- Slot size in bytes. -/
def trSlot (s : State) (p : Nat) : Nat := s.fld .TR_WIN [p] TR_WIN.SLOT_128K * 131072
/-- SLOTS. -/
def trSlots (s : State) (p : Nat) : Nat := s.fld .TR_WIN [p] TR_WIN.SLOTS

/-- The limits of the window (R338). -/
def trWinOk (s : State) (p : Nat) : Bool :=
  let u := s.fld .TR_WIN [p] TR_WIN.SLOT_128K
  let n := trSlots s p * u
  (trSlots s p == 2 || trSlots s p == 3) && decide (1 ≤ u) && decide (u ≤ 128) && decide (n ≤ 256) &&
  decide (n ≤ s.fld .SPAN_CACHE_CTL [p] SPAN_CACHE_CTL.SKEIN_WAYS * 24)

/-- The limits of a byte range of a layer in an object. -/
def trRangeOk (s : State) (p id off len : Nat) : Bool :=
  objValid s id && off % 128 == 0 && len % 128 == 0 && decide (128 ≤ len) && decide (len ≤ trSlot s p) &&
  decide (off + len ≤ objPages s id * 2097152)

/-- Pages of an object's byte range. -/
def objRange (s : State) (id off len : Nat) : List Nat :=
  if len = 0 then []
  else (List.range ((off + len - 1) / 2097152 - off / 2097152 + 1)).map (fun i => objPage s id + off / 2097152 + i)

/-- The checks of R341. -/
def trDescOk (s : State) (p : Nat) (ws : List (BitVec 64)) : Bool :=
  let obj := dW ws 0 15 0
  let ctx := dW ws 0 31 24
  let off := dW ws 1 39 0
  let len := dW ws 2 31 0
  dW ws 0 23 17 == 0 && dW ws 0 55 32 == 0 && dW ws 1 63 40 == 0 && dW ws 3 63 56 == 0 && dW ws 4 63 32 == 0 &&
  dW ws 5 63 42 == 0 && dW ws 6 63 0 == 0 && dW ws 7 63 0 == 0 &&
  trWinOk s p && trRangeOk s p obj off len &&
  (objCtx s obj == ctx || (objRange s obj off len).all (fun q => peShared (ptEntry s q))) &&
  (dW ws 0 16 16 == 0 ||
    (trRangeOk s p (dW ws 3 15 0) (dW ws 3 55 16) (dW ws 4 31 0) && objPolicy s (dW ws 3 15 0) == 0 &&
      objCtx s (dW ws 3 15 0) == ctx))

/-- POISONED of an object. -/
def objPoisoned (s : State) (id : Nat) : Bool := (objWord s id 0).getLsbD 54

/-- The slot at the head of a ring. The ring belongs to no context: it is read as firmware reads (assumption 30). -/
def trHead (s : State) (p : Nat) : Option (List (BitVec 64)) :=
  let a := s.fld .TR_Q_BASE [p] LAT_Q_BASE.BASE * 64 + (s.trs p).started % trSize s p * 64
  let read (i : Nat) : Option (BitVec 64) :=
    match (decLocal s .fw (a + 8 * i) false).1 with
    | .ok (.line l _) _ => some ((peekLine s l).data.extractLsb' ((a + 8 * i) % 128 * 8) 64)
    | .ok (.win t o) _ => some (BitVec.ofNat 64 (leNat (mread (s.tile t).mem o 8)))
    | _ => none
  (List.range 8).foldl (fun acc i =>
    match acc, read i with
    | some l, some w => some (l ++ [w])
    | _, _ => none) (some [])

/-- Whether the next layer may start (R337): enabled, numbered, posted, and its slot free. A layer that DISABLE keeps from
starting needs no slot, so that no tile waits for ever (R349). -/
def trReady (s : State) (p : Nat) : Bool :=
  let x := s.trs p
  decide (p < 8) && s.bit .TR_CTL [p] TR_CTL.EN && !hostGone s && x.go && decide (x.started < x.posted) &&
  (x.cut.isSome || decide (x.next < trSlots s p) || decide (x.next - trSlots s p < trReleased s p))

/-- The next descriptor becomes layer `next` with a status (0 = to be fetched). -/
def trStart (s : State) (p : Nat) (ws : List (BitVec 64)) (stat : Nat) : State :=
  let x := s.trs p
  s.setTrs p { x with started := x.started + 1, tries := 0, next := x.next + 1,
                      run := x.run ++ [⟨x.next, ws, stat, false, false, []⟩] }

/-- TRESTLE_SEQ_REREAD (R222, R340): after 8 re-reads the slot becomes a layer with STALE_COMMAND. A slot that cannot
be read is taken for one of zeros (assumption 30). -/
def execTrestleSeqReread (span : Nat) (s : State) : Host.Outcome State Fault Refusal :=
  whenLive s (
    let x := s.trs span
    if !trReady s span || x.cut.isSome then s
    else
      let ws := (trHead s span).getD []
      if dW ws 0 63 56 = x.started % 256 ∧ (trHead s span).isSome then s
      else if x.tries + 1 < 8 then s.setTrs span { x with tries := x.tries + 1 }
      else trStart s span ws 0x06)

/-- TRESTLE_LAYER_FETCH (R337): the next layer starts, or becomes a layer that is not fetched (R341, R348, R349). -/
def execTrestleLayerFetch (span : Nat) (s : State) : Host.Outcome State Fault Refusal :=
  whenLive s (
    let x := s.trs span
    if !trReady s span then s
    else match x.cut, trHead s span with
      | some c, ws => trStart s span (ws.getD []) (if x.started < c then 0x01 else 0x09)
      | none, none => s
      | none, some ws =>
        if dW ws 0 63 56 ≠ x.started % 256 then s
        else if !trDescOk s span ws then trStart s span ws 0x0E
        else if objPoisoned s (dW ws 0 15 0) || (dW ws 0 16 16 == 1 && objPoisoned s (dW ws 3 15 0)) then
          trStart s span ws 0x04
        else trStart s span ws 0)

/-! Misses. -/

/-- Whether M(n) has come (`strict` = false) or has passed (R344). -/
def trMissAt (s : State) (p : Nat) (l : TrLayer) (strict : Bool) : Bool :=
  let x := s.trs p
  let now := s.rd .SPAN_AC_CNT [p]
  let due (t : Nat) : Bool := decide (t < now) || (!strict && t == now)
  let dl := dW l.words 2 63 32
  (match mfind x.times (l.n + 1) with
   | some t => due t
   | none => false) ||
  (dl != 0 && match mfind x.times l.n with
   | some t => due (t + dl)
   | none => false)

/-- A layer changed. -/
def trMap (s : State) (p n : Nat) (f : TrLayer → TrLayer) : State :=
  s.setTrs p { s.trs p with run := (s.trs p).run.map (fun l => if l.n = n then f l else l) }

/-- A miss (R344 to R346). -/
def trMiss (s : State) (p : Nat) (l : TrLayer) : State :=
  let s := (s.satInc .TR_STAT [p] TR_STAT.MISS_CNT 1).setFld .TR_FLAGS [p] TR_FLAGS.DL_MISS 1
  if dW l.words 0 16 16 = 1 then
    let s := (s.satInc .TR_STAT [p] TR_STAT.SHADOW_CNT 1).setFld .TR_FLAGS [p] TR_FLAGS.SHADOW 1
    trMap s p l.n (fun l => { l with missed := true, shadow := true, got := [] })
  else trMap s p l.n (fun l => { l with missed := true })

/-- TRESTLE_MISS. -/
def execTrestleMiss (span n : Nat) (s : State) : Host.Outcome State Fault Refusal :=
  whenLive s (
    match (s.trs span).run.find? (fun l => l.n == n) with
    | none => s
    | some l => if l.stat = 0 ∧ ¬ l.missed ∧ trMissAt s span l false then trMiss s span l else s)

/-! Lines. -/

/-- The object and byte range a layer fetches. -/
def trSrc (l : TrLayer) : Nat × Nat × Nat :=
  if l.shadow then (dW l.words 3 15 0, dW l.words 3 55 16, dW l.words 4 31 0)
  else (dW l.words 0 15 0, dW l.words 1 39 0, dW l.words 2 31 0)

/-- A line installed in the Skein ways (R339): an invalid way, then one of a released layer; else it spills. -/
def fillSkein (s : State) (p line n st : Nat) (v : LineVal) : Option State :=
  let inSet := setLines s p line
  let ws := waysOf s p true
  let note (s : State) : State := s.setTrs p { s.trs p with inst := mins (s.trs p).inst line n }
  match ws.filter (fun w => !inSet.any (fun e => e.2.way == w)) with
  | w :: _ => some (note (putLine s p line ⟨st, v, w, true⟩))
  | [] =>
    let old (e : Nat × CLine) : Bool := ws.contains e.2.way && canLeave s (e.1 % 2 ^ 48) e.2 &&
      !rsvNeeds s p (e.1 % 2 ^ 48) &&
      (match mfind (s.trs p).inst (e.1 % 2 ^ 48) with
       | some k => decide (k < trReleased s p)
       | none => true)
    match inSet.find? old with
    | none => none
    | some e =>
      if 3 ≤ e.2.st ∧ 512 ≤ vebLen s p then none
      else some (note (putLine (evictLine s p (e.1 % 2 ^ 48)) p line ⟨st, v, e.2.way, true⟩))

/-- One line of a layer read and installed; its poison. `none` = it has not arrived. -/
def trLine (s : State) (p : Nat) (l : TrLayer) (off : Nat) (ext : Ext) : Option (State × Bool × Nat) :=
  let (id, _, _) := trSrc l
  let a := objPage s id * 2097152 + off
  match decLocal s (.eng (dW l.words 0 31 24) (unitSpan p 0x51)) a false with
  | (.ok (.line ln _) act, s) =>
    let s := touch s act
    match hitLine s p ln, mfind l.got off with
    | (s, some c), _ => some (s, c.v.pz != 0, 0)
    | (s, none), g =>
      let far := isFar ln
      let bad := far && (!hostUp s || ext.status != 0 || ext.poison.contains (farAddr ln))
      if !wholeGo s (if spanOn s p then .rds else .rdo) p ln || (bad && g.isNone) then none
      else match (if spanOn s p then dirRoom s ln else none) with
        | none =>
          let (s, v) := match g with
            | some v => (s, v)
            | none => serveRdo s ln ext
          if v.er ≠ 0 ∧ ¬ far then some (consume s (ln * 4), false, 0)
          else some (s.satInc .TR_STAT [p] TR_STAT.SPILL_CNT 1, v.pz != 0, 0)
        | some s =>
          let (s, v, gr) := serveRds s p ln ext
          let v := g.getD v
          if v.er ≠ 0 ∧ ¬ far then some (consume s (ln * 4), false, 0)
          else match fillSkein s p ln l.n gr v with
            | some s => some (s, v.pz != 0, 0)
            | none =>
              some ((if gr = 1 then s else serveEvc s p ln).satInc .TR_STAT [p] TR_STAT.SPILL_CNT 1, v.pz != 0, 0)
  | (.held, _) => none
  | (_, s) => some (logFail s (.eng (dW l.words 0 31 24) (unitSpan p 0x51)) a, false, 0x0E)

/-- The lines of a layer in order: whether any was poisoned, and the first failing status (R510). -/
def trLines (s : State) (p : Nat) (l : TrLayer) (offs : List Nat) (ext : Ext) : Option (State × Bool × Nat) :=
  match offs with
  | [] => some (s, false, 0)
  | o :: r =>
    match trLine s p l o ext with
    | none => none
    | some (s, b, st) =>
      match trLines s p l r ext with
      | none => none
      | some (s, b', st') => some (s, b || b', firstStat st st')

/-- The byte offsets of a layer's lines in its object. -/
def trOffs (l : TrLayer) : List Nat :=
  let (_, off, len) := trSrc l
  (List.range (len / 128)).map (fun i => off + i * 128)

/-- A layer ends with a status (R342, R343): its status word, unless its slot could not be read, then READY. `none` = the write must wait. -/
def trEnd (s : State) (p : Nat) (l : TrLayer) (stat : Nat) (ext : Ext) : Option State :=
  let w := stat + b2n l.shadow * 256 + l.n % 2 ^ 32 * 2 ^ 16
  (if l.words.isEmpty then some (s, 0)
   else engWrite s (dW l.words 0 31 24) (unitSpan p 0x51) false false (dW l.words 5 41 0) (leBytes 8 w) [] ext).map (fun q =>
    let s := q.1
    let x := s.trs p
    let st := stat + b2n l.missed * 256 + b2n l.shadow * 512
    let s := s.setTrs p { x with run := x.run.filter (fun y => y.n != l.n), stats := mins x.stats l.n st }
    let s := (List.range 64).foldl (fun s i =>
      let y := s.tile (64 * p + i)
      if y.wants.contains l.n then s.setTile (64 * p + i) { y.tookLayer st with wants := sdel y.wants l.n } else s) s
    sigAdd s p (s.fld .TR_SYNC [p] TR_SYNC.READY_IDX))

/-- TRESTLE_LAYER_READY (R342): the oldest layer in flight has arrived or has failed. A miss point that has passed
applies first. -/
def execTrestleLayerReady (span : Nat) (ext : Ext) (s : State) : Host.Outcome State Fault Refusal :=
  whenLive s (
    match (s.trs span).run with
    | [] => s
    | l :: _ =>
      if l.stat ≠ 0 then (trEnd s span l l.stat ext).getD s
      else
        let s1 := if !l.missed && trMissAt s span l true then trMiss s span l else s
        match (s1.trs span).run with
        | [] => s
        | l :: _ =>
          match trLines s1 span l (trOffs l) ext with
          | none => s1
          | some (s2, bad, st) =>
            if s2.live then
              let st := statFold st (if bad then 0x04 else 0)
              let st := statFold st (if l.shadow then 0x05 else if l.missed then 0x0B else 0)
              (trEnd s2 span l st ext).getD s1
            else s2)

/-- TRESTLE_LINE_RETRY (R348): the read of a far line of layer n has failed; `again` answers its one retry and `rep`
the read of the replica. -/
def execTrestleLineRetry (span n off : Nat) (again rep : Ext) (s : State) : Host.Outcome State Fault Refusal :=
  whenLive s (
    match (s.trs span).run.find? (fun l => l.n == n) with
    | none => s
    | some l =>
      let (id, _, _) := trSrc l
      if l.stat ≠ 0 ∨ ¬ (trOffs l).contains off ∨ (mfind l.got off).isSome then s
      else match (decLocal s (.eng (dW l.words 0 31 24) (unitSpan span 0x51)) (objPage s id * 2097152 + off) false).1 with
        | .ok (.line ln _) _ =>
          if !isFar ln then s
          else
            let s0 := s
            let s := s.satInc .TR_STAT [span] TR_STAT.RETRY_CNT 1
            let put (s : State) (v : LineVal) : State := trMap s span n (fun l => { l with got := mins l.got off v })
            if hostUp s ∧ again.status = 0 ∧ ¬ again.poison.contains (farAddr ln) then put s (extLine again (farAddr ln))
            else
              let r := (objWord s id 1).toNat
              let s := if r = 0 then s else s.setFld .TR_FLAGS [span] TR_FLAGS.REPLICA_USED 1
              match repLine s r off rep with
              | none => s0
              | some (s, some v) => put s v
              | some (s, none) =>
                let s := setObjWord s id 0 (objWord s id 0 ||| BitVec.ofNat 64 (2 ^ 54))
                let s := s.setFld .TR_FLAGS [span] TR_FLAGS.POISON 1
                let (v, s) := freeLine s
                put s { v with pz := BitVec.allOnes 4, er := 0 }
        | _ => s)

end Sys2Proof.Machine
end

