-- ==== Sys2Proof/Machine/Rings.lean ====
section
/-!
DEFINITION. Machine/Rings.lean: command rings and queue service (R359 to R369): rings and their registers, doorbells,
the sequence check, dispatches from start to completion, abort and disable.
-/

namespace Sys2Proof.Machine

/-! Rings. -/

/-- A ring without work. -/
def Ring.zero : Ring := ⟨0, 0, 0, 0, [], 0, [], none⟩
/-- A ring. -/
def State.ring (s : State) (r : Nat) : Ring := mget Ring.zero s.q.rings r

/-- Slots of a ring. -/
def ringSize (s : State) (r : Nat) : Nat := 2 ^ s.fld .RING_BASE [r] RING_BASE.LOG2_SIZE

/-- Whether a dispatch of a ring is running; a MARKER does no work. -/
def ringRuns (s : State) (r : Nat) : Bool := s.q.disps.any (fun d => d.ring == r && dW d.words 0 7 0 == 1)

/-- RING_STAT: HEAD, BUSY and DISABLE_PENDING follow the ring. -/
def ringSync (s : State) (r : Nat) : State :=
  let x := s.ring r
  let run := ringRuns s r
  let s := s.setFld .RING_STAT [r] RING_STAT.HEAD (x.read % ringSize s r)
  let s := s.setFld .RING_STAT [r] RING_STAT.BUSY (b2n (run || x.tries != 0))
  s.setFld .RING_STAT [r] RING_STAT.DISABLE_PENDING (b2n (run && s.bit .RING_CTL [r] RING_CTL.DISABLE))

/-- A ring written back; the wait of R365 belongs to its head, and ends with it. -/
def State.setRing (s : State) (r : Nat) (x : Ring) : State :=
  let starve := if ((s.ring r).elig.head?).map (·.1) = (x.elig.head?).map (·.1) then s.q.starve else sdel s.q.starve r
  ringSync { s with q := { s.q with rings := mset Ring.zero s.q.rings r x, starve := starve } } r

/-- A ring that has stopped. -/
def ringStopped (s : State) (r : Nat) : Bool := s.bit .RING_STAT [r] RING_STAT.STOPPED

/-- Whether a ring is host-bound (R359). -/
def hostBound (s : State) (r : Nat) : Bool := s.bit .RING_BASE [r] RING_BASE.HOST || s.bit .RING_CPL [r] RING_CPL.HOST

/-- A ring stops with a status (R362, R363, R371). -/
def ringStop (s : State) (r st : Nat) : State :=
  let s := s.setFld .RING_STAT [r] RING_STAT.STOPPED 1
  let s := s.setFld .RING_STAT [r] RING_STAT.STOP_STATUS st
  s.setFld .RING_STAT [r] RING_STAT.STOP_SEQ (s.ring r).low

/-! Recording (R366, R367). -/

/-- The lowest unrecorded number advances over recorded ones. -/
def advLow (n low : Nat) (recs : List Nat) : Nat × List Nat :=
  match n with
  | 0 => (low, recs)
  | n + 1 => if recs.contains low then advLow n (low + 1) (sdel recs low) else (low, recs)

/-- A number recorded. -/
def Ring.record (x : Ring) (num : Nat) : Ring :=
  let recs := sins x.recs num
  let (l, rs) := advLow (recs.length + 1) x.low recs
  { x with low := l, recs := rs }

/-- Whether a number has a recorded completion. -/
def Ring.recorded (x : Ring) (num : Nat) : Bool := decide (num < x.low) || x.recs.contains num

/-- A completion word written by KMH3 (R366, R509), in device or host memory; `none` = the write must wait. -/
def writeCpl (s : State) (o : Owed) : Option State :=
  let bs := leBytes 8 o.word
  let s' :=
    if o.host then (writePiece s .none_ (.line (2 ^ 47 + o.addr / 128) 0) 0 o.addr bs false true ⟨[], [], 0⟩).map (·.1)
    else match decLocal s .fw o.addr true with
      | (.ok (.reg _) _, s) => some (logFail s .fw o.addr)
      | (.ok t act, s) => (writePiece s .none_ t act o.addr bs false true ⟨[], [], 0⟩).map (·.1)
      | (.held, _) => none
      | (_, s) => some (logFail s .fw o.addr)
  s'.map (fun s => match o.vec with
    | some v => hostIrq s v
    | none => s)

/-- A completion recorded and its word written, or still to be written (R366). The words of a host-bound ring that the
loss of the host has stopped are never written (R371). -/
def complete (s : State) (r num st bits : Nat) (int : Bool) : State :=
  let s := s.setRing r ((s.ring r).record num)
  if hostBound s r && ringStopped s r && s.fld .RING_STAT [r] RING_STAT.STOP_STATUS == 0x0A then s
  else
    let o : Owed := ⟨r, num, s.bit .RING_CPL [r] RING_CPL.HOST,
      s.fld .RING_CPL [r] RING_CPL.ADDR * 8 + num % ringSize s r * 8,
      st % 256 + bits % 256 * 2 ^ 8 + num % 2 ^ 32 * 2 ^ 32,
      if int && s.bit .RING_CTL [r] RING_CTL.INT_EN then some (s.fld .RING_CTL [r] RING_CTL.VEC) else none⟩
    match writeCpl s o with
    | some s => s
    | none => { s with q := { s.q with owed := s.q.owed ++ [o] } }

/-! Checks of descriptors and areas (R359, R361). -/

/-- Pages a byte range touches. -/
def pagesOf (a n : Nat) : List Nat :=
  if n = 0 then [] else (List.range ((a + n - 1) / 2097152 - a / 2097152 + 1)).map (fun i => a / 2097152 + i)

/-- One area of a ring (R359). -/
def areaOk (s : State) (a n ctx : Nat) (host wr : Bool) : Bool :=
  if host then true
  else if a + n ≤ 0x20000000000 then
    (pagesOf a n).all (fun p =>
      let e := ptEntry s p
      pageOk s (.eng ctx unitSvc) e wr && peRtype e != 2)
  else decide (0x20000000000 ≤ a) && decide (a + n ≤ 0x30000000000) &&
    s.fld .RAW_HBM_ATTR [] RAW_HBM_ATTR.RTYPE != 2 && (pieces a n).all (fun p => (rawResolve s (p.1 - 0x20000000000)).isSome)

/-- A program image where R131 and R361 allow it. -/
def progOk (s : State) (a n : Nat) : Bool :=
  a % 64 == 0 &&
  ((decide (a + n ≤ 0x20000000000) && (pagesOf a n).all (fun p => !peLoc (ptEntry s p))) ||
   (decide (0x20000000000 ≤ a) && decide (a + n ≤ 0x30000000000)))

/-- Whether a Span may be used under SPAN_MASK. -/
def inMask (mask p : Nat) : Bool := mask == 0 || (mask >>> p) % 2 == 1

/-- Whether a tile is excluded from queue service (R386). -/
def excluded (s : State) (t : Nat) : Bool :=
  (s.fld .KST_QS_EXCL_ACT [t / 64] KST_QS_EXCL_ACT.EXCL_ACT >>> (t % 64)) % 2 == 1

/-- A window inside the window of a valid registration of a context. -/
def winInside (s : State) (ctx w : Nat) : Bool :=
  (List.range 64).any (fun n =>
    let v := s.rd .KST_COLL_WIN [n]
    let inn (h : Nat) : Bool :=
      let (b, c) := winOf w h
      let (b', c') := winOf v h
      c == 0 || (decide (b' ≤ b) && decide (b + c ≤ b' + c'))
    collValid s n && collCtx s n == ctx && inn 0 && inn 8)

/-- The window word of a descriptor with given bases (layout of TILE_STAY_WIN). -/
def winWord (sb sc kb kc : Nat) : Nat :=
  fput (fput (fput (fput 0 TILE_STAY_WIN.SPAN_BASE sb) TILE_STAY_WIN.SPAN_COUNT sc) TILE_STAY_WIN.KST_BASE kb)
    TILE_STAY_WIN.KST_COUNT kc

/-- Whether a descriptor asks for no more tiles of SPAN_MASK than are neither lost nor excluded (R361, R386). -/
def headFits (s : State) (ws : List (BitVec 64)) : Bool :=
  decide (dW ws 4 28 20 + 1 ≤
    ((List.range 512).filter (fun t => inMask (dW ws 4 36 29) (t / 64) && !tileLost s t && !excluded s t)).length)

/-- The checks of R361 and R386 on a descriptor whose SEQ matches. -/
def ringDescOk (s : State) (r : Nat) (ws : List (BitVec 64)) : Bool :=
  let kind := dW ws 0 7 0
  let tail := dW ws 0 31 10 == 0 && dW ws 6 63 0 == 0 && dW ws 7 63 0 == 0
  if kind = 2 then tail && (List.range 5).all (fun i => dW ws (i + 1) 63 0 == 0)
  else
    let sc := dW ws 5 10 0
    let kc := dW ws 5 23 11
    let sb := dW ws 5 34 25
    let kb := dW ws 5 46 35
    let fixed := dW ws 5 24 24 == 1
    kind == 1 && tail && dW ws 1 63 54 == 0 && dW ws 4 19 17 == 0 && dW ws 4 63 37 == 0 && dW ws 5 63 47 == 0 &&
    decide (1 ≤ dW ws 1 53 42) && decide (dW ws 1 53 42 ≤ 2048) &&
    progOk s (dW ws 1 41 0) (dW ws 1 53 42 * 64) && dW ws 4 16 0 % 8 == 0 &&
    headFits s ws &&
    decide (sc ≤ 1024) && decide (kc ≤ 4096) &&
    (!fixed || (decide (sb + sc ≤ 1024) && decide (kb + kc ≤ 4096) &&
      winInside s (s.fld .RING_CTL [r] RING_CTL.CTX_ID) (winWord sb sc kb kc)))

/-! Registers. -/

/-- Work posted but not started, recorded with a status (R369, R375). -/
def recordPosted (s : State) (r st : Nat) : State :=
  let x := s.ring r
  let nums := x.elig.map (·.1) ++ (List.range (x.posted - x.read)).map (fun i => x.read + i)
  let int (n : Nat) : Bool := match x.elig.find? (fun e => e.1 == n) with
    | some e => dW e.2 0 9 9 == 1
    | none => false
  let s := s.setRing r { x with elig := [], read := x.posted, tries := 0 }
  (nums.filter (fun n => !x.recorded n)).foldl (fun s n => complete s r n st 0 (int n)) s

/-- Queue service works: KMH3 runs (R380) and the module is not Parked (R373). -/
def qsAlive (s : State) : Bool :=
  hartRuns s 3 && !s.bit .KST_PARK [] KST_PARK.PARKED

/-- Queue service may start work: R371 and R453 do not stop it. -/
def qsRuns (s : State) : Bool :=
  qsAlive s && !s.bit .KST_PARK [] KST_PARK.DRAINING && !s.bit .KST_RAS_STAT [] KST_RAS_STAT.STORM

/-- The eligible head of a ring that may start. -/
def ringHead (s : State) (r : Nat) : Option (Nat × List (BitVec 64)) :=
  if s.bit .RING_CTL [r] RING_CTL.EN && !ringStopped s r then (s.ring r).elig.head? else none

/-- An eligible head that is a MARKER starts (R360, R364). -/
def markerStart (s : State) (r : Nat) : State :=
  match (if qsRuns s then ringHead s r else none) with
  | none => s
  | some (num, ws) =>
    if dW ws 0 7 0 ≠ 2 then s
    else
      let id := s.q.last + 1
      let d : Disp := ⟨id, r, num, ws, [], 0, none, 0, [], 0, false, false⟩
      let x := s.ring r
      let s := { s with q := { s.q with disps := s.q.disps ++ [d], last := id } }
      s.setRing r { x with elig := x.elig.drop 1 }

/-- Every MARKER that has become the eligible head of a ring has started, one after the other. -/
def markersStart (s : State) (r : Nat) : State :=
  (s.ring r).elig.foldl (fun s _ => markerStart s r) s

/-- The effect of DISABLE going to 1 (R369): a MARKER that has become the eligible head is not cut off. -/
def ringDisableGo (s : State) (r : Nat) : State :=
  let s := recordPosted (markersStart s r) r 0x01
  let s := s.setRing r { s.ring r with cut := some (s.ring r).posted }
  if s.bit .RING_CTL [r] RING_CTL.ABORT_EN then
    (s.q.disps.filter (fun d => d.ring == r)).foldl (fun s d =>
      endDisp (mapDisp s d.id (fun d => d.forced 0x01)) d.id 0x01 none) s
  else s

/-- A write of RING_CTL (R359, R362, R369). CTX_ID takes a written value only while EN = 0; a write of EN = 0 stops
reading and starting, and leaves running work alone (assumption 31). -/
def ringCtlWrite (s : State) (r eff : Nat) : State :=
  let en := s.bit .RING_CTL [r] RING_CTL.EN
  let dis := s.bit .RING_CTL [r] RING_CTL.DISABLE
  let new := fget eff RING_CTL.EN == 1
  if dis && fget eff RING_CTL.DISABLE == 0 && ringRuns s r then discardReg s .RING_CTL [r]
  else
    let eff := if en then fput eff RING_CTL.CTX_ID (s.fld .RING_CTL [r] RING_CTL.CTX_ID) else eff
    let ctx := fget eff RING_CTL.CTX_ID
    let n := ringSize s r
    let ok := areaOk s (s.fld .RING_BASE [r] RING_BASE.ADDR * 64) (64 * n) ctx (s.bit .RING_BASE [r] RING_BASE.HOST) false &&
      areaOk s (s.fld .RING_CPL [r] RING_CPL.ADDR * 8) (8 * n) ctx (s.bit .RING_CPL [r] RING_CPL.HOST) true
    if new && !en && !ok then discardReg (s.setFld .RING_STAT [r] RING_STAT.ERR 1) .RING_CTL [r]
    else
      let s := (s.plain .RING_CTL [r] eff).setFld .RING_STAT [r] RING_STAT.ERR 0
      let s := if new then s else s.setFld .RING_STAT [r] RING_STAT.STOPPED 0
      let s := if new && !en then s.setRing r Ring.zero else s
      let dis' := s.bit .RING_CTL [r] RING_CTL.DISABLE
      if dis' && (!dis || (new && !en)) then ringDisableGo s r
      else if !dis' then s.setRing r { s.ring r with cut := none }
      else s

/-- A write of RING_BASE. -/
def ringBaseWrite (s : State) (r eff : Nat) : State :=
  let n := fget eff RING_BASE.LOG2_SIZE
  if s.bit .RING_CTL [r] RING_CTL.EN ∨ n < 4 ∨ 12 < n ∨
      (fget eff RING_BASE.HOST = 0 ∧ 2 ^ 36 ≤ fget eff RING_BASE.ADDR) then discardReg s .RING_BASE [r]
  else s.plain .RING_BASE [r] eff

/-- A write of RING_CPL. -/
def ringCplWrite (s : State) (r eff : Nat) : State :=
  if s.bit .RING_CTL [r] RING_CTL.EN then discardReg s .RING_CPL [r] else s.plain .RING_CPL [r] eff

/-- RING_ENABLE. -/
def execRingEnable (r : Nat) (w : BitVec 64) (s : State) : Host.Outcome State Fault Refusal :=
  whenLive s (if r < 4096 then ringCtlWrite s r (fput w.toNat RING_CTL.EN 1) else s)

/-- RING_EN_CLEAR. -/
def execRingEnClear (r : Nat) (w : BitVec 64) (s : State) : Host.Outcome State Fault Refusal :=
  whenLive s (if r < 4096 then ringCtlWrite s r (fput w.toNat RING_CTL.EN 0) else s)

/-- RING_DISABLE. -/
def execRingDisable (r : Nat) (w : BitVec 64) (s : State) : Host.Outcome State Fault Refusal :=
  whenLive s (if r < 4096 then ringCtlWrite s r (fput w.toNat RING_CTL.DISABLE 1) else s)

/-- A doorbell (R362). -/
def ringDbWrite (s : State) (r eff : Nat) : State :=
  let tail := fget eff RING_DB.TAIL
  let x := s.ring r
  let n := ringSize s r
  let new := (tail + n - x.tail) % n
  if ¬ s.bit .RING_CTL [r] RING_CTL.EN ∨ n ≤ tail ∨ ringStopped s r then discardReg s .RING_DB [r]
  else if n < x.posted - x.low - x.recs.length + new then discardReg (ringStop s r 0x0E) .RING_DB [r]
  else s.setRing r { x with tail := tail, posted := x.posted + new }

/-- RING_DOORBELL. -/
def execRingDoorbell (r : Nat) (w : BitVec 64) (s : State) : Host.Outcome State Fault Refusal :=
  whenLive s (if r < 4096 then ringDbWrite s r w.toNat else s)

/-! Reading slots (R363). -/

/-- The slot at HEAD: its words, or the status that stops the ring. `none` = the read must wait. -/
def ringSlot (s : State) (r : Nat) (ext : Ext) : Option (State × Nat × List (BitVec 64)) :=
  let a := s.fld .RING_BASE [r] RING_BASE.ADDR * 64 + (s.ring r).read % ringSize s r * 64
  let ws (bs : List (BitVec 8)) : List (BitVec 64) := (words8 bs).map (fun w => BitVec.ofNat 64 w)
  if s.bit .RING_BASE [r] RING_BASE.HOST then
    match readPiece s .none_ (.line (2 ^ 47 + a / 128) 0) 0 a 64 true ext with
    | none => none
    | some q => some (q.s, if q.stat ≠ 0 then q.stat else if q.poison then 0x04 else 0, ws q.bytes)
  else match engRead s (s.fld .RING_CTL [r] RING_CTL.CTX_ID) unitSvc false a 64 ext with
    | none => none
    | some (s, bs, pz, st) => some (s, if st ≠ 0 then st else if pz.any id then 0x04 else 0, ws bs)

/-- What follows a slot read; `again` = it is a re-read. -/
def slotRead (s : State) (r : Nat) (again : Bool) (ext : Ext) : State :=
  let x := s.ring r
  if ¬ (qsAlive s ∧ r < 4096 ∧ s.bit .RING_CTL [r] RING_CTL.EN ∧ !ringStopped s r ∧ x.read < x.posted ∧ (x.tries ≠ 0) = again) then s
  else match ringSlot s r ext with
    | none => s
    | some (s, st, ws) =>
      if !s.live then s
      else if st ≠ 0 then ringStop (s.setRing r { x with tries := 0 }) r st
      else
        let dis := x.cut.isSome
        let int := dW ws 0 9 9 == 1
        let next (s : State) : State := s.setRing r { s.ring r with read := x.read + 1, tries := 0 }
        if dW ws 0 63 32 ≠ x.read % 2 ^ 32 then
          if x.tries < 8 then s.setRing r { x with tries := x.tries + 1 }
          else complete (next s) r x.read (if dis then 0x09 else 0x06) 0 false
        else if dis then complete (next s) r x.read 0x09 0 int
        else if !ringDescOk s r ws then complete (next s) r x.read 0x0E 0 int
        else
          let s := next s
          s.setRing r { s.ring r with elig := (s.ring r).elig ++ [(x.read, ws)] }

/-- RING_SLOT_READ. -/
def execRingSlotRead (r : Nat) (ext : Ext) (s : State) : Host.Outcome State Fault Refusal :=
  whenLive s (slotRead s r false ext)

/-- RING_SLOT_REREAD. -/
def execRingSlotReread (r : Nat) (ext : Ext) (s : State) : Host.Outcome State Fault Refusal :=
  whenLive s (slotRead s r true ext)

/-! Starting (R364, R365). -/

/-- Spans kept for heads that have waited 1 ms before ring r's own. -/
def starvedSpans (s : State) (r : Nat) : List Nat :=
  (s.q.starve.takeWhile (· != r)).flatMap (fun o =>
    match ringHead s o with
    | some (_, ws) => (List.range 8).filter (inMask (dW ws 4 36 29))
    | none => [])

/-- Tiles queue service may take for a head, in ascending Span and tile number; while Tension holds its policy, those of
groups switched off count as available (R415). -/
def freeTiles (s : State) (r : Nat) (ws : List (BitVec 64)) : List Nat :=
  let av := starvedSpans s r
  (List.range 512).filter (fun t =>
    inMask (dW ws 4 36 29) (t / 64) && !av.contains (t / 64) && !excluded s t && s.tstate t == 0 &&
    !s.bit .TILE_CTL (tix t) TILE_CTL.DISABLE && !s.bit .TILE_STAT (tix t) TILE_STAT.RESETTING &&
    !tileLost s t && (tilePowered s t || !s.owned 0) && (s.tile t).retiring == 0 && !(s.tile t).started &&
    !s.ras.underTest.contains t)

/-- Windows in force: running dispatches and valid registrations (R361). -/
def winsTaken (s : State) : List Nat :=
  s.q.disps.map (·.win) ++ ((List.range 64).filter (collValid s)).map (fun n => s.rd .KST_COLL_WIN [n]) ++
  (s.tiles.filter (fun p => dispatching s p.1)).map (fun p => s.rd .TILE_STAY_WIN (tix p.1))

/-- A base for `n` counters free of the windows in force at a HOME; which one is a free choice. -/
def freeBase (s : State) (home n lim : Nat) : Option (Nat × State) :=
  if n = 0 then some (0, s)
  else
    let ws := (winsTaken s).map (fun w => winOf w home)
    match (List.range (lim + 1 - n)).filter (fun b => ws.all (fun w => !rangesMeet b n w.1 w.2)) with
    | [] => none
    | l => let (i, s) := s.freeNat l.length; some (l.getD i 0, s)

/-- The Stay window of a head (R361): its own, or one that queue service chooses. -/
def headWin (s : State) (ws : List (BitVec 64)) : Option (Nat × State) :=
  let sc := dW ws 5 10 0
  let kc := dW ws 5 23 11
  if dW ws 5 24 24 = 1 then some (winWord (dW ws 5 34 25) sc (dW ws 5 46 35) kc, s)
  else match freeBase s 0 sc 1024 with
    | none => none
    | some (sb, s) =>
      match freeBase s 8 kc 4096 with
      | none => none
      | some (kb, s) => some (winWord sb sc kb kc, s)

/-- Whether a ring's head can start now (R364). -/
def canStart (s : State) (r : Nat) : Bool :=
  match ringHead s r with
  | none => false
  | some (num, ws) =>
    dW ws 0 7 0 == 1 && (dW ws 0 8 8 == 0 || decide (num ≤ (s.ring r).low)) &&
    decide (dW ws 4 28 20 + 1 ≤ (freeTiles s r ws).length) && (headWin s ws).isSome

/-- Rings with a head. -/
def ringsUp (s : State) : List Nat := (s.q.rings.filter (fun p => !p.2.elig.isEmpty)).map (·.1)

/-- The ring whose head starts next (R365). -/
def nextRing (s : State) : Option Nat :=
  let key (r : Nat) : Nat := s.fld .RING_CTL [r] RING_CTL.PRIO * 4096 + (4095 - (r + 4096 - s.q.turn) % 4096)
  match (ringsUp s).filter (canStart s) with
  | [] => none
  | h :: l => some (l.foldl (fun a b => if key a < key b then b else a) h)

/-- Every counter of a window queue service chose, initialised (R361). -/
def initWin (s : State) (w : Nat) : State :=
  let home (s : State) (h : Nat) : State :=
    (List.range (winOf w h).2).foldl (fun s i => s.setCtr h ((winOf w h).1 + i) Ctr.zero) s
  (List.range 9).foldl home s

/-- One tile of a dispatch: TILE_ENTRY, the program, TILE_STAY_WIN and TILE_ARG, then START (R364). The status of a
load or START that fails; `none` = a read must wait. -/
def startOne (s : State) (d : Disp) (ctx rank t : Nat) (ext : Ext) : Option (State × Nat) :=
  let ws := d.words
  let e := fput (fput (fput (fput 0 TILE_ENTRY.PC (dW ws 4 16 0)) TILE_ENTRY.CTX_ID ctx) TILE_ENTRY.RANK rank)
    TILE_ENTRY.COUNT_M1 (dW ws 4 28 20)
  let s := s.wr .TILE_ENTRY (tix t) e
  let go (s : State) : State × Nat :=
    let s := (s.wr .TILE_STAY_WIN (tix t) d.win).wr .TILE_ARG (tix t) (dW ws 3 63 0)
    if startOk s t then (startTile s t d.id, 0) else (s, 0x09)
  if dW ws 2 63 0 ≠ 0 ∧ s.rd .TILE_PROG_ID (tix t) = dW ws 2 63 0 then some (go s)
  else
    let s := s.setFld .TILE_IMEM_SRC (tix t) TILE_IMEM_SRC.ADDR (dW ws 1 41 0 / 64)
    match imemBlocks s t ctx ext (dW ws 1 53 42) (dW ws 1 41 0) 0 with
    | none => none
    | some (s, st) =>
      let s := s.setFld .TILE_IMEM_LOAD (tix t) TILE_IMEM_LOAD.STATUS st
      let s := s.setFld .TILE_IMEM_LOAD (tix t) TILE_IMEM_LOAD.ERR (b2n (st != 0))
      if st ≠ 0 then some (s, st)
      else
        let s := s.wr .TILE_PROG_ID (tix t) (dW ws 2 63 0)
        some (go (s.setTile t { s.tile t with progWritten := true }))

/-- The tiles of a dispatch in RANK order; the first failure ends it (R512). -/
def startTiles (s : State) (d : Disp) (ctx rank : Nat) (ts : List Nat) (ext : Ext) : Option State :=
  match ts with
  | [] => some s
  | t :: r =>
    match startOne s d ctx rank t ext with
    | none => none
    | some (s, st) =>
      if !s.live then some s
      else if st ≠ 0 then
        let bits := if st = 0x04 then 32 else if st = 0x03 then 16 else 0
        some (endDisp (mapDisp s d.id (fun d => { d with bits := d.bits ||| bits })) d.id st none)
      else
        startTiles (mapDisp s d.id (fun d => { d with tiles := d.tiles ++ [t] })) d ctx (rank + 1) r ext

/-- Unresolved OPTIMISTIC epochs bound to a context (R455). -/
def boundEpochs (s : State) (ctx : Nat) : List Nat := (s.gate.eps.filter (fun e => e.ctxs.contains ctx)).map (·.tag)

/-- Heads that can no longer get their tiles, because some have been lost or excluded since they passed the checks,
complete with PERMISSION (R386). -/
def refuseHeads (s : State) : State :=
  (ringsUp s).foldl (fun s r =>
    match ringHead s r with
    | some (num, ws) =>
      if dW ws 0 7 0 = 1 ∧ headFits s ws = false then
        complete (s.setRing r { s.ring r with elig := (s.ring r).elig.drop 1 }) r num 0x0E 0 (dW ws 0 9 9 == 1)
      else s
    | none => s) s

/-- DISPATCH_START: the head that R365 chooses; groups it needs are woken first (R415). -/
def execDispatchStart (ext : Ext) (s : State) : Host.Outcome State Fault Refusal :=
  whenLive s (
    if !qsRuns s then s
    else
    let s := refuseHeads s
    match nextRing s with
      | none => s
      | some r =>
        match ringHead s r with
        | none => s
        | some (num, ws) =>
          match headWin s ws with
          | none => s
          | some (win, s1) =>
            let ctx := s.fld .RING_CTL [r] RING_CTL.CTX_ID
            let id := s.q.last + 1
            let d : Disp := ⟨id, r, num, ws, [], 0, none, 0, boundEpochs s ctx, win, false, false⟩
            let ts := (freeTiles s r ws).take (dW ws 4 28 20 + 1)
            if ts.any (fun t => !tilePowered s t) then wakeFor s ts else
            let x := s1.ring r
            let s1 := { s1 with q := { s1.q with disps := s1.q.disps ++ [d], last := id, turn := (r + 1) % 4096 } }
            let s1 := s1.setRing r { x with elig := x.elig.drop 1 }
            let s1 := if dW ws 5 24 24 = 1 then s1 else initWin s1 win
            (startTiles s1 d ctx 0 ts ext).getD s)

/-- MARKER (R360): the eligible head of a ring starts when it is a MARKER. -/
def execMarker (r : Nat) (s : State) : Host.Outcome State Fault Refusal :=
  whenLive s (markerStart s r)

/-- DISPATCH_HEAD_STARVE (R365): a head that waits for tiles. -/
def execDispatchHeadStarve (r : Nat) (s : State) : Host.Outcome State Fault Refusal :=
  whenLive s (
    match ringHead s r with
    | none => s
    | some (_, ws) =>
      if dW ws 0 7 0 = 1 ∧ (freeTiles s r ws).length < dW ws 4 28 20 + 1 ∧ ¬ s.q.starve.contains r then
        { s with q := { s.q with starve := s.q.starve ++ [r] } }
      else s)

/-! Completion (R366). -/

/-- A layer that a tile's dispatch has consumed still gets its status: while the host is lost (R371), only one that has
started. -/
def layerDue (s : State) (t : Nat) : Bool :=
  (s.tile t).wants.any (fun n => !hostGone s || (s.trs (t / 64)).run.any (fun l => l.n == n))

/-- Whether a dispatch has ended on every tile, with its writes performed, its epochs resolved and the layers it consumed
with their statuses (R366). -/
def dispDone (s : State) (d : Disp) : Bool :=
  d.tiles.all (fun t =>
    let x := s.tile t
    (x.ended || s.tstate t == 2 || s.tstate t == 7) && x.outs.isEmpty && !s.epochs.any (fun e => e.tile == t) && !layerDue s t) &&
  d.deps.isEmpty &&
  (dW d.words 0 7 0 != 2 || decide (d.num ≤ (s.ring d.ring).low))

/-- The statuses and S_ bits of one tile (R366). -/
def tileOutcome (s : State) (t : Nat) : Nat × Nat :=
  let x := s.tile t
  let fl := s.rd .TILE_FMT_FLAGS (tix t) / 256
  let ctl := s.rd .TILE_FMT_CTL (tix t)
  let fs := s.fld .TILE_MOVE_STAT (tix t) TILE_MOVE_STAT.FIRST_STATUS
  let rev := s.bit .TILE_EPOCH (tix t) TILE_EPOCH.REVOKED_D
  let has (n : Nat) : Bool := (x.layer >>> n) % 2 == 1
  let st := (List.range 16).foldl (fun a n => if has n then statFold a n else a) fs
  let c := s.fld .TILE_EXC (tix t) TILE_EXC.CAUSE
  let st := statFold st (if c = 0 then 0 else causeStat c)
  let st := statFold st (if rev then 0x07 else 0)
  let st := statFold st (if (fl % 4) &&& (ctl % 4) ≠ 0 then 0x0D else 0)
  (st, b2n (has 16 || has 0x0B) + 2 * b2n (has 17) + 4 * b2n (fl % 4 != 0) + 8 * b2n rev +
    16 * b2n (fs == 0x03 || x.rfail || x.wfail.any (fun w => decide (w < 16))) +
    32 * b2n (fs == 0x04 || has 4 || c == 0x0B) + 64 * b2n (fs == 0x0C || c == 0x09 || c == 0x0A) + 128 * b2n (x.wfail.any (fun w => decide (16 ≤ w))))

/-- KST_QS_EXCL_ACT (R386): a set bit waits for the dispatch of queue service on its tile. -/
def exclSync (s : State) : State :=
  (List.range 8).foldl (fun s p =>
    let want := s.rd .KST_QS_EXCL [p]
    let act := s.rd .KST_QS_EXCL_ACT [p]
    let busy := (s.q.disps.flatMap (·.tiles)).foldl (fun m t => if t / 64 = p then m ||| 2 ^ (t % 64) else m) 0
    s.wr .KST_QS_EXCL_ACT [p] ((want &&& (want ^^^ (want &&& busy))) ||| (want &&& act))) s

/-- A dispatch leaves its tiles: a faulted one gets ABORT (R140), and each is free again. -/
def dispFree (s : State) (d : Disp) : State :=
  let s := d.tiles.foldl (fun s t => if (s.tile t).disp = d.id ∧ s.tstate t = 2 then abortTile s t else s) s
  let s := d.tiles.foldl (fun s t =>
    if (s.tile t).disp ≠ d.id then s
    else s.setTile t { s.tile t with started := false, ended := false, disp := 0 }) s
  exclSync { s with q := { s.q with disps := s.q.disps.filter (fun e => e.id != d.id) } }

/-- What queue service records for a dispatch: the first in the order of R15 of every status that applies to it, with
`st` among them, and its S_ bits; after an abort that returned OK, CANCELLED alone (R367: the word `can read only
CANCELLED`, which the model takes to hold against the order of R15 and against a containment reset, DEDUCED, log 163). -/
def dispOutcome (s : State) (d : Disp) (st : Nat) : Nat × Nat :=
  let os := d.tiles.map (tileOutcome s)
  let st := statFold ((os.map (·.1)).foldl statFold (statFold d.stat st)) (d.force.getD 0)
  (if d.aborted then 0x01 else st, (os.map (·.2)).foldl (· ||| ·) d.bits)

/-- DISPATCH_COMPLETE (R366): a dispatch or started MARKER is recorded and its word written; for a number already
recorded, a word that had to wait is written. -/
def execDispatchComplete (r num : Nat) (s : State) : Host.Outcome State Fault Refusal :=
  whenLive s (
    if !qsAlive s then s else
    match s.q.disps.find? (fun d => d.ring == r && d.num == num) with
    | some d =>
      if !dispDone s d then s
      else
        let (st, bits) := dispOutcome s d 0
        complete (dispFree s d) r num st bits (dW d.words 0 9 9 == 1)
    | none =>
      match s.q.owed.find? (fun o => o.ring == r && o.num == num) with
      | none => s
      | some o =>
        match writeCpl s o with
        | none => s
        | some s => { s with q := { s.q with owed := s.q.owed.filter (· != o) } })

/-! Abort (R367, R368). -/

/-- The number a SEQ names: the last one posted with it. -/
def seqNum (x : Ring) (q : Nat) : Option Nat :=
  let k := (x.posted + 2 ^ 32 - 1 - q % 2 ^ 32) % 2 ^ 32
  if k < x.posted then some (x.posted - 1 - k) else none

/-- An abort by SEQ: the status it returns. -/
def abortSeq (s : State) (r q : Nat) : State × Nat :=
  let x := s.ring r
  match seqNum x q with
  | none => (s, 0x0E)
  | some n =>
    if x.recorded n then (s, 0x02)
    else match s.q.disps.find? (fun d => d.ring == r && d.num == n) with
      | some d =>
        if d.force.isSome then (s, 0x02)
        else if dW d.words 0 7 0 = 2 then
          (complete { s with q := { s.q with disps := s.q.disps.filter (fun e => e.id != d.id) } } r n 0x01 0
            (dW d.words 0 9 9 == 1), 0)
        else (endDisp (mapDisp s d.id (fun d => { d.forced 0x01 with aborted := true })) d.id 0x01 none, 0)
      | none =>
        let int := match x.elig.find? (fun e => e.1 == n) with
          | some e => dW e.2 0 9 9 == 1
          | none => false
        let s := s.setRing r { x with elig := x.elig.filter (fun e => e.1 != n) }
        (complete s r n 0x01 0 int, 0)

/-- Slots at HEAD that are already recorded are passed over. -/
def skipRecorded (fuel : Nat) (s : State) (r : Nat) : State :=
  match fuel with
  | 0 => s
  | n + 1 =>
    let x := s.ring r
    if x.read < x.posted ∧ x.recorded x.read ∧ ¬ x.elig.any (fun e => e.1 == x.read) then
      skipRecorded n (s.setRing r { x with read := x.read + 1, tries := 0 }) r
    else s

/-- A write of RING_ABORT. -/
def ringAbortWrite (s : State) (r eff : Nat) : State :=
  let s := s.plain .RING_ABORT [r] eff
  if fget eff RING_ABORT.GO = 1 then
    let (s, st) := abortSeq s r (fget eff RING_ABORT.SEQ)
    (skipRecorded 4096 s r).setFld .RING_ABORT [r] RING_ABORT.RESULT st
  else s

/-- RING_ABORT. -/
def execRingAbort (r : Nat) (w : BitVec 64) (s : State) : Host.Outcome State Fault Refusal :=
  whenLive s (if r < 4096 then ringAbortWrite s r (fput w.toNat RING_ABORT.GO 1) else s)

end Sys2Proof.Machine
end

