-- ==== Sys2Proof/Machine/Gate.lean ====
section
/-!
DEFINITION. Machine/Gate.lean: the epoch gates of the receiving module (R216 to R219, R455, R508): tagged writes, the
count at Pier 0, resolutions and the revoke log; and inbound accesses of peers (R40, R41).
-/

namespace Sys2Proof.Machine

/-- The requester code of a peer module in an answer. -/
def peerWho (m : Nat) : Nat := 0x10000 + m

/-- Whether an inbound Claden-X access is for this module (R40, R41). -/
def peerInOk (s : State) (dest : Nat) : Bool := s.bit .KST_MOD_ID [] KST_MOD_ID.ACT_VALID && dest == actId s

/-- Bytes of a line that a mask selects written into tile memory (R508). -/
def Tile.maskWrite (x : Tile) (off : Nat) (v : LineVal) (mask : BitVec 128) : Tile :=
  if mask = fullMask then x.memWrite off (takeBytes v.data 0 128) (v.pz != 0)
  else (List.range 128).foldl (fun x i =>
    if mask.getLsbD i then x.memWrite (off + i) [lineByte v.data i] (v.pz.getLsbD (i / 32)) else x) x

/-- A Strict target takes one aligned access of 1, 2, 4 or 8 bytes (R43). -/
def strictMask (mask : BitVec 128) : Bool :=
  [1, 2, 4, 8].any (fun n => (List.range (128 / n)).any (fun i => mask == rangeMask (i * n) n))

/-- The masked bytes of a line written at a decoded target by a peer. -/
def maskedWrite (s : State) (t : Tgt) (act : Nat) (v : LineVal) (mask : BitVec 128) (ext : Ext) : Option State :=
  match t with
  | .line l ty =>
    if isFar l && !hostUp s then some (s.satInc .P0_CLC_ERR [] P0_CLC_ERR.DROP_CNT 1)
    else (writeLineVia (touch s act) .none_ l ty true v mask ext).map (fun s' => noteStale s s' l)
  | .win t off => some (s.setTile t ((s.tile t).maskWrite off v mask))
  | .reg _ => some s

/-- The status of a write that has been performed or, for want of host memory, dropped (R44). -/
def tgtLost (s : State) (t : Tgt) : Nat :=
  match t with
  | .line l _ => if isFar l && !hostUp s then 0x0A else 0
  | _ => 0

/-- Decode of a peer's write of a line, with R43. -/
def peerLine (s : State) (a : Nat) (mask : BitVec 128) : DecR × State :=
  match decLocal s .peer (a / 128 * 128) true with
  | (.ok (.line l 2) act, s) => (if strictMask mask then .ok (.line l 2) act else .undec, s)
  | r => r

/-- The sender of an epoch: module, Span and tile of its tag (R192). -/
def tagSender (tag : Nat) : Nat := tag % 2 ^ 24
/-- SEQ of a tag. -/
def tagSeq (tag : Nat) : Nat := tag / 2 ^ 24 % 65536
/-- INTEG of a tag: 1 is OPTIMISTIC. -/
def tagInteg (tag : Nat) : Nat := tag / 2 ^ 40 % 2
/-- MODULE of a tag. -/
def tagModule (tag : Nat) : Nat := tag % 2 ^ 15

/-- The record keys of a target's line. -/
def gateKey (t : Tgt) : Nat :=
  match t with
  | .line l _ => l * 2
  | .win t off => (t * 8192 + off / 128) * 2 + 1
  | .reg a => a * 2

/-- A line recorded by the epoch of another sender (R217). -/
def gateHeld (s : State) (tag key : Nat) : Bool :=
  s.gate.eps.any (fun e => tagSender e.tag != tagSender tag && e.recs.any (fun r => r.2 == key))

/-- An unresolved epoch. -/
def gateEp (s : State) (tag : Nat) : Option EpochIn := s.gate.eps.find? (fun e => e.tag == tag)

/-- Lines held at a Pier. -/
def gateHeldCnt (s : State) (p : Nat) : Nat := (s.gate.eps.map (fun e => (e.held.filter (fun h => h.pier == p)).length)).sum
/-- Lines recorded at a Pier. -/
def gateRecCnt (s : State) (p : Nat) : Nat := (s.gate.eps.map (fun e => (e.recs.filter (fun r => r.1 == p)).length)).sum
/-- Epoch entries of a Pier. -/
def gateEpCnt (s : State) (p : Nat) : Nat := (s.gate.eps.filter (fun e => (mfind e.unrep p).isSome)).length

/-- A buffer, the record or the entries of a Pier's gate are full (R216). -/
def gateFull (s : State) (p : Nat) : Bool :=
  decide (65536 ≤ gateHeldCnt s p) || decide (65536 ≤ gateRecCnt s p) || decide (512 ≤ gateEpCnt s p)

/-- PIER_EPOCH_STAT follows the gates; a Pier domain that was waiting for them may lose its power. -/
def gateSync (s : State) : State :=
  offSettle ((List.range s.asm.piers).foldl (fun s p =>
    let w := fput 0 PIER_EPOCH_STAT.HELD (gateHeldCnt s p)
    let w := fput w PIER_EPOCH_STAT.REC (gateRecCnt s p)
    let w := fput w PIER_EPOCH_STAT.EPOCHS (gateEpCnt s p)
    s.wr .PIER_EPOCH_STAT [p] (fput w PIER_EPOCH_STAT.BP (b2n (gateFull s p)))) s)

/-- The entry of an epoch changed, or made. -/
def gatePut (s : State) (e : EpochIn) : State :=
  if (gateEp s e.tag).isSome then
    { s with gate := { s.gate with eps := s.gate.eps.map (fun x => if x.tag == e.tag then e else x) } }
  else { s with gate := { s.gate with eps := s.gate.eps ++ [e] } }

/-- A write or resolution of an epoch already resolved, counted (R218). -/
def gateLate (s : State) : State := { s with gate := { s.gate with late := s.gate.late + 1 } }

/-- The revoke log (R219): the first free entry, the count, and the interrupt of KMH3. -/
def logRevoke (s : State) (tag cause lines : Nat) : State :=
  let s := s.satInc .KST_REVOKE_CNT [] KST_REVOKE_CNT.COUNT 1
  let s := match (List.range 64).find? (fun n => s.fld .KST_REVOKE_ENT [n] KST_REVOKE_ENT.VALID == 0) with
    | none => s.setFld .KST_REVOKE_CNT [] KST_REVOKE_CNT.REVOKE_OVF 1
    | some n =>
      let w := fput 0 KST_REVOKE_ENT.TAG tag
      let w := fput w KST_REVOKE_ENT.CAUSE cause
      let w := fput w KST_REVOKE_ENT.LINES (min 65535 lines)
      s.wr .KST_REVOKE_ENT [n] (fput w KST_REVOKE_ENT.VALID 1)
  s.send (.kmhIrq 3 2)

/-- The poison mark on a recorded line, which keeps its data (R216, R508), unless its page refuses it (R509). -/
def poisonKey (s : State) (key : Nat) : State :=
  if key % 2 = 1 then
    let t := key / 2 / 8192
    let x := s.tile t
    s.setTile t { x with poison := sins x.poison (key / 2 % 8192) }
  else
    let l := key / 2
    if !markOk s l then markDrop s (unitPier 0 0x0B) l
    else if isFar l then memWrite (recallWhole (lineWritten s l) l) l ⟨0, 0xF, 0⟩ 0
    else markLine (recallWhole (lineWritten s l) l) (unitPier 0 0x0B) l

/-- What hangs on an epoch's resolution (R455). -/
def unbindEpoch (s : State) (tag : Nat) (revoked : Bool) : State :=
  let ds := s.q.disps.map (fun (d : Disp) =>
    if d.deps.contains tag then
      if revoked then { d with deps := sdel d.deps tag, stat := statFold d.stat 7, bits := d.bits ||| 8 }
      else { d with deps := sdel d.deps tag }
    else d)
  let es := s.epochs.map (fun (e : Epoch) =>
    if e.inbound.contains tag then { e with inbound := sdel e.inbound tag, failed := e.failed || revoked } else e)
  resolveEpochs { s with q := { s.q with disps := ds }, epochs := es }

/-- The tags kept as resolved: one sender's tags of the older half of the sequence numbers go (assumption 32). -/
def keepResolved (l : List Nat) (tag : Nat) : List Nat :=
  sins (l.filter (fun g => !(tagSender g == tagSender tag &&
    decide (32768 ≤ (tagSeq tag + 65536 - tagSeq g) % 65536)))) tag

/-- An epoch that is no longer unresolved. -/
def gateDrop (s : State) (tag : Nat) : State :=
  gateSync { s with gate := { s.gate with eps := s.gate.eps.filter (fun e => e.tag != tag)
                                          resolved := keepResolved s.gate.resolved tag } }

/-- Acknowledgement of an epoch's write. -/
def gateAck (s : State) (tag status : Nat) : State := s.send (.resp (peerWho (tagModule tag)) status [])

/-- REVOKE of an epoch, from a message or local (R216, R218, R219). -/
def gateRevoke (s : State) (e : EpochIn) (cause : Nat) : State :=
  let s := e.held.foldl (fun s _ => gateAck s e.tag 0) s
  let s := e.recs.foldl (fun s r => poisonKey s r.2) s
  unbindEpoch (gateDrop (logRevoke s e.tag cause (e.held.length + e.recs.length)) e.tag) e.tag true

/-- The held writes of a confirmed epoch in arrival order; none while one must wait. -/
def gatePerform (s : State) (tag : Nat) (hs : List HeldW) (ext : Ext) : Option State :=
  match hs with
  | [] => some s
  | h :: r =>
    match peerLine s h.addr h.mask with
    | (.held, _) => none
    | (.ok t act, s) =>
      if gateHeld s tag (gateKey t) then none
      else match maskedWrite s t act h.v h.mask ext with
        | none => none
        | some s => gatePerform (gateAck s tag (tgtLost s t)) tag r ext
    | (_, s) => gatePerform (gateAck (logFail s .peer h.addr) tag 0x0E) tag r ext

/-- A resolution by count (R218): CONFIRM when the count agrees, REVOKE with cause COUNT on excess writes. -/
def gateCheck (s : State) (tag : Nat) (ext : Ext) : Option State :=
  match gateEp s tag with
  | none => some s
  | some e =>
    match e.confirm with
    | none => some s
    | some n =>
      if n < e.count then some (gateRevoke s e 2)
      else if e.count < n then some s
      else (gatePerform s tag e.held ext).map (fun s => unbindEpoch (gateDrop s tag) tag false)

/-- The context that a performed write binds (R455). -/
def boundCtx (s : State) (t : Tgt) (a : Nat) : Nat :=
  match t with
  | .win t _ => tileCtx s t
  | _ => peCtx (ptEntry s (a / 2097152))

/-- A binding: running dispatches of the context wait for the epoch. -/
def bindCtx (s : State) (e : EpochIn) (c : Nat) : State × EpochIn :=
  if e.ctxs.contains c then (s, e)
  else
    let ds := s.q.disps.map (fun (d : Disp) =>
      if s.fld .RING_CTL [d.ring] RING_CTL.CTX_ID = c ∧ !d.tiles.isEmpty then { d with deps := sins d.deps e.tag } else d)
    ({ s with q := { s.q with disps := ds } }, { e with ctxs := sins e.ctxs c })

/-- A first arrival makes the entry. -/
def gateNew (s : State) (tag : Nat) : EpochIn := ⟨tag, [], 0, none, [], [], s.clk.fc, []⟩

/-- An arrival at a Pier: Pier 0 counts it, another Pier owes a report (R218). -/
def EpochIn.arrive (e : EpochIn) (pier now : Nat) : EpochIn :=
  let e := if e.unrep.isEmpty then { e with first := now } else e
  if pier = 0 then { e with unrep := mins e.unrep 0 0, count := e.count + 1 }
  else { e with unrep := mins e.unrep pier (mget 0 e.unrep pier + 1) }

/-- EPOCH_TAGGED_WRITE (R216): the write of a line that enters at a Pier. A Pier with a full part takes none. -/
def execEpochTaggedWrite (pier dest tag a : Nat) (data : BitVec 1024) (mask : BitVec 128) (pz : BitVec 4) (ext : Ext)
    (s : State) : Host.Outcome State Fault Refusal :=
  whenPeer s (gateAck s tag 0x03) (
    if s.asm.piers ≤ pier ∨ gateFull s pier then s
    else if !peerInOk s dest then gateAck (logFail s .peer a) tag 0x0E
    else if s.gate.resolved.contains tag then gateAck (gateLate s) tag 0
    else
      let v : LineVal := ⟨data, pz, 0⟩
      let e1 := ((gateEp s tag).getD (gateNew s tag)).arrive pier s.clk.fc
      let r : Option (State × EpochIn) :=
        if tagInteg tag = 0 then
          match peerLine s a mask with
          | (.held, _) => some (s, { e1 with held := e1.held ++ [⟨pier, a, v, mask⟩] })
          | (.ok _ _, s) => some (s, { e1 with held := e1.held ++ [⟨pier, a, v, mask⟩] })
          | (_, s) => some (gateAck (logFail s .peer a) tag 0x0E, e1)
        else
          match peerLine s a mask with
          | (.held, _) => none
          | (.ok t act, s) =>
            let key := gateKey t
            if gateHeld s tag key then none
            else match maskedWrite s t act v mask ext with
              | none => none
              | some s =>
                let (s, e2) := bindCtx s e1 (boundCtx s t a)
                some (gateAck s tag (tgtLost s t),
                  if e1.recs.any (fun q => q.2 == key) then e2 else { e2 with recs := e2.recs ++ [(pier, key)] })
          | (_, s) => some (gateAck (logFail s .peer a) tag 0x0E, e1)
      match r with
      | none => s
      | some (s1, e) => (gateCheck (gateSync (gatePut s1 e)) tag ext).getD s)

/-- EPOCH_ARRIVAL_REPORT (R218): a Pier's unreported arrivals join the count at Pier 0. -/
def execEpochArrivalReport (pier tag : Nat) (ext : Ext) (s : State) : Host.Outcome State Fault Refusal :=
  whenLive s (
    match gateEp s tag with
    | none => s
    | some e =>
      let n := mget 0 e.unrep pier
      if n = 0 then s
      else (gateCheck (gatePut s { e with unrep := mins e.unrep pier 0, count := e.count + n }) tag ext).getD s)

/-- EPOCH_CONFIRM_RECEIVED (R216, R218): it waits until the count it carries has arrived. -/
def execEpochConfirmReceived (tag n : Nat) (ext : Ext) (s : State) : Host.Outcome State Fault Refusal :=
  whenLive s (
    if s.gate.resolved.contains tag then gateLate s
    else
      let e := (gateEp s tag).getD (gateNew s tag)
      (gateCheck (gatePut s { e with confirm := some n }) tag ext).getD s)

/-- EPOCH_REVOKE_RECEIVED (R216): held writes are discarded, recorded lines poisoned. -/
def execEpochRevokeReceived (tag _n : Nat) (s : State) : Host.Outcome State Fault Refusal :=
  whenLive s (
    if s.gate.resolved.contains tag then gateLate s
    else
      gateRevoke s ((gateEp s tag).getD (gateNew s tag)) 0)

/-- EPOCH_GATE_TIMEOUT (R218): 100 microseconds after its first write. -/
def execEpochGateTimeout (tag : Nat) (s : State) : Host.Outcome State Fault Refusal :=
  whenLive s (
    match gateEp s tag with
    | none => s
    | some e => if e.unrep.isEmpty then s else gateRevoke s e 1)

/-- The gates at a reset (R220): held writes go unacknowledged; recorded lines are poisoned and their epochs logged. -/
def gateReset (s : State) : State :=
  let s := s.gate.eps.foldl (fun s e =>
    let s := e.recs.foldl (fun s r => poisonKey s r.2) s
    if tagInteg e.tag = 1 then logRevoke s e.tag 1 e.recs.length else s) s
  gateSync { s with gate := ⟨[], [], s.gate.late⟩ }

end Sys2Proof.Machine
end

