-- ==== Sys2Proof/Machine/Keystone.lean ====
section
/-!
DEFINITION. Machine/Keystone.lean: application cores and management harts (R379 to R381), mailboxes and service calls from
their acceptance to their end (R382 to R385, R388), and the exclusion of tiles from queue service (R386).
-/

namespace Sys2Proof.Machine

/-! Cores (R379). -/

/-- Whether a core is retired (R446). -/
def coreRetired (s : State) (c : Nat) : Bool := (s.rd .KST_CORE_RETIRED [] >>> c) % 2 == 1

/-- STATE of a core. -/
def coreState (s : State) (c : Nat) : Nat := s.fld .KST_CORE_STAT [c] KST_CORE_STAT.STATE

/-- A core enters reset: it stops, and its reservation is lost. -/
def coreStop (s : State) (c : Nat) : State :=
  let s := s.setFld .KST_CORE_STAT [c] KST_CORE_STAT.STATE 0
  { s with mem := { s.mem with coreRsv := s.mem.coreRsv.filter (fun p => p.1 != c) } }

/-- A core out of reset and not held starts at its RVEC; while the module is Parked every core is held (R371). -/
def coreGo (s : State) (c : Nat) : State :=
  if coreState s c = 0 ∧ !s.kst.coreRst.contains c ∧ !s.bit .KST_CORE_CTL [c] KST_CORE_CTL.HOLD ∧ !coreRetired s c ∧
      !s.bit .KST_PARK [] KST_PARK.PARKED then
    s.setFld .KST_CORE_STAT [c] KST_CORE_STAT.STATE 1
  else s

/-- A write of KST_CORE_CTL (R379, R446). -/
def coreCtlWrite (s : State) (c eff : Nat) : State :=
  if fget eff KST_CORE_CTL.RVEC / 2 ^ 36 ≠ 0 ∨ (coreRetired s c ∧ fget eff KST_CORE_CTL.HOLD = 0) then
    discardReg s .KST_CORE_CTL [c]
  else
    let s := s.plain .KST_CORE_CTL [c] eff
    if coreState s c = 2 then s
    else
      let s := if fget eff KST_CORE_CTL.HOLD = 1 then coreStop s c else s
      let s := if fget eff KST_CORE_CTL.RESET = 1 then
          { coreStop s c with kst := { s.kst with coreRst := sins s.kst.coreRst c } } else s
      coreGo s c

/-- CORE_RESET: a write of KST_CORE_CTL. -/
def execCoreReset (c : Nat) (w : BitVec 64) (s : State) : Host.Outcome State Fault Refusal :=
  whenLive s (if c < 64 then coreCtlWrite s c w.toNat else s)

/-- CORE_HOLD: a write of KST_CORE_CTL. -/
def execCoreHold (c : Nat) (w : BitVec 64) (s : State) : Host.Outcome State Fault Refusal :=
  whenLive s (if c < 64 then coreCtlWrite s c w.toNat else s)

/-- CORE_RESET_DONE. -/
def execCoreResetDone (c : Nat) (s : State) : Host.Outcome State Fault Refusal :=
  whenLive s (
    if s.kst.coreRst.contains c then coreGo { s with kst := { s.kst with coreRst := sdel s.kst.coreRst c } } c else s)

/-! Management harts (R380, R381). -/

/-- The RUN bit of a hart; without KMH1 a hardware limiter holds the floor (R380), which FIXED counts as a departure
(R26). -/
def setHart (s : State) (h : Nat) (b : Bool) : State :=
  let s := s.setFld .KST_HART_STAT [] KST_HART_STAT.RUN (bitSet (s.fld .KST_HART_STAT [] KST_HART_STAT.RUN) h b)
  if h ≠ 1 then s
  else if b then pwrSync { s with pwr := { s.pwr with lim := sdel s.pwr.lim 24 } }
  else pwrSync (fixedBreak { s with pwr := { s.pwr with lim := sins s.pwr.lim 24 } })

/-- HART_HEARTBEAT_TIMEOUT (R380). -/
def execHartHeartbeatTimeout (h : Nat) (s : State) : Host.Outcome State Fault Refusal :=
  whenUp s (
    if h < 4 ∧ hartRuns s h then
      let s := s.satInc .KST_HART_STAT [] KST_HART_STAT.RESTART_CNT 1
      recordAt (setHart s h false) (unitKst (0x41 + h)) 1 0x0D 0 none
    else s)

/-- HART_RELOAD_DONE (R380, R381). -/
def execHartReloadDone (h : Nat) (s : State) : Host.Outcome State Fault Refusal :=
  whenUp s (if h < 4 ∧ !hartRuns s h then setHart s h true else s)

/-- LOCKSTEP_MISMATCH (R381): a third one within 24 hours causes a containment reset. -/
def execLockstepMismatch (s : State) : Host.Outcome State Fault Refusal :=
  whenUp s (
    if hartRuns s 2 then
      let now := s.clk.fc
      let ts := now :: s.ras.lsTimes.filter (fun t => decide (now < t + 24 * 3600 * fcSec))
      let s := setHart s 2 false
      let s := { s with ras := { s.ras with lsTimes := ts } }
      let s := s.satInc .KST_HART_STAT [] KST_HART_STAT.LS_MISMATCH_CNT 1
      let s := recordAt s (unitKst 0x43) 1 0x0D 0 none
      if 3 ≤ ts.length then
        recordAt (contTrigger s (unitKst 0x43) 8 0x0D none none) (unitKst 0x43) 6 0x0D 0 none
      else s
    else s)

/-! Mailboxes (R382 to R385, R388). -/

/-- The codes of the service calls (R385, R486). -/
def svcCodes : List Nat :=
  [0x0001, 0x0101, 0x0102, 0x0103, 0x0104, 0x0105] ++ (List.range 8).map (0x0201 + ·) ++ (List.range 6).map (0x0301 + ·) ++
  (List.range 3).map (0x0401 + ·) ++ (List.range 4).map (0x0501 + ·) ++ [0x0701] ++ (List.range 8).map (0x0801 + ·) ++
  (List.range 3).map (0x0901 + ·) ++ (List.range 2).map (0x0A01 + ·) ++ (List.range 4).map (0x0B01 + ·) ++
  (List.range 3).map (0x0C01 + ·) ++ (List.range 10).map (0x0D01 + ·) ++ (List.range 9).map (0x0E01 + ·) ++
  (List.range 4).map (0x0F01 + ·) ++ (List.range 4).map (0x1001 + ·) ++ (List.range 3).map (0x1101 + ·) ++
  (List.range 9).map (0x1201 + ·) ++ (List.range 9).map (0x1301 + ·) ++ [0x1401]

/-- The address of an argument block: bits [51:27] in ARG and [26:7] in ARG_OFF. -/
def mboxAddr (s : State) (m : Nat) : Nat :=
  s.fld .KST_MBOX_CTL [m] KST_MBOX_CTL.ARG * 2 ^ 27 + s.fld .KST_MBOX_ARG_OFF [m] KST_MBOX_ARG_OFF.OFF * 128

/-- Word 0 of an argument block as firmware reads it. -/
def blockWord (s : State) (host : Bool) (a : Nat) (ext : Ext) : Nat :=
  if host then leNat ((List.range 8).map (fun i => extByte ext (a + i))) else (fwWord s a).toNat

/-- Whether an argument block passes R53 for its mailbox's context; in host memory it needs the host. -/
def blockOk (s : State) (m : Nat) (host : Bool) (a : Nat) : Bool :=
  if host then hostUp s
  else if m < 256 then areaOk s a 256 m false true
  else (fwLine s a).isSome && (fwLine s (a + 128)).isSome

/-- An accepted call. -/
def callPush (s : State) (c : Call) : State := { s with kst := { s.kst with calls := s.kst.calls ++ [c] } }

/-- A write of KST_MBOX_CTL (R383, R384): GO while busy is discarded; an unknown code, one other than word 0, or a block
that fails R53 ends the call with PERMISSION. -/
def mboxCtlWrite (s : State) (m eff : Nat) (ext : Ext) : State :=
  if fget eff KST_MBOX_CTL.GO = 0 then s.plain .KST_MBOX_CTL [m] eff
  else if s.bit .KST_MBOX_STAT [m] KST_MBOX_STAT.BUSY then discardReg s .KST_MBOX_CTL [m]
  else
    let s := s.plain .KST_MBOX_CTL [m] eff
    let s := s.setFld .KST_MBOX_STAT [m] KST_MBOX_STAT.TAG (fget eff KST_MBOX_CTL.TAG)
    let s := s.setFld .KST_MBOX_STAT [m] KST_MBOX_STAT.BUSY 1
    let code := fget eff KST_MBOX_CTL.CODE
    let host := fget eff KST_MBOX_CTL.HOST == 1
    let a := mboxAddr s m
    let ok := blockOk s m host a && svcCodes.contains code && blockWord s host a ext == code
    callPush s ⟨m, code, host, a, fget eff KST_MBOX_CTL.INT_EN == 1, !ok, if ok then none else some 0x0E, []⟩

/-- The hart that serves a mailbox runs: KMH3, or KMH0 for MCTP (R380, R484). Through a mailbox, no call is served during
a containment reset or in Recovery. -/
def callServed (s : State) (m : Nat) : Bool :=
  if m = 257 then s.up && hartRuns s 0 else s.live && hartRuns s 3

/-- The call of a mailbox. -/
def callOf (s : State) (m : Nat) : Option Call := s.kst.calls.find? (fun c => c.mbox == m)

/-- The call of a mailbox changed. -/
def callSet (s : State) (m : Nat) (f : Call → Call) : State :=
  { s with kst := { s.kst with calls := s.kst.calls.map (fun c => if c.mbox = m then f c else c) } }

/-- Calls accepted before that of a mailbox have begun: they take effect in the order of their acceptance. -/
def callTurn (s : State) (m : Nat) : Bool := (s.kst.calls.takeWhile (fun c => c.mbox != m)).all (·.begun)

/-- What firmware does for a call: nothing yet, or the state after it, the status (none while the call waits for
something) and the outputs from word 16. -/
abbrev SvcR : Type := Option (State × Option Nat × List (BitVec 64))

/-- A call that returns OK. -/
def svcOk (s : State) (outs : List (BitVec 64)) : SvcR := some (s, some 0, outs)

/-- A call that returns another status without effect. -/
def svcStat (s : State) (st : Nat) : SvcR := some (s, some st, [])

/-- A service call carried out for a mailbox. Through a context mailbox a call that `own` does not allow returns
PERMISSION (R382). -/
def svc (s : State) (m code : Nat) (own : Nat → Bool) (k : State → SvcR) : State :=
  match callOf s m with
  | none => s
  | some c =>
    if c.begun || c.code != code || !callServed s m || !callTurn s m then s
    else if m < 256 && !own m then callSet s m (fun (c : Call) => { c with begun := true, stat := some 0x0E })
    else match k s with
      | none => s
      | some (s', st, outs) =>
        callSet s' m (fun (c : Call) => { c with begun := true, stat := if st.isNone then c.stat else st, outs := outs })

/-- A service-call row. -/
def svcRow (s : State) (m code : Nat) (own : Nat → Bool) (k : State → SvcR) : Host.Outcome State Fault Refusal :=
  .next (svc s m code own k)

/-- The status of a call that has waited. -/
def callFinish (s : State) (m st : Nat) (outs : List (BitVec 64)) : State :=
  callSet s m (fun c => if c.stat.isNone then { c with stat := some st, outs := outs } else c)

/-- The interrupt of a completed call (R388). -/
def callIrq (s : State) (m : Nat) : State :=
  let t := s.fld .KST_MBOX_INT [m] KST_MBOX_INT.TARGET
  let iid := s.fld .KST_MBOX_INT [m] KST_MBOX_INT.IID
  let s := if t % 2 = 1 then hostIrq s (s.fld .KST_MBOX_INT [m] KST_MBOX_INT.VEC) else s
  if 2 ≤ t ∧ iid ≠ 0 then s.send (.coreIrq (s.fld .KST_MBOX_INT [m] KST_MBOX_INT.CORE) iid) else s

/-- The outputs of a call written from word 16 of its block onward; `none` = the write must wait. -/
def callOuts (s : State) (c : Call) : Option State :=
  let bs := (c.outs.take 16).flatMap (fun w => leBytes 8 w.toNat)
  if bs.isEmpty then some s
  else if c.host then
    let a := c.addr + 128
    (writePiece s .none_ (.line (2 ^ 47 + a / 128) 0) 0 a bs false true ⟨[], [], 0⟩).map (·.1)
  else some (fwWriteBytes s (c.addr + 128) bs)

/-- A call that has ended no longer waits for a commit or for Cast-off. -/
def dropWho (s : State) (m : Nat) : State :=
  let f (l : List (Option Nat)) : List (Option Nat) := l.filter (fun w => w != some m)
  let g (c : Option Commit) : Option Commit := c.map (fun (c : Commit) => { c with who := f c.who })
  { s with boot := { s.boot with run := g s.boot.run, held := g s.boot.held, offWho := f s.boot.offWho } }

/-- A call ends (R383): outputs, STATUS, BUSY and interrupt; over MCTP, a response. A call whose outputs must wait goes
on. -/
def callEnd (s : State) (c : Call) (st : Nat) : State :=
  let s1 := dropWho { s with kst := { s.kst with calls := s.kst.calls.filter (fun d => d.mbox != c.mbox) } } c.mbox
  if c.mbox = 257 then s1.send (.mctp 0x7E (st :: c.outs.map (·.toNat)))
  else match callOuts s1 c with
    | none => s
    | some s =>
      let s := s.setFld .KST_MBOX_STAT [c.mbox] KST_MBOX_STAT.STATUS st
      let s := s.setFld .KST_MBOX_STAT [c.mbox] KST_MBOX_STAT.BUSY 0
      if c.int then callIrq s c.mbox else s

/-- MBOX_CALL_COMPLETE (R383). -/
def execMboxCallComplete (m : Nat) (s : State) : Host.Outcome State Fault Refusal :=
  .next (match callOf s m with
    | none => s
    | some c => match c.stat with
      | none => s
      | some st => if callServed s m then callEnd s c st else s)

/-- MBOX_CALL_TIMEOUT (R384). -/
def execMboxCallTimeout (m : Nat) (s : State) : Host.Outcome State Fault Refusal :=
  .next (match callOf s m with
    | none => s
    | some c => if c.stat.isNone ∧ callServed s m then callEnd s c 0x0F else s)

/-! Exclusion (R386). -/

/-- A write of KST_QS_EXCL. -/
def qsExclWrite (s : State) (p eff : Nat) : State := exclSync (s.plain .KST_QS_EXCL [p] eff)

/-- QS_EXCL_WRITE. -/
def execQsExclWrite (span : Nat) (w : BitVec 64) (s : State) : Host.Outcome State Fault Refusal :=
  whenLive s (if span < 8 then qsExclWrite s span w.toNat else s)

end Sys2Proof.Machine
end

