-- ==== Sys2Proof/Machine/Host.lean ====
section
/-!
DEFINITION. Machine/Host.lean: the host port (R353, R354), what the host answers at the far home (R44, R273), and the loss
of the host: the endpoint reset and the entry to Parked (R252, R274, R370 to R373).
-/

namespace Sys2Proof.Machine

/-! Training and enumeration. -/

/-- HOST_LINK_TRAINED (R353): the protocol is one that the MODE in force allows; 1 to 16 lanes. -/
def execHostLinkTrained (cxl : Bool) (lanes : Nat) (s : State) : Host.Outcome State Fault Refusal :=
  whenUp s (
    if hostUp s ∨ s.bit .KST_PARK [] KST_PARK.DRAINING ∨ lanes = 0 ∨ 16 < lanes ∨
        (s.clc.mode = 1 ∧ cxl) ∨ (s.clc.mode = 2 ∧ ¬ cxl) then s
    else
      let s := s.setFld .P0_CLC_STAT [] P0_CLC_STAT.LINK_UP 1
      let s := { s with plc := { s.plc with lost := [] } }
      let s := s.setFld .P0_CLC_STAT [] P0_CLC_STAT.CXL (b2n cxl)
      s.setFld .P0_CLC_STAT [] P0_CLC_STAT.LANES lanes)

/-- HWIN_PROGRAM (R354): address bits [51:42] of the host's window. -/
def execHwinProgram (v : Nat) (s : State) : Host.Outcome State Fault Refusal :=
  whenUp s (
    if hostUp s then
      (s.setFld .P0_CLC_STAT [] P0_CLC_STAT.HWIN v).setFld .P0_CLC_STAT [] P0_CLC_STAT.HWIN_VALID 1
    else s)

/-! Answers of the host (R44, R273). -/

/-- The data of a far line fills the message that waits for it; an error the host reports reads as poison. -/
def farFill (s : State) (line : Nat) (v : LineVal) : State :=
  { s with mem := { s.mem with
      farRd := sdel s.mem.farRd line
      net := s.mem.net.map (fun (m : CohMsg) => if m.k = .data ∧ m.line = line then { m with v := v } else m) } }

/-- HOST_RESPONSE_AT_FAR_HOME: the answer to a read of the far home (`wr` = false), or the acknowledgement of a write. -/
def execHostResponseAtFarHome (line : Nat) (wr : Bool) (data : BitVec 1024) (pz : BitVec 4) (err : Bool) (s : State) :
    Host.Outcome State Fault Refusal :=
  whenUp s (
    if !hostUp s then s
    else if wr then { s with mem := { s.mem with farPend := s.mem.farPend.eraseP (fun w => w.1 == line) } }
    else if s.mem.farRd.contains line then farFill s line ⟨data, if err then 0xF else pz, 0⟩
    else s)

/-! Loss of the host (R370, R371). -/

/-- Host-bound writes of the tiles: dropped, and their issuers receive HOST_LOST (R187, R252). -/
def dropHostOuts (s : State) : State :=
  s.tiles.foldl (fun s p =>
    let x := s.tile p.1
    let gone := x.outs.filter (fun w => !w.peer)
    if gone.isEmpty then s
    else
      let s := s.setTile p.1 { x with outs := x.outs.filter (·.peer)
                                      wfail := gone.foldl (fun l w => sins l (w.strm + 16)) x.wfail }
      let s := s.setFld .TILE_MOVE_STAT (tix p.1) TILE_MOVE_STAT.HOSTLOST 1
      if s.fld .TILE_MOVE_STAT (tix p.1) TILE_MOVE_STAT.FIRST_STATUS = 0 then
        s.setFld .TILE_MOVE_STAT (tix p.1) TILE_MOVE_STAT.FIRST_STATUS 0x0A else s) s

/-- The far home drops everything it holds or has under way for the module; dirty lines in victim buffers are lost with
the other host-bound writes. -/
def dropFar (s : State) : State :=
  let far (l : Nat) : Bool := isFar l
  let n := s.mem.farPend.length + (s.mem.vebs.filter (fun e => far e.line)).length
  let s := s.satInc .P0_CLC_ERR [] P0_CLC_ERR.DROP_CNT n
  let s := (s.mem.vebs.filter (fun e => far e.line)).foldl (fun s e => vebPut s e.span e.line none) s
  let s := hostAgentLost s
  { s with mem := { s.mem with
      txns := s.mem.txns.filter (fun p => !far p.1)
      net := s.mem.net.filter (fun m => !far m.line)
      reqs := s.mem.reqs.filter (fun r => !far r.line)
      farRd := [] } }

/-- The far tier is discarded (R372). -/
def dropFarTier (s : State) : State :=
  let pages := (ptPages s).filter (fun p => peLoc (ptEntry s p))
  let objs := (objIds s).filter (fun i => pages.any (fun p => decide (objPage s i ≤ p) && decide (p < objPage s i + objPages s i)))
  let s := pages.foldl (fun s p => setEntry s p (entPut (ptEntry s p) 0 0 0)) s
  let s := objs.foldl (fun s i => setObjWord s i 0 (entPut (objWord s i 0) 54 54 1)) s
  s.setFld .PLC_FAR_CFG [] PLC_FAR_CFG.EN 0

/-- Engines stop, and what runs in them ends with HOST_LOST (R371). -/
def stopEngines (s : State) : State :=
  let s := { s with lat := { s.lat with qs := s.lat.qs.map (fun (p : Nat × LatQ) => (p.1, { p.2 with run := p.2.run.map (fun (r : LatRun) =>
    { r with stat := statFold r.stat 0x0A, fin := true }) })) } }
  { s with tr := s.tr.map (fun (p : Nat × TrSpan) => (p.1, { p.2 with run := p.2.run.map (fun (l : TrLayer) =>
    { l with stat := statFold l.stat 0x0A }) })) }

/-- The registers of the port after an endpoint reset; a MODE written takes effect. -/
def portReset (s : State) : State :=
  let s := resetRegs s 4
  let s := s.wr .P0_CLC_STAT [] 0
  let s := s.setFld .RAW_HOST_CFG [] RAW_HOST_CFG.EN 0
  { s with clc := ⟨[], [], s.fld .P0_CLC_CFG [] P0_CLC_CFG.MODE⟩ }

/-- Host-bound rings stop (R371). -/
def stopHostRings (s : State) : State :=
  (s.q.rings.map (·.1)).foldl (fun s r =>
    if hostBound s r && s.bit .RING_CTL [r] RING_CTL.EN then ringStop s r 0x0A else s) s

/-- All policies return to firmware (R31). -/
def policyClear (s : State) : State := s.wr .KST_POLICY_OWN [] 0

/-- Events 2 and 3 of R371. While one endpoint reset drains, another changes nothing; while Parked it leaves PARKED and
EPOCH as they are. -/
def hostLoss (s : State) (cause : Nat) : State :=
  if s.bit .KST_PARK [] KST_PARK.DRAINING then s
  else
    let s := s.setFld .P0_CLC_ERR [] P0_CLC_ERR.LOST 1
    let s := s.satInc .P0_CLC_ERR [] P0_CLC_ERR.EPR_CNT 1
    let s := dropFar (dropHostOuts s)
    let s := policyClear (portReset s)
    let s := (s.q.rings.map (·.1)).foldl markersStart s
    let s := (List.range 64).foldl collFail (stopHostRings s)
    let s := stopEngines s
    let held := (s.plc.moves.filter (fun (m : PageMove) => peLoc (ptEntry s m.page))).map (·.page)
    let s := { s with plc := { s.plc with lost := held } }
    let s := (s.plc.moves.filter (fun m => m.toFar || peLoc (ptEntry s m.page))).foldl moveDrop s
    let s := dropFarTier s
    if s.bit .KST_PARK [] KST_PARK.PARKED then s
    else (s.setFld .KST_PARK [] KST_PARK.DRAINING 1).setFld .KST_PARK [] KST_PARK.CAUSE cause

/-- HOST_LINK_LOSS (R370). -/
def execHostLinkLoss (s : State) : Host.Outcome State Fault Refusal := whenUp s (if hostUp s then hostLoss s 0 else s)

/-- HOST_LINK_RESET: a link reset or CXL Reset of the host. -/
def execHostLinkReset (s : State) : Host.Outcome State Fault Refusal := whenUp s (if hostUp s then hostLoss s 1 else s)

/-- A write of P0_CLC_CFG: MODE 0b11 or a DRAIN_MS of 0 is discarded; EP_RESET starts an endpoint reset. -/
def clcCfgWrite (s : State) (eff : Nat) : State :=
  if fget eff P0_CLC_CFG.MODE = 3 ∨ fget eff P0_CLC_CFG.DRAIN_MS = 0 then discardReg s .P0_CLC_CFG []
  else
    let s := s.plain .P0_CLC_CFG [] eff
    if fget eff P0_CLC_CFG.EP_RESET = 1 then hostLoss s 2 else s

/-- CLC_EP_RESET: a write of P0_CLC_CFG with EP_RESET. -/
def execClcEpReset (w : BitVec 64) (s : State) : Host.Outcome State Fault Refusal :=
  whenUp s (clcCfgWrite s (fput w.toNat P0_CLC_CFG.EP_RESET 1))

/-- PARK_DRAIN_TIMEOUT (R371 event 4): what still runs is ended with HOST_LOST; tiles that software started itself are
aborted too. -/
def execParkDrainTimeout (s : State) : Host.Outcome State Fault Refusal :=
  whenLive s (
    if s.bit .KST_PARK [] KST_PARK.DRAINING then
      let s := s.q.disps.foldl (fun s d =>
        endDisp (mapDisp s d.id (fun (d : Disp) => d.forced 0x0A)) d.id 0x0A none) s
      (s.tiles.map (·.1)).foldl (fun s t => if s.tstate t = 0 ∨ s.tstate t = 7 then s else abortWrite s t) s
    else s)

/-- Every Span cache, core L2 and the system cache cleaned into HBM (R371, R450): buffered victims first, then what the
directories list as owned. -/
def cleanAll (s : State) : State :=
  let s := s.mem.vebs.foldl (fun s e => lateWb s e.span e.line) s
  s.mem.dirs.foldl (fun s p => maintHome s 1 p.1) s

/-- Nothing that R371 drains is left. -/
def drained (s : State) : Bool :=
  s.q.disps.isEmpty && s.tiles.all (fun p => s.tstate p.1 == 0 || s.tstate p.1 == 7)

/-- PARK_ENTER (R371 events 5 and 6): EPOCH takes a fresh value, which is free. -/
def execParkEnter (s : State) : Host.Outcome State Fault Refusal :=
  whenLive s (
    if s.bit .KST_PARK [] KST_PARK.DRAINING && drained s then
      let s := cleanAll s
      let s := (List.range 64).foldl (fun s c => if coreState s c = 1 then coreStop s c else s) s
      let s := s.setFld .KST_PARK [] KST_PARK.EPOCH (Config.freeWord s.freeCtr).toNat
      let s := (s.setFld .KST_PARK [] KST_PARK.PARKED 1).setFld .KST_PARK [] KST_PARK.DRAINING 0
      { s with freeCtr := s.freeCtr + 1 }
    else s)

/-- The module is taken up again (R374): cores leave their reset, and PARKED clears; peers hear of it (R407). -/
def reattach (s : State) : State :=
  let s := s.setFld .KST_PARK [] KST_PARK.PARKED 0
  let s := (List.range 64).foldl coreGo s
  ((clxLinks s).filter (linkActive s)).foldl sendUp s

end Sys2Proof.Machine
end

