-- ==== Sys2Proof/Machine/Reset.lean ====
section
/-!
DEFINITION. Machine/Reset.lean: what cold and module resets leave (R13, R125, R220, R252, R278, R316, R350, R375, R384, R409,
R434), the start of Cast-on (R476, R478, R479), and Cast-off (R485).
-/

namespace Sys2Proof.Machine

/-! Parts of resets. -/

/-- Stay nodes (R220): messages dropped, remote waiters released with UNREACHABLE, counters and registrations cleared. A
release without a link waits for one. -/
def stayReset (s : State) : State :=
  let ws := s.stay.waits
  let s := { s with stay := { s.stay with held := [] } }
  let s := ws.foldl (fun s w => releaseTo { s with freeCtr := s.freeCtr + 1 } w (Config.freeWord s.freeCtr).toNat 0x03) s
  { s with stay := { s.stay with ctrs := [], waits := [], cuts := [], heldClr := [], heldRel := [] } }

/-- The coherence protocol and the arrays after their reset (R278, R451). -/
def cohReset (s : State) : State :=
  { s with mem := { s.mem with
      lines := [], vebs := [], dirs := [], txns := [], holds := [], homes := [], net := [], reqs := [], maint := [],
      coreRsv := [], farPend := [], farRd := [], cacheErr := [], vebStall := [] } }

/-! The settings store (R465, R466). -/

/-- A word with the RWS fields of another. -/
def rwsMerge (flds : List FldInfo) (old new : Nat) : Nat :=
  flds.foldl (fun acc f => if f.ty = .rws then fput acc ⟨f.hi, f.lo⟩ (fget new ⟨f.hi, f.lo⟩) else acc) old

/-- The record of a commit of scope 0 in the journal: the RWS fields of each register take the values accepted. -/
def commitPut (s : State) (c : Commit) : State :=
  c.vals.foldl (fun s p =>
    match regIn allRegs p.1 with
    | none => s
    | some (r, ix) =>
      let old := ((mfind s.store p.1).getD ((regInfo r).rst s.asm ix)).toNat
      { s with store := mins s.store p.1 (BitVec.ofNat 64 (rwsMerge (regInfo r).flds old p.2.toNat)) }) s

/-- A commit that a reset or the loss of power cuts short leaves the whole record or none of it (R466): a free choice. -/
def commitCut (s : State) : State :=
  match s.boot.run with
  | none => s
  | some c =>
    let (b, s) := s.freeBool
    let s := { s with boot := { s.boot with run := none, held := none } }
    if b then commitPut s c else s

/-! The start of Cast-on. -/

/-- Cast-on at its event 1: KMH0 starts from the ROM. The strap, a request, and a link fault that lasts until a cold reset
lead to Recovery (R479). HBM is initialised after a cold reset, also when its Cast-on is restarted before event 6. -/
def castOnStart (s : State) (cold : Bool) : State :=
  let b := s.boot
  let cause := if b.stuck ≠ 0 ∧ ¬ cold then b.stuck else if s.board.strap then 5 else if b.rcvy then 6 else 0
  let s := { s with boot := { b with
      event := 1, cold := cold || (b.cold && decide (b.event < 6)), start := s.clk.fc, rcvy := false
      off := 0, offWho := [], offReset := false, run := none, held := none
      stuck := if cold then 0 else b.stuck, spdm := 0 } }
  let boots := s.fld .KST_BOOT_STAT [] KST_BOOT_STAT.BOOT_CNT
  let s := s.wr .KST_BOOT_STAT [] (fput 0 KST_BOOT_STAT.BOOT_CNT boots)
  let s := s.setFld .KST_HART_STAT [] KST_HART_STAT.RUN 1
  let s := s.setFld .KST_BOOT_CTL [] KST_BOOT_CTL.NEXT_SLOT s.boot.dflt
  let s := s.setFld .KST_BOARD_STAT [] KST_BOARD_STAT.STRAP (b2n s.board.strap)
  let s := if s.board.alertInt || s.board.alertExt then pwrSync (s.setFld .TNS_EVENT [] TNS_EVENT.VRA_ACTIVE 1) else s
  if cause = 0 then s else enterRecovery s cause

/-! Cold reset (R13). -/

/-- Claden-D links after a reset that loads their settings from the store (R396): a forced width not yet committed is
gone, and no probation runs. -/
def cldLoad (s : State) (f : CldX → CldX) : State :=
  s.links.cld.foldl (fun s p =>
    let x := p.2
    let y : CldX := f { x with forced := if x.commit then x.kept else x.forced, commit := false, prob := false, crc := 0 }
    let s := { s with links := { s.links with cld := mset CldX.zero s.links.cld p.1 y } }
    match x.commit, cldLink s (p.1 / 32) (p.1 % 32) with
    | true, some (a, b) =>
      setCldStat (setCldStat s a CLD_PORT_STAT.FORCED (b2n (x.kept != 0))) b CLD_PORT_STAT.FORCED (b2n (x.kept != 0))
    | _, _ => s) s

/-- Links after a cold reset: stored lane maps stand, and lanes are tested afresh (R394, R402). -/
def linksCold (s : State) : State :=
  let s := cldLoad s (fun x => { x with curA := x.mapA, curB := x.mapB })
  s.links.clx.foldl (fun s p => s.setClx p.1 { p.2 with fresh := true, ce := 0 })
    { s with links := { s.links with vc := [], xb := [], db := [], dold := [], stayOn := [] } }

/-- The module as power finds it: every field at its reset value, but for what is not in volatile state: firmware records,
the settings store, faulty HBM rows, lane maps, slots, security versions and fuses, and the buckets that Cast-off
committed; the releases of remote waiters leave too (R220). -/
def coldState (s : State) : State :=
  let s := stayReset s
  { State.reset with
    asm := s.asm
    pending := s.pending
    freeCtr := s.freeCtr
    regs := (resetRegs s 3).regs
    board := s.board
    out := s.out
    store := s.store
    ras := { State.reset.ras with buckets := s.boot.buckets }
    mem := { State.reset.mem with rows := s.mem.rows }
    stay := { State.reset.stay with held := s.stay.held }
    links := s.links
    boot := { State.reset.boot with
      event := 0, dflt := s.boot.dflt, trial := s.boot.trial, minSvn := s.boot.minSvn, svn := s.boot.svn
      revoke := s.boot.revoke, fall := s.boot.fall
      recs := s.boot.recs, erases := s.boot.erases, spare := s.boot.spare } }

/-- A cold reset, then Cast-on. -/
def coldReset (s : State) : State := castOnStart (linksCold (coldState (commitCut s))) true

/-! Module reset. -/

/-- A slot field written and committed. -/
def setSlot (s : State) (k : Nat) (f : Fld) (v : Nat) : State := (s.setFld .KST_SLOT [k] f v).kept .KST_SLOT [k]

/-- An unconfirmed trial ends (R475): the slot has failed, and the other one is the default. -/
def trialFail (s : State) (k : Nat) : State :=
  let s := setSlot s k KST_SLOT.FAIL_CNT (min 255 (s.fld .KST_SLOT [k] KST_SLOT.FAIL_CNT + 1))
  let s := setSlot s k KST_SLOT.TRIAL 0
  { s with boot := { s.boot with dflt := 1 - k, fall := true } }

/-- The trial that runs is not yet confirmed. -/
def trialOpen (s : State) : Bool :=
  s.bit .KST_BOOT_STAT [] KST_BOOT_STAT.TRIAL &&
  s.bit .KST_SLOT [s.fld .KST_BOOT_STAT [] KST_BOOT_STAT.SLOT] KST_SLOT.TRIAL

/-- Pending stores discarded are counted (R252). -/
def dropStores (s : State) : State :=
  s.satInc .KST_ORD_STAT [] KST_ORD_STAT.RESET_DROP_CNT (pendingStores s).length

/-- What a module reset leaves, before Cast-on. -/
def moduleState (s : State) : State :=
  let s := stayReset (gateReset (dropStores (commitCut s)))
  let s := cohReset (resetRegs s 2)
  let s := (s.setFld .KST_RAS_STAT [] KST_RAS_STAT.CONT_ACTIVE 0).setFld .KST_RAS_STAT [] KST_RAS_STAT.CONT_EVENT 0
  let s := s.setFld .KST_GAUGE_REQ [] KST_GAUGE_REQ.BUSY 0
  let s := cldLoad s id
  { s with
    tiles := []
    epochs := []
    mem := { s.mem with stale := [], act := [] }
    stay := ⟨[], [], [], [], [], s.stay.held, 0, []⟩
    links := { s.links with vc := [], xb := [], db := [], dold := [], stayOn := [] }
    lat := ⟨[], [], []⟩
    plc := ⟨[], [], 0, [], [], [], [], [], 0, []⟩
    tr := []
    q := ⟨[], [], 0, 0, [], []⟩
    clc := ⟨[], [], s.clc.mode⟩
    kst := ⟨[], [], []⟩
    ras := { s.ras with underTest := [], preempted := [], gaugeReq := none, poisonAt := [], suppressed := none }
    pwr := { s.pwr with chg := [], trips := [], guard := 0, est := [], defer := none, noDefer := 0, offs := [], wakes := []
                        retry := [], next := none, kc := [], raw := [], hot := []
                        lim := sdel (sdel s.pwr.lim 24) 25 } }

/-- A module reset, then Cast-on; before the confirmation of a trial that has reached RUN it counts as its expiry. -/
def moduleReset (s : State) : State :=
  let s := if trialOpen s ∧ s.boot.event = 11 then trialFail s (s.fld .KST_BOOT_STAT [] KST_BOOT_STAT.SLOT) else s
  castOnStart (moduleState s) false

/-! Cast-off (R485). -/

/-- The system mailbox of a held request and the like: calls that wait for Cast-off end. -/
def offAnswer (s : State) (st : Nat) : State :=
  let ws := s.boot.offWho
  ws.foldl (fun s w => match w with
    | some m => callFinish s m st []
    | none => s) { s with boot := { s.boot with offWho := [] } }

/-- Event 1: every ring, Lattice queue and Trestle engine is disabled without abort. While Parked it begins at event 4. -/
def castOffBegin (s : State) : State :=
  let s := s.setFld .KST_BOOT_STAT [] KST_BOOT_STAT.STAGE 9
  if s.bit .KST_PARK [] KST_PARK.PARKED then { s with boot := { s.boot with off := 3 } }
  else
    let s := { s with boot := { s.boot with off := 1 } }
    let s := (s.q.rings.map (·.1)).foldl (fun s r =>
      let w := s.rd .RING_CTL [r]
      if fget w RING_CTL.EN = 1 then ringCtlWrite s r (fput (fput w RING_CTL.ABORT_EN 0) RING_CTL.DISABLE 1) else s) s
    let s := (s.lat.qs.map (·.1)).foldl (fun s k =>
      let w := s.rd .LAT_Q_CTL [k / 16, k % 16]
      latCtlWrite s (k / 16) (k % 16) (fput (fput w LAT_Q_CTL.ABORT_EN 0) LAT_Q_CTL.DISABLE 1)) s
    (List.range 8).foldl (fun s p =>
      let w := s.rd .TR_CTL [p]
      if fget w TR_CTL.EN = 1 then trCtlWrite s p (fput (fput w TR_CTL.ABORT_EN 0) TR_CTL.DISABLE 1) else s) s

/-- A request for Cast-off by a caller (none for KST_BOOT_CTL): one made during a containment reset waits for its end. -/
def castOffAsk (s : State) (who : Option Nat) : State :=
  if s.boot.off = 6 then match who with
    | some m => callFinish s m 0 []
    | none => s
  else
    let s := { s with boot := { s.boot with offWho := s.boot.offWho ++ [who] } }
    if s.boot.off ≠ 0 then s
    else if s.bit .KST_RAS_STAT [] KST_RAS_STAT.CONT_ACTIVE then { s with boot := { s.boot with off := 8 } }
    else castOffBegin s

end Sys2Proof.Machine
end

