-- ==== Sys2Proof/Machine/Ras.lean ====
section
/-!
DEFINITION. Machine/Ras.lean: the retire table and core retirement (R442 to R446), containment reset (R448 to R454), Gauge
(R30, R423, R457 to R461) and the hand-over of policies (R29).
-/

namespace Sys2Proof.Machine

/-! The retire table (R442, R445). -/

/-- RETIRE_BUCKET_LEAK: the bucket of a row and unit as it stands after the periods that have ended. -/
def execRetireBucketLeak (row unit : Nat) (s : State) : Host.Outcome State Fault Refusal :=
  whenUp s (
    let key := row * 65536 + unit
    match mfind s.ras.buckets key with
    | none => s
    | some b =>
      { s with ras := { s.ras with
          buckets := mset ⟨0, 0⟩ s.ras.buckets key (bucketNow (s.rd .KST_RETIRE [row]) s.clk.fc b) } })

/-- A write of a row of the retire table. -/
def retireWrite (s : State) (row eff : Nat) : State :=
  if 18 ≤ row ∨ fget eff KST_RETIRE.INC = 0 ∨ fget eff KST_RETIRE.THRESH = 0 then discardReg s .KST_RETIRE [row]
  else s.plain .KST_RETIRE [row] eff

/-- RETIRE_TBL_WRITE. -/
def execRetireTblWrite (row : Nat) (w : BitVec 64) (s : State) : Host.Outcome State Fault Refusal :=
  whenUp s (if row < 32 then retireWrite s row w.toNat else s)

/-- The retirement of a core (R446): its state is saved, it is held in reset, its bit is set and committed, and a group
without cores left loses its power. -/
def retireCore (s : State) (c : Nat) : State :=
  if coreRetired s c then s
  else
    let s := if coreState s c = 1 then { s with ras := { s.ras with coreSaved := sins s.ras.coreSaved c } } else s
    let s := if coreState s c = 2 then s else coreStop s c
    let s := (s.setFld .KST_CORE_CTL [c] KST_CORE_CTL.HOLD 1).setFld .KST_CORE_RETIRED [] ⟨c, c⟩ 1
    let s := recordAt (s.commit .KST_CORE_RETIRED []).counted (unitKst c) 6 0x09 0 none
    if (List.range 8).all (fun i => coreRetired s (c / 8 * 8 + i)) then offBegin s (64 + c / 8) else s

/-! Software control (R444, R448, R453). -/

/-- A write of KST_RAS_CTL. -/
def rasCtlWrite (s : State) (eff : Nat) : State :=
  if fget eff KST_RAS_CTL.CORE_RETIRE = 1 ∧ ¬ s.owned 4 then discardReg s .KST_RAS_CTL []
  else
    let s := s.plain .KST_RAS_CTL [] eff
    let s := if fget eff KST_RAS_CTL.CORE_RETIRE = 1 then retireCore s (fget eff KST_RAS_CTL.CORE) else s
    let s := if fget eff KST_RAS_CTL.CONT_RESUME = 1 then s.setFld .KST_RAS_STAT [] KST_RAS_STAT.STORM 0 else s
    if fget eff KST_RAS_CTL.CONT_REQ = 1 then contTrigger s (unitKst 0x43) 9 0x12 none none else s

/-- CORE_RETIRE: a write of KST_RAS_CTL. -/
def execCoreRetire (w : BitVec 64) (s : State) : Host.Outcome State Fault Refusal :=
  whenUp s (rasCtlWrite s (fput w.toNat KST_RAS_CTL.CORE_RETIRE 1))

/-- CONT_REQ. -/
def execContReq (w : BitVec 64) (s : State) : Host.Outcome State Fault Refusal :=
  whenUp s (rasCtlWrite s (fput w.toNat KST_RAS_CTL.CONT_REQ 1))

/-- CONT_RESUME. -/
def execContResume (w : BitVec 64) (s : State) : Host.Outcome State Fault Refusal :=
  whenUp s (rasCtlWrite s (fput w.toNat KST_RAS_CTL.CONT_RESUME 1))

/-! Containment reset: the flush (R450). -/

/-- The hart that runs the sequence runs: KMH2, or KMH0 after a third lockstep mismatch. -/
def contHart (s : State) : Bool := hartRuns s (if s.fld .KST_RAS_STAT [] KST_RAS_STAT.LAST_CAUSE = 8 then 0 else 2)

/-- A dirty copy as the flush finds it (R450): poisoned where its array gives an uncorrectable word, and none where its tag
is lost. -/
def flushCopy (s : State) (key : Nat) (c : CLine) : Option LineVal :=
  match mfind s.mem.cacheErr key with
  | some 3 => none
  | some 2 => some { c.v with pz := 0xF }
  | _ => some c.v

/-- A line written back by the flush: an error mark goes to memory as the poison mark, and the directory no longer lists
an owner. -/
def flushLine (s : State) (line : Nat) (v : LineVal) : State :=
  dirPut (memWrite s line ⟨v.data, v.pz ||| v.er, 0⟩ fullMask) line none

/-- Steps 1 and 2 of R450: every dirty line of every cache and victim buffer, and dirty data under way to a home or to a
requester. -/
def flushDirty (s : State) : State :=
  let ls := (s.mem.lines.filter (fun p => decide (3 ≤ p.2.st))).filterMap (fun p =>
    (flushCopy s p.1 p.2).map (fun v => (p.1 % 2 ^ 48, v)))
  let vs := s.mem.vebs
  let ms := s.mem.net
  let s := { s with mem := { s.mem with lines := [], cacheErr := [], vebStall := [], vebs := [], net := [], txns := [], reqs := [], homes := [] } }
  let s := ls.foldl (fun s p => flushLine s p.1 p.2) s
  let s := vs.foldl (fun s e => flushLine s e.line e.v) s
  ms.foldl (fun s (m : CohMsg) =>
    if m.k = .wb ∨ m.k = .wback ∨ m.k = .rspdata ∨ (m.k = .fwddata ∧ m.arg = 4) then flushLine s m.line m.v else s) s

/-- A recall that the host completes: what it owned comes back, with what its caches held. -/
def hostRecall (s : State) : State :=
  s.mem.dirs.foldl (fun s p =>
    if isFar p.1 then s
    else if 2 ≤ p.2.st ∧ p.2.owner = 73 then
      let r := snoopHost s .snpx p.1
      match r.fwd with
      | some v => flushLine r.s p.1 v
      | none => dirPut r.s p.1 none
    else if p.2.sharers.getLsbD 73 then dirPut s p.1 (if p.2.st = 1 then none else some { p.2 with sharers := 0 })
    else s) s

/-- Steps 4 and 5: what directories still list as owned, and the codewords consumed, are poisoned, where their pages do
not refuse the mark (R509). -/
def flushEnd (s : State) : State :=
  let s := s.mem.dirs.foldl (fun s p =>
    if 2 ≤ p.2.st ∧ ¬ isFar p.1 then markLine s (unitHbm (homeOf p.1) 0x41) p.1 else s) s
  let s := s.ras.poisonAt.foldl (fun s c => if markOk s (c / 4) then poisonSector s c else markDrop s (unitKst 0x43) (c / 4)) s
  let s := { s with ras := { s.ras with poisonAt := [] } }
  s.setFld .KST_RAS_STAT [] KST_RAS_STAT.CONT_EVENT 3

/-- CONTAINMENT_FLUSH: `recalled` when the host has given back every device line it held, or holds none. A trigger
before RUN restarts Cast-on instead (R478). -/
def execContainmentFlush (recalled : Bool) (s : State) : Host.Outcome State Fault Refusal :=
  whenUp s (
    if contEvent s = 2 ∧ s.boot.event < 11 then moduleReset s
    else if contEvent s = 2 ∧ contHart s then
      let s := flushDirty s
      if recalled then flushEnd (hostRecall s) else s
    else s)

/-- HOST_RECALL_TIMEOUT: agent 73 is treated as lost (R274). -/
def execHostRecallTimeout (s : State) : Host.Outcome State Fault Refusal :=
  whenUp s (if contEvent s = 2 ∧ contHart s then flushEnd (hostAgentLost (flushDirty s)) else s)

/-! Events 4 to 6 (R449). -/

/-- The completion words that a containment reset owes for a queue's descriptors, running and queued (R231): context,
address and word. A slot that does not hold its descriptor has none. -/
def latOwed (s : State) (pier q : Nat) : List (Nat × Nat × Nat) :=
  let x := s.latQ pier q
  let ctx := s.fld .LAT_Q_CTL [pier, q] LAT_Q_CTL.CTX_ID
  let owe (ws : List (BitVec 64)) (slot : Nat) : Nat × Nat × Nat := (ctx, dW ws 5 41 0, 0x08 + slot * 2 ^ 16)
  (x.run.map (fun r => owe r.words r.slot)).toList ++
  (List.range (x.posted - x.started)).filterMap (fun i =>
    let y := { x with started := x.started + i }
    let a := s.fld .LAT_Q_BASE [pier, q] LAT_Q_BASE.BASE * 64 + y.started % latSize s pier q * 64
    match engRead s ctx unitSvc false a 64 ⟨[], [], 0⟩ with
    | some (_, bs, pz, 0) =>
      let ws := (words8 bs).map (fun w => BitVec.ofNat 64 w)
      if pz.any id || !latSeqOk y ws then none else some (owe ws (y.started % latSize s pier q))
    | _ => none)

/-- KMH3 writes the words owed, after the reset; one that must wait stays owed. -/
def latPay (s : State) : State :=
  s.lat.owed.foldl (fun s w =>
    match engWrite s w.1 unitSvc false false w.2.1 (leBytes 8 w.2.2) [] ⟨[], [], 0⟩ with
    | some r => r.1
    | none => { s with lat := { s.lat with owed := s.lat.owed ++ [w] } })
    { s with lat := { s.lat with owed := [] } }

/-- Claden-D ports between the Keystone and a Pier. -/
def kstPierPorts (a : Assembly) : List (Nat × Nat) :=
  ((List.range (2 * a.piers)).map (fun i => (8, 16 + i))) ++
  (List.range a.piers).flatMap (fun p => [(9 + p, 8), (9 + p, 9)])

/-- Registers of the containment domain, Keystone–Pier ports apart, which stay ACTIVE (R409), and lost tiles, which stay
LOST. -/
def contRegs (s : State) : State :=
  let keep := (kstPierPorts s.asm).map (fun e => (e, s.rd (cldRegs e.1 e.2).1 (cldRegs e.1 e.2).2.2.2))
  let s := resetRegs s 1
  let s := keep.foldl (fun s k => s.wr (cldRegs k.1.1 k.1.2).1 (cldRegs k.1.1 k.1.2).2.2.2 k.2) s
  ((List.range 512).filter (tileLost s)).foldl (fun s t => s.setTstate t 7) s

/-- The Trestle engines (R350): rings emptied, Skein lines lost with the caches, numbering waits for GO. -/
def trReset (s : State) : State :=
  { s with tr := ((List.range 8).filter (fun p => s.bit .TR_CTL [p] TR_CTL.DISABLE)).map (fun p =>
      (p, { TrSpan.zero with cut := some 0 })) }

/-- A tile that fails its self-test is retired without a state to restore: a logical tile by its number, or an unused
spare, which is marked FAILED (R447). -/
def selfTestFail (s : State) (g : Nat) : State :=
  let span := g / 128
  let u := g % 128
  match (List.range 64).find? (fun i => physOf s (span * 64 + i) == u && !tileLost s (span * 64 + i)) with
  | some i => retireTile s (span * 64 + i)
  | none =>
    if 64 ≤ u ∧ u < 68 then
      let s := s.setFld .SPAN_SPARE_MAP [span] (SPAN_SPARE_MAP.FAILED.shift 16 (u - 64)) 1
      let s := recordAt (s.commit .SPAN_SPARE_MAP [span]).counted (unitSpan span u) 6 0x0A 0 none
      if (freeSpare s span).isNone then recordAt s (unitSpan span u) 5 0x09 0 none else s
    else s

/-- Events 4 and 5 of R449. -/
def contReset (s : State) (fails : List Nat) : State :=
  let s := stayReset (gateReset (s.plc.moves.foldl moveDrop s))
  let owed := s.lat.qs.flatMap (fun p => latOwed s (p.1 / 16) (p.1 % 16))
  let ret := (s.tiles.filter (fun p => p.2.retiring != 0)).map (·.1)
  let s := contRegs s
  let s := { cohReset (trReset s) with
    tiles := []
    epochs := []
    lat := ⟨[], [], owed⟩
    links := { s.links with
      db := s.links.db.filter (fun p => p.1 / 32 == 8), dold := s.links.dold.filter (fun p => p.1 / 16 / 32 == 8), stayOn := [] }
    ras := { s.ras with underTest := [], preempted := [], gaugeReq := none } }
  let s := s.setFld .KST_GAUGE_REQ [] KST_GAUGE_REQ.BUSY 0
  let s := ret.foldl retireTile s
  let s := (fails.filter (fun g => decide (g < 1024))).foldl selfTestFail s
  (List.range 8).foldl (fun s p => s.setFld .SPAN_CACHE_STAT [p] SPAN_CACHE_STAT.INV_CLEAN 1) s

/-- CONTAINMENT_SELFTEST_DONE: events 4 to 6; `fails` are the tiles that fail, as 128 * Span + physical tile. -/
def execContainmentSelftestDone (fails : List Nat) (s : State) : Host.Outcome State Fault Refusal :=
  whenUp s (
    if contEvent s = 3 ∧ contHart s then
      let s := contReset s fails
      let s := (List.range 8).foldl (fun s p =>
        s.setFld .SPAN_CACHE_CTL [p] SPAN_CACHE_CTL.EN (s.ras.savedEn / 2 ^ p % 2)) s
      let s := ((clxLinks s).filter (linkActive s)).foldl sendUp s
      s.setFld .KST_RAS_STAT [] KST_RAS_STAT.CONT_EVENT 6
    else s)

/-! Events 7 and 8. -/

/-- Rings (R375): everything running or posted is recorded with CONTAINMENT_RESET, or with INTERNAL where HBM stays out of
service (R312), and HEAD equals TAIL. -/
def ringsCont (s : State) : State :=
  let st := if hbmOff s then 0x0F else 0x08
  let ds := s.q.disps
  let s := { s with q := { s.q with disps := [], starve := [] } }
  let s := (ds.map (fun d => (d, dispOutcome s d st))).foldl (fun s p =>
    complete s p.1.ring p.1.num p.2.1 p.2.2 (dW p.1.words 0 9 9 == 1)) s
  exclSync ((s.q.rings.map (·.1)).foldl (fun s r => recordPosted s r st) s)

/-- Calls end with CONTAINMENT_RESET (R384). -/
def callsCont (s : State) : State := s.kst.calls.foldl (fun s c => callEnd s { c with outs := [] } 0x08) s

/-- Collective registrations are kept, without ACTIVE and with FAILED (R220); no descriptor of theirs runs any more. -/
def collsCont (s : State) : State :=
  collBusy ((List.range 64).foldl (fun s n =>
    if collValid s n then
      ((s.setFld .KST_COLL_ID [n] KST_COLL_ID.ACTIVE 0).setFld .KST_COLL_ID [n] KST_COLL_ID.FAILED 1).setFld .KST_COLL_ID
        [n] KST_COLL_ID.RUN 0
    else s) s)

/-- STORM (R453): the third reset has completed within 10 minutes of the trigger of the first of the three. -/
def stormNow (s : State) : Bool :=
  match s.ras.contTimes.reverse with
  | _ :: _ :: t :: _ => decide (s.clk.fc ≤ t + 600 * fcSec)
  | _ => false

/-- Stacks that a thermal shutdown stopped begin to cool when the containment reset completes (R312). -/
def stacksCool (s : State) : State :=
  (List.range s.asm.stacks).foldl (fun s k =>
    if s.fld .HBM_STK_STAT [k] HBM_STK_STAT.STATE = 3 then s.setFld .HBM_STK_STAT [k] HBM_STK_STAT.STATE 4 else s) s

/-- CONTAINMENT_DONE: events 7 and 8. -/
def execContainmentDone (s : State) : Host.Outcome State Fault Refusal :=
  whenUp s (
    if contEvent s = 6 ∧ contHart s then
      let s := policyClear (collsCont (callsCont (ringsCont (latPay (stacksCool s)))))
      let s := if stormNow s then s.setFld .KST_RAS_STAT [] KST_RAS_STAT.STORM 1 else s
      let s := (s.setFld .KST_RAS_STAT [] KST_RAS_STAT.CONT_ACTIVE 0).setFld .KST_RAS_STAT [] KST_RAS_STAT.CONT_EVENT 0
      let s := match s.ras.suppressed with
        | some c => s.send (.coreFault c 0)
        | none => s
      let s := rasIrq { s with ras := { s.ras with suppressed := none } } 7
      if s.boot.off = 8 then castOffBegin s else s
    else s)

/-! Gauge (R457 to R461). Units: 128 * Span + physical tile, or 1024 + core. -/

/-- The logical tile a physical tile serves. -/
def logicalOf (s : State) (g : Nat) : Option Nat :=
  ((List.range 64).find? (fun i => physOf s (g / 128 * 64 + i) == g % 128 && !tileLost s (g / 128 * 64 + i))).map
    (fun i => g / 128 * 64 + i)

/-- An unused spare that works. -/
def spareUnused (s : State) (g : Nat) : Bool :=
  let k := g % 128 - 64
  decide (64 ≤ g % 128) && decide (g % 128 < 68) &&
  s.fld .SPAN_SPARE_MAP [g / 128] (SPAN_SPARE_MAP.USED.shift 16 k) == 0 &&
  s.fld .SPAN_SPARE_MAP [g / 128] (SPAN_SPARE_MAP.FT.shift 16 k) == 0 &&
  s.fld .SPAN_SPARE_MAP [g / 128] (SPAN_SPARE_MAP.FAILED.shift 16 k) == 0

/-- A unit that Gauge tests: a tile in use, an unused spare, or a core not retired. -/
def gaugeUnit (s : State) (g : Nat) : Bool :=
  if g < 1024 then (logicalOf s g).isSome || spareUnused s g else decide (g < 1088) && !coreRetired s (g - 1024)

/-- A unit that may be tested now (R458, R459, R461), not during Cast-off (R485): a tile IDLE or SAVED with its power on, an unused spare, or a core
held in reset. -/
def gaugeFree (s : State) (g : Nat) : Bool :=
  !s.castingOff &&
  if g < 1024 then
    match logicalOf s g with
    | some t => (s.tstate t == 0 && !(s.tile t).started || s.tstate t == 4) && tilePowered s t &&
        !s.bit .TILE_STAT (tix t) TILE_STAT.RESETTING && (s.tile t).retiring == 0
    | none => spareUnused s g
  else decide (g < 1088) && !coreRetired s (g - 1024) && coreState s (g - 1024) == 0

/-- Room under MAX_SPAN and MAX_CORE. -/
def gaugeRoom (s : State) (g : Nat) : Bool :=
  if g < 1024 then
    decide ((s.ras.underTest.filter (fun h => decide (h < 1024) && h / 128 == g / 128)).length <
      s.fld .KST_GAUGE_CTL [] KST_GAUGE_CTL.MAX_SPAN)
  else decide ((s.ras.underTest.filter (fun h => decide (1024 ≤ h))).length < s.fld .KST_GAUGE_CTL [] KST_GAUGE_CTL.MAX_CORE)

/-- A test begins. -/
def gaugeStart (s : State) (g : Nat) : State := { s with ras := { s.ras with underTest := sins s.ras.underTest g } }

/-- A unit that is due is tested when it is free and there is room; KMH2 schedules while OWN_GAUGE = 0. -/
def gaugeTry (s : State) (g : Nat) : State :=
  if !s.owned 3 && hartRuns s 2 && gaugeFree s g && gaugeRoom s g && !s.ras.underTest.contains g then gaugeStart s g else s

/-- GAUGE_DUE: a unit falls due, or one that is due is looked at again. -/
def execGaugeDue (g : Nat) (s : State) : Host.Outcome State Fault Refusal :=
  whenLive s (
    if gaugeUnit s g then gaugeTry { s with ras := { s.ras with due := sins s.ras.due g } } g else s)

/-- GAUGE_DEFER_EXPIRE: a busy unit is preempted; a core is tested at once, a tile when it is SAVED. -/
def execGaugeDeferExpire (g : Nat) (s : State) : Host.Outcome State Fault Refusal :=
  whenLive s (
    if !s.ras.due.contains g || s.castingOff || s.owned 3 || !hartRuns s 2 || s.ras.underTest.contains g then s
    else if gaugeFree s g then gaugeTry s g
    else
      let pre (s : State) : State :=
        { s.satInc .KST_GAUGE_STAT [] KST_GAUGE_STAT.PREEMPT_CNT 1 with
          ras := { s.ras with preempted := sins s.ras.preempted g } }
      if g < 1024 then
        match logicalOf s g with
        | some t => if s.tstate t = 1 ∧ ¬ (s.tile t).aborting ∧ (s.tile t).retiring = 0 then pre (preemptTile s t) else s
        | none => s
      else if coreState s (g - 1024) = 1 ∧ gaugeRoom s g then gaugeStart (pre (coreStop s (g - 1024))) g else s)

/-- GAUGE_OVERDUE (R30, R461). -/
def execGaugeOverdue (g : Nat) (s : State) : Host.Outcome State Fault Refusal :=
  whenLive s (
    if s.owned 3 && hartRuns s 2 && s.ras.due.contains g && !s.ras.overdue.contains g then
      let s := { s with ras := { s.ras with overdue := sins s.ras.overdue g } }
      let s := s.satInc .KST_GAUGE_STAT [] KST_GAUGE_STAT.OVERDUE_CNT 1
      recordAt s (if g < 1024 then unitSpan (g / 128) (g % 128) else unitKst (g - 1024)) 3 0x0B 0 none
    else s)

/-- A commit of the curve set: every field of every curve as it stands, and FMAX_MHZ (R465). -/
def curvesCommit (s : State) : State :=
  (List.range 8).foldl (fun s p =>
    (List.range 16).foldl (fun s i => s.commit .SPAN_VF_CURVE [p, i]) (s.commit .SPAN_PWR_CTL [p])) s

/-- The change of a curve committed, at most once in 24 hours (R423); until then it stays uncommitted. -/
def curvesSave (s : State) : State :=
  if (s.pwr.vfAt.map (fun t => decide (t + 24 * 3600 * fcSec ≤ s.clk.fc))).getD true then
    { (curvesCommit s).counted with pwr := { s.pwr with vfAt := some s.clk.fc } }
  else s.setFld .KST_SET_STAT [] KST_SET_STAT.DIRTY 1

/-- Margins read during a tile test (R423): the curve from point n up is raised by 5 mV, but for points that would leave
their limits: these are withdrawn, and FMAX_MHZ falls. While OWN_TENSION = 1 only the record is written. -/
def marginLow (s : State) (p n : Nat) : State :=
  let v (i : Nat) : Nat := s.fld .SPAN_VF_CURVE [p, i] SPAN_VF_CURVE.VOLT_MV
  let a (i : Nat) : Nat := s.fld .SPAN_VF_CURVE [p, i] SPAN_VF_CURVE.AGE_MV
  let pts := (List.range 16).filter (fun i => decide (n ≤ i) && s.fld .SPAN_VF_CURVE [p, i] SPAN_VF_CURVE.WITHDRAWN == 0)
  let out := pts.find? (fun i => decide (950 < v i + a i + 5) || decide (60 < a i + 5))
  let s := if s.owned 0 then s
    else
      let s := pts.foldl (fun s i =>
        if (out.map (fun o => decide (i < o))).getD true then
          s.setFld .SPAN_VF_CURVE [p, i] SPAN_VF_CURVE.AGE_MV (a i + 5)
        else s.setFld .SPAN_VF_CURVE [p, i] SPAN_VF_CURVE.WITHDRAWN 1) s
      let s := match out with
        | some o => s.setFld .SPAN_PWR_CTL [p] SPAN_PWR_CTL.FMAX_MHZ (vfPoint s p (o - 1)).1
        | none => s
      let s := if pts.isEmpty then s else curvesSave s
      if (chgOf s p).isSome then s else setVolt s p (vfVolt s p (acMhz s p))
  match out with
  | some _ => recordAt s (unitKst 0x42) 5 0x0A 0 none
  | none => if s.owned 0 then recordAt s (unitKst 0x42) 1 0x0A 0 none else s

/-- A failed test counts in its row of the retire table (R460). -/
def gaugeFail (s : State) (g : Nat) : State :=
  let s := s.satInc .KST_GAUGE_STAT [] KST_GAUGE_STAT.FAIL_CNT 1
  if g < 1024 then
    let (s, hit) := retireEvent s 2 (unitSpan (g / 128) (g % 128))
    if !hit then s
    else match logicalOf s g with
      | some t =>
        let s := retireTile s t
        if tileLost s t then { s with ras := { s.ras with preempted := sdel s.ras.preempted g } } else s
      | none => selfTestFail s g
  else
    let (s, hit) := retireEvent s 4 (unitKst (g - 1024))
    if !hit then s
    else if s.owned 4 then recordAt s (unitKst (g - 1024)) 6 0x0A 0 none
    else { retireCore s (g - 1024) with ras := { (retireCore s (g - 1024)).ras with preempted := sdel s.ras.preempted g } }

/-- A preempted unit goes on: a tile is restored, a core resumes. -/
def gaugeBack (s : State) (g : Nat) (t : Option Nat) : State :=
  if !s.ras.preempted.contains g then s
  else
    let s := { s with ras := { s.ras with preempted := sdel s.ras.preempted g } }
    if g < 1024 then
      match t with
      | some t => if s.tstate t = 4 then restoreTile s t else s
      | none => s
    else if coreState s (g - 1024) = 0 ∧ ¬ coreRetired s (g - 1024) ∧ ¬ s.bit .KST_CORE_CTL [g - 1024] KST_CORE_CTL.HOLD then
      s.setFld .KST_CORE_STAT [g - 1024] KST_CORE_STAT.STATE 1
    else s

/-- GAUGE_TEST_DONE: the result of a test; `low` is the lowest point of the Span's curve whose margin was too small. -/
def execGaugeTestDone (g : Nat) (pass : Bool) (low : Option Nat) (s : State) : Host.Outcome State Fault Refusal :=
  whenLive s (
    if !s.ras.underTest.contains g then s
    else
      let t := if g < 1024 then logicalOf s g else none
      let s := { s with ras := { s.ras with underTest := sdel s.ras.underTest g, due := sdel s.ras.due g,
                                            overdue := sdel s.ras.overdue g } }
      let s := s.wrapInc .KST_GAUGE_STAT [] KST_GAUGE_STAT.RUN_CNT 1
      let s := if s.ras.gaugeReq = some g then
          { (s.setFld .KST_GAUGE_REQ [] KST_GAUGE_REQ.RESULT (if pass then 1 else 2)).setFld .KST_GAUGE_REQ []
              KST_GAUGE_REQ.BUSY 0 with ras := { s.ras with gaugeReq := none } } else s
      let s := match low with
        | some n => if g < 1024 ∧ n < 16 ∧ kmh1Runs s then marginLow s (g / 128) n else s
        | none => s
      gaugeBack (if pass then s else gaugeFail s g) g t)

/-- A write of KST_GAUGE_REQ (R461). -/
def gaugeReqWrite (s : State) (eff : Nat) : State :=
  if fget eff KST_GAUGE_REQ.GO = 0 then s.plain .KST_GAUGE_REQ [] eff
  else if !s.owned 3 || s.bit .KST_GAUGE_REQ [] KST_GAUGE_REQ.BUSY then discardReg s .KST_GAUGE_REQ []
  else
    let s := s.plain .KST_GAUGE_REQ [] eff
    let u := fget eff KST_GAUGE_REQ.UNIT
    let g := if fget eff KST_GAUGE_REQ.KIND = 1 then 1024 + u else 128 * fget eff KST_GAUGE_REQ.SPAN + u
    if gaugeFree s g ∧ ¬ s.ras.underTest.contains g then
      let s := (s.setFld .KST_GAUGE_REQ [] KST_GAUGE_REQ.BUSY 1).setFld .KST_GAUGE_REQ [] KST_GAUGE_REQ.RESULT 0
      gaugeStart { s with ras := { s.ras with gaugeReq := some g } } g
    else s.setFld .KST_GAUGE_REQ [] KST_GAUGE_REQ.RESULT 3

/-- GAUGE_REQ. -/
def execGaugeReq (w : BitVec 64) (s : State) : Host.Outcome State Fault Refusal :=
  whenLive s (gaugeReqWrite s (fput w.toNat KST_GAUGE_REQ.GO 1))

/-- A write of KST_GAUGE_CTL. -/
def gaugeCtlWrite (s : State) (eff : Nat) : State :=
  let p := fget eff KST_GAUGE_CTL.PERIOD_MIN
  let d := fget eff KST_GAUGE_CTL.DEFER_MIN
  if p < 60 ∨ 360 < p ∨ d < 1 ∨ 30 < d ∨ fget eff KST_GAUGE_CTL.MAX_SPAN = 0 ∨ fget eff KST_GAUGE_CTL.MAX_CORE = 0 then
    discardReg s .KST_GAUGE_CTL []
  else s.plain .KST_GAUGE_CTL [] eff

/-! Policies (R29). -/

/-- The hart whose firmware runs a policy. -/
def policyHart (n : Nat) : Nat :=
  match n with
  | 0 => 1
  | 3 => 2
  | 4 => 2
  | _ => 3

/-- Whether software holds a policy: its ACK bit. -/
def State.held (s : State) (n : Nat) : Bool := s.fld .KST_POLICY_OWN [] ⟨16 + n, 16 + n⟩ == 1

/-- POLICY_TAKEOVER: a write of KST_POLICY_OWN. -/
def execPolicyTakeover (w : BitVec 64) (s : State) : Host.Outcome State Fault Refusal :=
  whenLive s (s.plain .KST_POLICY_OWN [] w.toNat)

/-- POLICY_HANDBACK: a write of KST_POLICY_OWN. -/
def execPolicyHandback (w : BitVec 64) (s : State) : Host.Outcome State Fault Refusal :=
  whenLive s (s.plain .KST_POLICY_OWN [] w.toNat)

/-- POLICY_ACK_CHANGE. -/
def execPolicyAckChange (n : Nat) (s : State) : Host.Outcome State Fault Refusal :=
  whenLive s (
    if n < 5 ∧ s.owned n ≠ s.held n ∧ hartRuns s (policyHart n) then
      let on := s.owned n
      let s := s.setFld .KST_POLICY_OWN [] ⟨16 + n, 16 + n⟩ (b2n on)
      if n = 0 ∧ on then tensionTaken s else s
    else s)

/-- POLICY_ACK_TIMEOUT. -/
def execPolicyAckTimeout (n : Nat) (s : State) : Host.Outcome State Fault Refusal :=
  whenLive s (if n < 5 ∧ s.owned n ≠ s.held n then recordAt s (unitKst (0x41 + policyHart n)) 4 0 0 none else s)

end Sys2Proof.Machine
end

