-- ==== Sys2Proof/Machine/Boot.lean ====
section
/-!
DEFINITION. Machine/Boot.lean: the settings store (R12, R464 to R469), slots and trials (R470 to R475), Cast-on (R476 to
R479), the end of Cast-off (R485), and management over MCTP with SPDM (R480 to R484).
-/

namespace Sys2Proof.Machine

/-! The settings store (R465 to R469). -/

/-- The addresses of register copies with RWS fields that may differ from their reset values. -/
def rwsAddrs (s : State) : List Nat :=
  ((s.regs.map (·.1)) ++ (s.store.map (·.1))).dedup.filter (fun a =>
    match regIn allRegs a with
    | some (r, _) => (regInfo r).flds.any (fun f => f.ty == .rws)
    | none => false)

/-- The RWS values present at a moment (R12). -/
def rwsVals (s : State) : List (Nat × BitVec 64) :=
  (rwsAddrs s).map (fun a =>
    (a, match regIn allRegs a with
      | some (r, ix) => BitVec.ofNat 64 (s.rd r ix)
      | none => 0))

/-- FC times of the commits of scope 0 in the last rolling hour (R468). -/
def commitTimes (s : State) : List Nat := s.boot.times.filter (fun t => decide (s.clk.fc < t + 3600 * fcSec))

/-- A command is accepted: its commit begins with the values present now. -/
def commitBegin (s : State) (who : List (Option Nat)) : State :=
  let c : Commit := ⟨0, who, rwsVals s⟩
  let s := { s with boot := { s.boot with run := some c, held := none, times := s.clk.fc :: commitTimes s } }
  let s := (s.setFld .KST_SET_STAT [] KST_SET_STAT.BUSY 1).setFld .KST_SET_STAT [] KST_SET_STAT.PENDING 0
  s.setFld .KST_SET_STAT [] KST_SET_STAT.DIRTY 0

/-- A SETTINGS_STORE of scope 0: a status at once, or none while it waits (R467, R468, R478, R485);
INTERNAL while KMH0 does not run (R380). -/
def storeAsk (s : State) (who : Option Nat) : State × Option Nat :=
  if s.boot.event ≠ 11 ∨ (4 ≤ s.boot.off ∧ s.boot.off ≠ 8) then (s, some 9)
  else if !hartRuns s 0 then (s, some 0x0F)
  else
    match s.boot.run, s.boot.held with
    | some _, some h => ({ s with boot := { s.boot with held := some { h with who := h.who ++ [who] } } }, none)
    | r, _ =>
      if 64 ≤ (commitTimes s).length ∨ 950 ≤ s.fld .KST_SET_STAT [] KST_SET_STAT.WEAR_PM then (s, some 0x0E)
      else if r.isNone then (commitBegin s [who], none)
      else
        ({ s.setFld .KST_SET_STAT [] KST_SET_STAT.PENDING 1 with
           boot := { s.boot with held := some ⟨0, [who], []⟩ } }, none)

/-- The status of a commit reaches those that asked for it. -/
def commitAnswer (s : State) (who : List (Option Nat)) (st : Nat) : State :=
  who.foldl (fun s w => match w with
    | none => s.setFld .KST_SET_STAT [] KST_SET_STAT.STATUS st
    | some m => callFinish s m st []) s

/-- The running commit is complete. -/
def commitEnd (s : State) (c : Commit) : State :=
  let s := commitPut { s with boot := { s.boot with run := none } } c
  let s := ((s.setFld .KST_SET_STAT [] KST_SET_STAT.BUSY 0).wrapInc .KST_SET_STAT [] KST_SET_STAT.COMMIT_CNT 1).journal
  let s := commitAnswer s c.who 0
  match s.boot.held with
  | some h => commitBegin s h.who
  | none => s

/-- SETTINGS_COMMIT_DONE (R466, R467). -/
def execSettingsCommitDone (s : State) : Host.Outcome State Fault Refusal :=
  whenUp s (match s.boot.run with
    | some c => if hartRuns s 0 then commitEnd s c else s
    | none => s)

/-- A write of KST_SET_CTL: a STORE of another scope is discarded. -/
def setCtlWrite (s : State) (eff : Nat) : State :=
  if fget eff KST_SET_CTL.STORE = 1 ∧ fget eff KST_SET_CTL.SCOPE ≠ 0 then discardReg s .KST_SET_CTL []
  else
    let s := s.plain .KST_SET_CTL [] eff
    let s := if fget eff KST_SET_CTL.DEFAULT = 1 then s.setFld .KST_SET_STAT [] KST_SET_STAT.DEFAULT_PEND 1 else s
    if fget eff KST_SET_CTL.STORE = 1 then
      match storeAsk s none with
      | (s, some st) => s.setFld .KST_SET_STAT [] KST_SET_STAT.STATUS st
      | (s, none) => s
    else s

/-- SETTINGS_STORE: a write of KST_SET_CTL with STORE. -/
def execSettingsStore (w : BitVec 64) (s : State) : Host.Outcome State Fault Refusal :=
  whenUp s (setCtlWrite s (fput w.toNat KST_SET_CTL.STORE 1))

/-- SETTINGS_DEFAULT: a write of KST_SET_CTL with DEFAULT. -/
def execSettingsDefault (w : BitVec 64) (s : State) : Host.Outcome State Fault Refusal :=
  whenUp s (setCtlWrite s (fput w.toNat KST_SET_CTL.DEFAULT 1))

/-- A DEFAULT request takes effect (R469): committed RWS values go, firmware records stay. -/
def defaultApply (s : State) : State :=
  if s.bit .KST_SET_STAT [] KST_SET_STAT.DEFAULT_PEND then
    { s.setFld .KST_SET_STAT [] KST_SET_STAT.DEFAULT_PEND 0 with
      store := s.store.filter (fun p => match regIn allRegs p.1 with
        | some (.SPAN_VF_CURVE, _) => true
        | some (r, _) => !(regInfo r).flds.any (fun f => f.ty == .rws)
        | none => true) }
  else s

/-- A word as Cast-on loads it: fields of the store take the stored value. -/
def storeMerge (r : RegId) (old new : Nat) : Nat :=
  (regInfo r).flds.foldl (fun acc f =>
    if f.ty = .rws ∨ f.dom = .never ∨ r = .SPAN_VF_CURVE then fput acc ⟨f.hi, f.lo⟩ (fget new ⟨f.hi, f.lo⟩) else acc) old

/-- The values held are written to every die (R13, R476 event 5): RWS fields take their reset value or what is stored. -/
def loadStore (s : State) : State :=
  let s := (rwsAddrs s).foldl (fun s a => match regIn allRegs a with
    | some (r, ix) => s.wr r ix (rwsMerge (regInfo r).flds (s.rd r ix) ((regInfo r).rst s.asm ix).toNat)
    | none => s) s
  s.store.foldl (fun s p => match regIn allRegs p.1 with
    | some (r, ix) => s.wr r ix (storeMerge r (s.rd r ix) p.2.toNat)
    | none => s) s

/-! Slots and trials (R474, R475). -/

/-- Confirmation of the trial that runs: the default slot, the minimum security versions and the revoked keys follow. -/
def trialConfirm (s : State) : State :=
  let k := s.fld .KST_BOOT_STAT [] KST_BOOT_STAT.SLOT
  let s := setSlot (setSlot (setSlot s k KST_SLOT.CONFIRMED 1) k KST_SLOT.TRIAL 0) k KST_SLOT.FAIL_CNT 0
  let mins := (List.range 5).foldl (fun m i =>
    mset 0 m (i + 1) (max (mget 0 m (i + 1)) (mget 0 s.boot.svn (8 * k + i + 1)))) s.boot.minSvn
  let own := 2 ^ (s.fld .KST_SLOT [k] KST_SLOT.KEYSLOT % 4)
  let rev := mget 0 s.boot.revoke k % 16
  let rev := rev - (rev &&& own)
  let s := s.setFld .KST_ID_STAT [] KST_ID_STAT.KEY_REVOKED (s.fld .KST_ID_STAT [] KST_ID_STAT.KEY_REVOKED ||| rev)
  { s with boot := { s.boot with dflt := k, minSvn := mins } }

/-- A slot is selected for a trial at the next Cast-on. -/
def slotSelect (s : State) (k : Nat) : State :=
  { setSlot s k KST_SLOT.TRIAL 1 with boot := { s.boot with trial := some k, fall := false } }

/-- A slot that may be selected. -/
def slotReady (s : State) (k : Nat) : Bool :=
  s.bit .KST_SLOT [k] KST_SLOT.READY && !s.bit .KST_SLOT [k] KST_SLOT.WRITING

/-- A write of KST_BOOT_CTL. -/
def bootCtlWrite (s : State) (eff : Nat) : State :=
  let k := fget eff KST_BOOT_CTL.NEXT_SLOT
  if fget eff KST_BOOT_CTL.CONFIRM_MIN = 0 ∨ (fget eff KST_BOOT_CTL.SELECT = 1 ∧ !slotReady s k) then
    discardReg s .KST_BOOT_CTL []
  else
    let s := s.plain .KST_BOOT_CTL [] eff
    let s := if fget eff KST_BOOT_CTL.SELECT = 1 then slotSelect s k else s
    let s := if fget eff KST_BOOT_CTL.CONFIRM = 1 ∧ trialOpen s ∧ s.boot.event = 11 then trialConfirm s else s
    let s := if fget eff KST_BOOT_CTL.RECOVERY = 1 then { s with boot := { s.boot with rcvy := true } } else s
    let s := if fget eff KST_BOOT_CTL.CASTOFF = 1 then castOffAsk s none else s
    if fget eff KST_BOOT_CTL.MOD_RESET = 1 then moduleReset s else s

/-- BOOT_SELECT: a write of KST_BOOT_CTL with SELECT. -/
def execBootSelect (w : BitVec 64) (s : State) : Host.Outcome State Fault Refusal :=
  whenUp s (bootCtlWrite s (fput w.toNat KST_BOOT_CTL.SELECT 1))

/-- BOOT_CONFIRM. -/
def execBootConfirm (w : BitVec 64) (s : State) : Host.Outcome State Fault Refusal :=
  whenUp s (bootCtlWrite s (fput w.toNat KST_BOOT_CTL.CONFIRM 1))

/-- CASTOFF. -/
def execCastoff (w : BitVec 64) (s : State) : Host.Outcome State Fault Refusal :=
  whenUp s (bootCtlWrite s (fput w.toNat KST_BOOT_CTL.CASTOFF 1))

/-- BOOT_MOD_RESET. -/
def execBootModReset (w : BitVec 64) (s : State) : Host.Outcome State Fault Refusal :=
  whenUp s (bootCtlWrite s (fput w.toNat KST_BOOT_CTL.MOD_RESET 1))

/-- BOOT_RECOVERY. -/
def execBootRecovery (w : BitVec 64) (s : State) : Host.Outcome State Fault Refusal :=
  whenUp s (bootCtlWrite s (fput w.toNat KST_BOOT_CTL.RECOVERY 1))

/-- TRIAL_EXPIRE: Cast-off, then a module reset from the other slot. -/
def execTrialExpire (s : State) : Host.Outcome State Fault Refusal :=
  whenUp s (
    if s.boot.event = 11 ∧ trialOpen s ∧ s.boot.off ≠ 6 then
      let s := trialFail s (s.fld .KST_BOOT_STAT [] KST_BOOT_STAT.SLOT)
      let s := { s with boot := { s.boot with offReset := true } }
      if s.boot.off ≠ 0 then s
      else if s.bit .KST_RAS_STAT [] KST_RAS_STAT.CONT_ACTIVE then { s with boot := { s.boot with off := 8 } }
      else castOffBegin s
    else s)

/-! Cast-off (R485). -/

/-- CASTOFF_DRAIN_TIMEOUT: event 2. Tiles that software started itself are aborted too. -/
def execCastoffDrainTimeout (s : State) : Host.Outcome State Fault Refusal :=
  whenUp s (
    if s.boot.off = 1 then
      let s := s.q.disps.foldl (fun s d =>
        endDisp (mapDisp s d.id (fun (d : Disp) => d.forced 0x01)) d.id 0x01 none) s
      let s := (s.tiles.map (·.1)).foldl (fun s t => if s.tstate t = 0 ∨ s.tstate t = 7 then s else abortWrite s t) s
      let iid := s.fld .KST_RAS_CTL [] KST_RAS_CTL.CORE_IID
      let s := if iid = 0 then s
        else (List.range 64).foldl (fun s c => if s.coreRuns c then s.send (.coreIrq c iid) else s) s
      { s with boot := { s.boot with off := 2 } }
    else s)

/-- Retire buckets as Cast-off commits them: their levels now. -/
def bucketsKept (s : State) : List (Nat × Bucket) :=
  (s.ras.buckets.map (fun (p : Nat × Bucket) =>
    (p.1, (⟨(bucketNow (s.rd .KST_RETIRE [p.1 / 65536]) s.clk.fc p.2).level, 0⟩ : Bucket)))).filter
    (fun (p : Nat × Bucket) => p.2 != ⟨0, 0⟩)

/-- Events 3 to 6: cores held and caches cleaned, commits complete, links down, tile groups off. -/
def castOffEnd (s : State) : State :=
  let s := if s.boot.off = 2 then
      cleanAll ((List.range 64).foldl (fun s c => if coreState s c = 1 then coreStop s c else s) s)
    else s
  let s := match s.boot.run with
    | some c => commitEnd s c
    | none => s
  let s := match s.boot.run with
    | some c => commitEnd s c
    | none => s
  let s := if s.journalOpen then { s.journal with boot := { s.journal.boot with buckets := bucketsKept s } } else s
  let s := (clxLinks s).foldl (fun s l => clxDown s l 0) s
  let s := portReset (dropFar s)
  let s := (List.range 64).foldl offDone s
  let s := s.setFld .KST_BOOT_STAT [] KST_BOOT_STAT.STAGE 10
  offAnswer { s with boot := { s.boot with off := 6 } } 0

/-- CASTOFF_DONE: nothing runs any more; after an unconfirmed trial a module reset follows. -/
def execCastoffDone (s : State) : Host.Outcome State Fault Refusal :=
  whenUp s (
    if s.boot.off = 3 ∨ (s.boot.off = 2 ∧ drained s) then
      let s := castOffEnd s
      if s.boot.offReset then moduleReset s else s
    else s)

/-! Cast-on (R476, R477). -/

/-- A slot that Cast-on may take: READY and with fewer than three failures. -/
def slotGood (s : State) (k : Nat) : Bool :=
  s.bit .KST_SLOT [k] KST_SLOT.READY && decide (s.fld .KST_SLOT [k] KST_SLOT.FAIL_CNT < 3)

/-- The slot of this Cast-on: the one selected for a trial, or to fall back to; else the default; else the other. -/
def slotChoice (s : State) : Option Nat :=
  let t := s.boot.trial
  match t.filter (fun k => s.bit .KST_SLOT [k] KST_SLOT.READY && (!s.boot.fall || slotGood s k)) with
  | some k => some k
  | none =>
    if slotGood s s.boot.dflt then some s.boot.dflt
    else if slotGood s (1 - s.boot.dflt) then some (1 - s.boot.dflt) else none

/-- The failure of a Cast-on as that of its slot: the next one runs from the other slot, as a fallback. -/
def slotFail (s : State) (k : Nat) : State :=
  let s := setSlot s k KST_SLOT.FAIL_CNT (min 255 (s.fld .KST_SLOT [k] KST_SLOT.FAIL_CNT + 1))
  let s := if s.boot.trial = some k ∧ !s.boot.fall then setSlot s k KST_SLOT.TRIAL 0 else s
  castOnStart (moduleState { s with boot := { s.boot with trial := some (1 - k), fall := true } }) false

/-- Event 2: a slot is taken; `v`: 0 its checks pass, 1 they fail, 2 the directory cannot be read. -/
def castOnRom (s : State) (v : Nat) : State :=
  if v = 2 then enterRecovery s 4
  else match slotChoice s with
    | none => enterRecovery s 1
    | some k =>
      let b := s.boot
      let fell := b.fall || (b.trial != some k && k != b.dflt)
      let s := s.setFld .KST_BOOT_STAT [] KST_BOOT_STAT.SLOT k
      let s := s.setFld .KST_BOOT_STAT [] KST_BOOT_STAT.TRIAL (b2n (b.trial == some k && !b.fall))
      let s := s.setFld .KST_BOOT_STAT [] KST_BOOT_STAT.FALLBACK (b2n fell)
      let s := s.satInc .KST_BOOT_STAT [] KST_BOOT_STAT.BOOT_CNT 1
      if v = 1 then slotFail s k else { s with boot := { s.boot with event := 2 } }

/-- The stage of the module and the event reached. -/
def castOnAt (s : State) (ev stage : Nat) : State :=
  { s.setFld .KST_BOOT_STAT [] KST_BOOT_STAT.STAGE stage with boot := { s.boot with event := ev } }

/-- Event 3: the other harts are loaded, and the device secret is reproduced or not (R480). -/
def castOnStage1 (s : State) (puf : Bool) : State :=
  let s := castOnAt (s.setFld .KST_HART_STAT [] KST_HART_STAT.RUN 15) 3 1
  if puf then (s.setFld .KST_ID_STAT [] KST_ID_STAT.PUF_OK 1).setFld .KST_ID_STAT [] KST_ID_STAT.DEVID_READY 1
  else recordAt (s.setFld .KST_ID_STAT [] KST_ID_STAT.PUF_FAIL 1) (unitKst 0x41) 6 0 0 none

/-- Event 4: the journal is replayed, and the module ID takes effect (R41). -/
def castOnSettings (s : State) : State :=
  let s := castOnAt (defaultApply s) 4 2
  let id := ((mfind s.store (regAddr .KST_MOD_ID [])).getD ((regInfo .KST_MOD_ID).rst s.asm [])).toNat
  let s := s.setFld .KST_MOD_ID [] KST_MOD_ID.ACT_ID (fget id KST_MOD_ID.MOD_ID)
  s.setFld .KST_MOD_ID [] KST_MOD_ID.ACT_VALID (fget id KST_MOD_ID.VALID)

/-- Every Claden-D link has trained, or is retired. -/
def cldTrained (s : State) : Bool :=
  (List.range (9 + s.asm.piers)).all (fun d => (List.range 30).all (fun p =>
    match cldLink s d p with
    | some (a, _) => cldStat s a CLD_PORT_STAT.STATE == 6 || cldErr s a CLD_PORT_ERR.RETIRED == 1
    | none => true))

/-- Event 5: the held values are written to every die; the power mode comes from them (R25). -/
def castOnDies (s : State) : State :=
  let s := castOnAt (loadStore s) 5 3
  let m := s.fld .KST_PWR_MODE [] KST_PWR_MODE.MODE
  let s := { s with pwr := { s.pwr with mode := m } }
  let s := s.setFld .TNS_CAP [] TNS_CAP.CAP_W (capOf s m)
  pwrSync (s.setFld .KST_PWR_MODE [] KST_PWR_MODE.PENDING 0)

/-- A stack after its training: ACTIVE, but for a throttle in force or a stack that has still to cool (R312, R316). -/
def stackTrained (s : State) (k : Nat) : State :=
  let st := s.fld .HBM_STK_STAT [k] HBM_STK_STAT.STATE
  s.setFld .HBM_STK_STAT [k] HBM_STK_STAT.STATE (if st = 2 then 2 else if st = 3 ∨ st = 4 then 4 else 1)

/-- Event 6: the stacks are trained, soft repairs become hard (R313), and after a cold reset every frame is written with zeros under class C. -/
def castOnHbm (s : State) : State :=
  let s := (List.range s.asm.stacks).foldl stackTrained (castOnAt s 6 4)
  let s := (List.range s.asm.stacks).foldl (fun s k =>
    let p := s.fld .HBM_PPR_STAT [k] HBM_PPR_STAT.HARD_PEND
    if p = 0 then s
    else ((s.satInc .HBM_PPR_STAT [k] HBM_PPR_STAT.HARD_CNT p).setFld .HBM_PPR_STAT [k] HBM_PPR_STAT.HARD_PEND 0).commit
      .HBM_PPR_STAT [k]) s
  if s.boot.cold then
    let s := (List.range 8192).foldl (fun s n => s.wr .HBM_FCLASS [n] (2 ^ 64 - 1)) s
    { s with mem := { s.mem with hbm := [], patF := [], pz := [], er := [], frmD := [], odd := [] } }
  else s

/-- A frame taken by firmware: class C, zeros. -/
def fwFrame (s : State) (f : Nat) : State :=
  let s := zeroFrame (setFrameClass s f true) f
  { s with plc := { s.plc with fw := sins s.plc.fw f } }

/-- The save page of a tile: a unified page of a context of firmware's, not shared (R143, R319). -/
def placeSave (s : State) (t : Nat) : State :=
  match takeFrame s with
  | none => s
  | some (f, s) =>
    let page := 2 ^ 20 - 512 + t
    let e : BitVec 64 := BitVec.ofNat 64 (f * 2 ^ 32 + 0xFF * 2 ^ 8 + 2 ^ 4 + 2 ^ 3 + 1)
    (setEntry (fwFrame s f) page e).setFld .TILE_SAVE_BASE (tix t) TILE_SAVE_BASE.BASE page

/-- Event 7: the Placement Table in the four highest frames of the highest NORMAL region, the object table below, the other
firmware frames below that, and the save pages (R319, R328). -/
def castOnPlace (s : State) : State :=
  let s := castOnAt { s with plc := { s.plc with fw := [], raw := [], turn := 0 } } 7 4
  match ((List.range 32).reverse.filter (fun k => regionNormal s k && decide (0 < (s.liveList k).length))).head? with
  | none => s
  | some k =>
    let top := k * s.asm.stacks * 1024 + (s.liveList k).length * 1024
    let s := (List.range 128).foldl (fun s i => fwFrame s (top - 128 + i)) s
    let s := { s with mem := { s.mem with patF := [top - 4, top - 3, top - 2, top - 1] } }
    let s := s.setFld .PLC_PT_BASE [] PLC_PT_BASE.BASE (0x100000 + top - 4)
    let s := s.setFld .PLC_OBJ_BASE [] PLC_PT_BASE.BASE (0x100000 + top - 5)
    (List.range 512).foldl placeSave s

/-- Event 8: every Span cache is invalidated and enabled (R298), and every tile tests itself. -/
def castOnTiles (s : State) (fails : List Nat) : State :=
  let s := castOnAt s 8 5
  let s := (fails.filter (fun g => decide (g < 1024))).foldl selfTestFail s
  (List.range 8).foldl (fun s p =>
    (s.setFld .SPAN_CACHE_STAT [p] SPAN_CACHE_STAT.INV_CLEAN 1).setFld .SPAN_CACHE_CTL [p] SPAN_CACHE_CTL.EN 1) s

/-- Event 9: Claden-X links and the host port start to train. -/
def castOnLinks (s : State) : State :=
  let s := castOnAt s 9 6
  let s := (clxLinks s).foldl (fun s l =>
    if s.bit .CLX_LINK_CTL (clxIx l) CLX_LINK_CTL.EN && !s.bit .CLX_LINK_ERR (clxIx l) CLX_LINK_ERR.RETIRED
    then setClxState s l 1 else s) s
  { s with clc := { s.clc with mode := s.fld .P0_CLC_CFG [] P0_CLC_CFG.MODE } }

/-- Event 10: core 0 starts at the entry of the image, which is not the spec's: a free value. -/
def castOnCores (s : State) : State :=
  let s := castOnAt s 10 7
  let v := Config.freeWord s.freeCtr
  let s := { s with freeCtr := s.freeCtr + 1 }
  let s := s.setFld .KST_CORE_CTL [0] KST_CORE_CTL.RVEC (v.toNat % 2 ^ 36)
  if coreRetired s 0 then s else coreGo (s.setFld .KST_CORE_CTL [0] KST_CORE_CTL.HOLD 0) 0

/-- Event 11: RUN. -/
def castOnRun (s : State) : State :=
  let s := castOnAt s 11 8
  let s := s.setFld .KST_BOOT_STAT [] KST_BOOT_STAT.BOOT_MS (min (2 ^ 32 - 1) ((s.clk.fc - s.boot.start) / fcMs))
  { s with boot := { s.boot with trial := none, fall := false } }

/-- Cast-on goes on: not in Recovery, not during Cast-off, and KMH0 runs with its reference present. -/
def castOnGoes (s : State) : Bool :=
  s.fld .KST_BOOT_STAT [] KST_BOOT_STAT.STAGE != 15 && s.boot.off == 0 && hartRuns s 0 && s.board.refOk

/-- CAST_ON_STAGE_DONE: the next event of R476; `v` = 1 when a check of events 2, 3 or 5 fails, 2 when the directory cannot
be read, at event 4 its copies beside the journal (R477); `puf`: the secret was reproduced; `fails`: tiles that fail their test. -/
def execCastOnStageDone (v : Nat) (puf : Bool) (fails : List Nat) (s : State) : Host.Outcome State Fault Refusal :=
  whenUp s (
    if !castOnGoes s then s
    else
      let k := s.fld .KST_BOOT_STAT [] KST_BOOT_STAT.SLOT
      match s.boot.event with
      | 1 => castOnRom s v
      | 2 => if v = 1 then slotFail s k else castOnStage1 s puf
      | 3 => if v = 2 then slotFail s k else castOnSettings s
      | 4 => if v = 1 then slotFail s k else if cldTrained s then castOnDies s else s
      | 5 => castOnHbm s
      | 6 => if hbmOff s then s else castOnPlace s
      | 7 => castOnTiles s fails
      | 8 => castOnLinks s
      | 9 => castOnCores s
      | 10 => castOnRun s
      | _ => s)

/-- CAST_ON_TIMEOUT: RUN not reached within 10 s (R477). -/
def execCastOnTimeout (s : State) : Host.Outcome State Fault Refusal :=
  whenUp s (
    if castOnGoes s ∧ 1 ≤ s.boot.event ∧ s.boot.event < 11 then
      if s.boot.event = 1 then
        match slotChoice s with
        | some k => slotFail s k
        | none => enterRecovery s 1
      else slotFail s (s.fld .KST_BOOT_STAT [] KST_BOOT_STAT.SLOT)
    else s)

/-- ALIAS_KEY_READY (R482). -/
def execAliasKeyReady (s : State) : Host.Outcome State Fault Refusal :=
  whenUp s (
    if s.boot.event = 11 && s.bit .KST_ID_STAT [] KST_ID_STAT.PUF_OK && hartRuns s 0 then
      s.setFld .KST_ID_STAT [] KST_ID_STAT.ALIAS_READY 1
    else s)

/-! Management over MCTP (R484). -/

/-- KMH0 answers on the management bus (R484). -/
def mctpUp (s : State) : Bool := s.up && hartRuns s 0

/-- A management exchange: without KMH0 there is no response. -/
def whenMctp (s : State) (k : State) : Host.Outcome State Fault Refusal := .next (if mctpUp s then k else s)

/-- MCTP_CONTROL_MSG: the endpoint number set (command 1) and read (2); other commands are answered as unsupported
(PRESUMED, log 108: the transport binding). -/
def execMctpControlMsg (cmd eid : Nat) (s : State) : Host.Outcome State Fault Refusal :=
  whenMctp s (
    if cmd = 1 then { s.send (.mctp 0 [1, 0, eid % 256]) with boot := { s.boot with eid := eid % 256 } }
    else if cmd = 2 then s.send (.mctp 0 [2, 0, s.boot.eid])
    else s.send (.mctp 0 [cmd, 5]))

/-- The vendor calls accepted in RUN and in Recovery. -/
def mctpCalls (stage : Nat) : List Nat :=
  if stage = 8 then [0x0001, 0x1306, 0x1201, 0x1303, 0x1304, 0x1307, 0x1305, 0x1301, 0x1308, 0x0E08, 0x0101, 0x1101, 0x1103]
  else if stage = 15 then [0x0001, 0x1306, 0x1201, 0x1303, 0x1304, 0x1307]
  else []

/-- MCTP_VENDOR_MSG: a service call with the authority of the system mailbox; others return PERMISSION. A message while a
call is under way receives no response. -/
def execMctpVendorMsg (code : Nat) (s : State) : Host.Outcome State Fault Refusal :=
  whenMctp s (
    if !(mctpCalls (s.fld .KST_BOOT_STAT [] KST_BOOT_STAT.STAGE)).contains code then s.send (.mctp 0x7E [0x0E])
    else if (callOf s 257).isSome then s
    else callPush s ⟨257, code, false, 0, false, false, none, []⟩)

/-! SPDM (R480, R482, R483). Codes are those of SPDM 1.3 (PRESUMED, log 108). -/

/-- A response. -/
def spdmSend (s : State) (args : List Nat) : State := s.send (.mctp 5 args)

/-- An ERROR response. -/
def spdmError (s : State) (code : Nat) : State := spdmSend s [0x7F, code]

/-- A request: without the device secret every one fails as Unspecified, and one out of order as UnexpectedRequest. -/
def spdmRow (s : State) (need : Nat) (k : State → State) : Host.Outcome State Fault Refusal :=
  whenMctp s (
    if !s.bit .KST_ID_STAT [] KST_ID_STAT.PUF_OK then spdmError s 0x05
    else if s.boot.spdm < need then spdmError s 0x04 else k s)

/-- The requests answered so far. -/
def spdmAt (s : State) (n : Nat) : State := { s with boot := { s.boot with spdm := n } }

/-- A response with one value that the spec does not state: a digest, a chain or a signature. -/
def spdmFree (s : State) (args : List Nat) : State :=
  { spdmSend s (args ++ [(Config.freeWord s.freeCtr).toNat]) with freeCtr := s.freeCtr + 1 }

/-- GET_VERSION. -/
def execGetVersion (s : State) : Host.Outcome State Fault Refusal :=
  spdmRow s 0 (fun s => spdmSend (spdmAt s 1) [0x04, 0x13])

/-- GET_CAPABILITIES: certificates, challenges and signed measurements; no sessions. -/
def execGetCapabilities (s : State) : Host.Outcome State Fault Refusal :=
  spdmRow s 1 (fun s => spdmSend (spdmAt s (max 2 s.boot.spdm)) [0x61, 0x16])

/-- NEGOTIATE_ALGORITHMS: the algorithms of R483 if the requester offers them. -/
def execNegotiateAlgorithms (asym hash : Bool) (s : State) : Host.Outcome State Fault Refusal :=
  spdmRow s 2 (fun s =>
    if asym && hash then spdmSend (spdmAt s 3) [0x63, 4, 1, 2] else spdmError s 0x01)

/-- GET_DIGESTS: slot 0 only. -/
def execGetDigests (s : State) : Host.Outcome State Fault Refusal := spdmRow s 3 (fun s => spdmFree s [0x01, 1])

/-- GET_CERTIFICATE. -/
def execGetCertificate (slot : Nat) (s : State) : Host.Outcome State Fault Refusal :=
  spdmRow s 3 (fun s => if slot = 0 then spdmFree s [0x02, 0] else spdmError s 0x01)

/-- A response that needs a signature waits for the Alias key (R482). -/
def spdmSigned (s : State) (args : List Nat) : State :=
  if s.bit .KST_ID_STAT [] KST_ID_STAT.ALIAS_READY then spdmFree s args else spdmError s 0x42

/-- CHALLENGE. -/
def execChallenge (slot : Nat) (s : State) : Host.Outcome State Fault Refusal :=
  spdmRow s 3 (fun s => if slot = 0 then spdmSigned s [0x03, 0] else spdmError s 0x01)

/-- GET_MEASUREMENTS: index 0 asks for their number, 1 to 8 for one, 255 for all. -/
def execGetMeasurements (idx : Nat) (sign : Bool) (s : State) : Host.Outcome State Fault Refusal :=
  spdmRow s 3 (fun s =>
    if 8 < idx ∧ idx ≠ 255 then spdmError s 0x01
    else if sign then spdmSigned s [0x60, idx, 8]
    else if idx = 0 then spdmSend s [0x60, 0, 8] else spdmFree s [0x60, idx, 8])

end Sys2Proof.Machine
end

