-- ==== Sys2Proof/Machine/Elec.lean ====
section
/-!
DEFINITION. Machine/Elec.lean: module power, MOD_RESET_N and the input (R13, R487 to R491, R494, R500), and the reference
clock (R432, R433).
-/

namespace Sys2Proof.Machine

/-- Module power is present. -/
def powered (s : State) : Bool := s.board.pwrGood && s.board.convOn

/-- COLD_RESET (R13): power removed and restored, the sequence of R489 included. A latched THERMTRIP_N prevents it; with
MOD_RESET_N low Cast-on waits for its release. -/
def execColdReset (s : State) : Host.Outcome State Fault Refusal :=
  .next (
    if s.board.tripped then s
    else
      let s := { s with board := { s.board with pwrEn := true, pwrGood := true, convOn := true, lowHold := false
                                                rstHold := false, alertInt := false } }
      if s.board.rstLow then coldState (commitCut s) else coldReset s)

/-- A module reset while MOD_RESET_N stays low: what it leaves, without Cast-on. -/
def resetHeld (s : State) : State :=
  let s := if trialOpen s ∧ s.boot.event = 11 then trialFail s (s.fld .KST_BOOT_STAT [] KST_BOOT_STAT.SLOT) else s
  let s := moduleState s
  { s with board := { s.board with rstLow := true } }

/-- MODULE_RESET (R491): a low pulse of MOD_RESET_N of ns nanoseconds, or a fall that lasts (`held`); `strap` is the
recovery strap at its release. A pulse of 1 to 2 microseconds is ignored or taken whole: a free choice. -/
def execModuleReset (ns : Nat) (held strap : Bool) (s : State) : Host.Outcome State Fault Refusal :=
  .next (
    if !powered s then { s with board := { s.board with rstLow := s.board.rstLow || held } }
    else if s.board.rstLow || (ns < 1000 && !held) then s
    else
      let (b, s) := if ns < 2000 ∧ ¬ held then s.freeBool else (true, s)
      if !b then s
      else if held then resetHeld s
      else moduleReset { s with board := { s.board with strap := strap, rstHold := false } })

/-- MOD_RESET_RELEASE (R489, R491): Cast-on begins, as after a cold reset when none has run since power came. -/
def execModResetRelease (strap : Bool) (s : State) : Host.Outcome State Fault Refusal :=
  .next (
    if !s.board.rstLow then s
    else
      let s := { s with board := { s.board with rstLow := false, strap := strap } }
      if !powered s then s
      else if s.boot.event = 0 then castOnStart (linksCold s) true
      else castOnStart s false)

/-- PWR_EN_RISE (R489, R490): the converter soft-starts, unless PWR_EN has been low for less than 1 s. -/
def execPwrEnRise (s : State) : Host.Outcome State Fault Refusal :=
  .next (
    if s.board.pwrEn then s
    else { s with board := { s.board with pwrEn := true, convOn := !s.board.lowHold && !s.board.tripped } })

/-- PWR_GOOD_RISE (R489): every rail is in regulation, and the module is as power finds it. With MOD_RESET_N already
released it holds itself in reset. -/
def execPwrGoodRise (s : State) : Host.Outcome State Fault Refusal :=
  .next (
    if s.board.convOn && !s.board.pwrGood then
      let s := coldState (commitCut s)
      let s := { s with board := { s.board with pwrGood := true, rstHold := !s.board.rstLow } }
      s.send (.pin 2 1)
    else s)

/-- PWR_GOOD_RESET_DELAY_EXPIRE (R489). -/
def execPwrGoodResetDelayExpire (s : State) : Host.Outcome State Fault Refusal :=
  .next (
    if powered s && s.board.rstHold then
      let s := { s with board := { s.board with rstHold := false } }
      if s.boot.event = 0 then castOnStart (linksCold s) true else s
    else s)

/-- PWR_EN_FALL (R490): power goes. -/
def execPwrEnFall (s : State) : Host.Outcome State Fault Refusal :=
  .next (
    if !s.board.pwrEn then s
    else
      let s := if powered s then powerLost s else s
      { s with board := { s.board with pwrEn := false, pwrGood := false, convOn := false, lowHold := true
                                       rstHold := false } })

/-- PWR_EN_LOW_HOLD_EXPIRE (R490, R494): one second since the fall; a rise in between takes effect now, but it leaves
THERMTRIP_N latched. -/
def execPwrEnLowHoldExpire (s : State) : Host.Outcome State Fault Refusal :=
  .next (
    if !s.board.lowHold then s
    else if s.board.pwrEn then { s with board := { s.board with lowHold := false, convOn := !s.board.tripped } }
    else
      let was := s.board.tripped
      let s := { s with board := { s.board with lowHold := false, tripped := false } }
      if was then s.send (.pin 1 1) else s)

/-- VIN_OUT_OF_RANGE (R488): the input in tenths of a volt, and whether it has stayed there for the time of a shutdown. -/
def execVinOutOfRange (dv : Nat) (held : Bool) (s : State) : Host.Outcome State Fault Refusal :=
  .next (
    if !s.board.convOn then s
    else if held ∧ (dv < 430 ∨ 570 < dv) then
      if powered s then powerLost s else { s with board := { s.board with convOn := false } }
    else if dv < 460 ∧ s.up then
      let was := s.board.alertInt || s.board.alertExt
      let s := { s with board := { s.board with alertInt := true } }
      if was then s else alertAssert s
    else s)

/-- CONVERTER_RESTART (R488). -/
def execConverterRestart (s : State) : Host.Outcome State Fault Refusal :=
  .next (
    if s.board.pwrEn && !s.board.convOn && !s.board.lowHold && !s.board.tripped then
      { s with board := { s.board with convOn := true } }
    else s)

/-- BOARD_SENSOR_READ (R500): the input voltage, or the coolant at inlet and outlet, or both, as KMH1 reads them. -/
def execBoardSensorRead (vin : Option Nat) (coolant : Option (Nat × Nat)) (s : State) : Host.Outcome State Fault Refusal :=
  whenUp s (
    if !hartRuns s 1 then s
    else
      let s := match vin with
        | some v => s.setFld .KST_BOARD_STAT [] KST_BOARD_STAT.VIN_DV v
        | none => s
      match coolant with
      | some (i, o) =>
        (s.setFld .KST_BOARD_STAT [] KST_BOARD_STAT.IN_C i).setFld .KST_BOARD_STAT [] KST_BOARD_STAT.OUT_C o
      | none => s)

/-! The reference (R433). -/

/-- REF_CLOCK_LOSS: every PLL holds its frequency. -/
def execRefClockLoss (s : State) : Host.Outcome State Fault Refusal :=
  .next (
    let s := { s with board := { s.board with refOk := false } }
    if s.up ∧ s.pwr.ref = 0 then
      { s.setFld .TNS_EVENT [] TNS_EVENT.REF_LOST 1 with pwr := { s.pwr with ref := 1 } }
    else s)

/-- REF_HOLD_EXPIRE: clocks stop but for the harts' domain. -/
def execRefHoldExpire (s : State) : Host.Outcome State Fault Refusal :=
  whenUp s (
    if s.pwr.ref = 1 then { recordAt s (unitKst 0x41) 6 0 0 none with pwr := { s.pwr with ref := 2 } } else s)

/-- REF_CLOCK_RETURN: within the hold nothing else changes. -/
def execRefClockReturn (s : State) : Host.Outcome State Fault Refusal :=
  .next (
    if s.pwr.ref = 1 then { s with pwr := { s.pwr with ref := 0 }, board := { s.board with refOk := true } } else s)

/-- REF_CLOCK_STABLE: the module reset after a lost reference, or Cast-on leaves its wait. -/
def execRefClockStable (s : State) : Host.Outcome State Fault Refusal :=
  .next (
    let s' := { s with board := { s.board with refOk := true }, pwr := { s.pwr with ref := 0 } }
    if powered s && s.pwr.ref == 2 && !s.board.rstLow then moduleReset s' else s')

end Sys2Proof.Machine
end

