-- ==== Sys2Proof/Machine/RegIO.lean ====
section
/-!
DEFINITION. Machine/RegIO.lean: software accesses to the register region (R6 to R12, R504): what a read returns, with
the fields that are computed when read, and what a write does in each register.
-/

namespace Sys2Proof.Machine

/-! Reads. -/

/-- Whether a bank of a unit is valid, and its class. -/
def bankClass (s : State) (rs : RegId) (ix : List Nat) : Nat :=
  if s.bit rs ix ERR_STATUS.VALID then s.fld rs ix ERR_STATUS.CLASS else 0

/-- Whether any bank of a die has VALID = 1, with the largest class among them. -/
def dieSum (s : State) (r : RegId) (pre : List Nat) : Nat × Nat :=
  (List.range 128).foldl (fun a b =>
    let ix := pre ++ [b]
    if errIxExists r ix ∧ s.bit r ix ERR_STATUS.VALID then (1, max a.2 (s.fld r ix ERR_STATUS.CLASS)) else a) (0, 0)

/-- KST_ERR_SUM: which dies hold a valid bank, and the highest class among the valid banks. -/
def errSum (s : State) : Nat :=
  let sp := (List.range 8).map (fun i => dieSum s .SPAN_ERR_STATUS [i])
  let k := dieSum s .KST_ERR_STATUS []
  let pi := (List.range 4).map (fun i => if i < s.asm.piers then dieSum s .PIER_ERR_STATUS [i] else (0, 0))
  let hb := (List.range 12).map (fun i => if i < s.asm.stacks then dieSum s .HBM_ERR_STATUS [i] else (0, 0))
  let bits (l : List (Nat × Nat)) : Nat := l.foldr (fun x n => x.1 + 2 * n) 0
  let top := (sp ++ [k] ++ pi ++ hb).foldl (fun a x => max a x.2) 0
  bits sp + k.1 * 2 ^ 8 + bits pi * 2 ^ 9 + bits hb * 2 ^ 13 + top * 2 ^ 28

/-- KST_ERR_LOG_ENTk: the entry that KST_ERR_LOG_IDX names; an entry never written reads zero. -/
def logWord (s : State) (k : Nat) : Nat :=
  match mfind s.ras.log (s.fld .KST_ERR_LOG_IDX [] KST_ERR_LOG_IDX.IDX) with
  | none => 0
  | some e =>
    match k with
    | 0 => e.unit % 2 ^ 16 + (e.cls % 16) * 2 ^ 16 + (e.status % 256) * 2 ^ 24 + (e.cause % 256) * 2 ^ 32 +
        (e.req % 2 ^ 16) * 2 ^ 40
    | 1 => e.addr.toNat
    | 2 => e.synd.toNat
    | _ => e.time.toNat

/-- What a register copy holds when software reads it: the fields that other state determines are computed. Reads of the
TILE_ registers of a group that is off return zero (R413). -/
def regValue (s : State) (r : RegId) (ix : List Nat) : Nat :=
  let i := ix.getD 0 0
  let w := s.rd r ix
  match r with
  | .KST_ERR_SUM => errSum s
  | .KST_ERR_LOG_ENT => logWord s i
  | .HBM_REGION => if s.fld .HBM_REGION ix HBM_REGION.STATE = 1 then fput w HBM_REGION.HOLD_CNT (holdCount s i) else w
  | .CTX_POOL => fput w CTX_POOL.CHARGED (charged s i)
  | .PLC_POOL_STAT =>
    fput (fput (fput w PLC_POOL_STAT.POOL (poolCount s)) PLC_POOL_STAT.FREE (freeCount s)) PLC_POOL_STAT.RAW s.plc.raw.length
  | .PLC_STAT => fput w PLC_STAT.OVERCOMMIT (b2n (decide (poolCount s < reserveSum s)))
  | .TR_Q_STAT =>
    let x := s.trs i
    let w := fput w TR_Q_STAT.HEAD (x.started % trSize s i)
    let w := fput w TR_Q_STAT.DISABLE_PENDING (b2n (s.bit .TR_CTL [i] TR_CTL.DISABLE && !x.run.isEmpty))
    fput (fput w TR_Q_STAT.BUSY (b2n (trBusy s i))) TR_Q_STAT.LAYER
      ((x.run.head?.map (·.n)).getD (x.next - 1))
  | .KST_SET_STAT => fput w KST_SET_STAT.BUDGET (64 - (commitTimes s).length)
  | .TILE_MMA_STAT => mmaStatWord s (i * 64 + ix.getD 1 0)
  | .TILE_MOVE_STAT => fput w TILE_MOVE_STAT.ACTIVE (s.tile (i * 64 + ix.getD 1 0)).moves.length
  | _ => w

/-- Registers in a tile's block of the Span slice. -/
def tileReg (r : RegId) : Bool :=
  match r with
  | .TILE_CTL | .TILE_STAT | .TILE_EXC | .TILE_EXC_ADDR | .TILE_ENTRY | .TILE_ARG | .TILE_SAVE_BASE | .TILE_IMEM_SRC
  | .TILE_IMEM_LOAD | .TILE_PROG_ID | .TILE_STAY_WIN | .TILE_MOVE_STAT | .TILE_EPOCH | .TILE_MMA_CTL | .TILE_MMA_STAT
  | .TILE_MMA_PERF | .TILE_MMA_KSTEP | .TILE_FMT_FLAGS | .TILE_FMT_CTL | .TILE_SR_SEED | .TILE_AMAX | .FMT_DESC => true
  | _ => false

/-- The value a software read of 64 bits returns. -/
def regSeen (s : State) (r : RegId) (ix : List Nat) : Nat :=
  if tileReg r && !tilePowered s (ix.getD 0 0 * 64 + ix.getD 1 0) then 0
  else readMask (regInfo r).flds (regValue s r ix)

/-- A software read of `n` bytes (R6, R8, R9, R303, R504): none for an undecoded access. A wrong size or alignment reads
zero and is logged; an absent Pier or stack reads zero. -/
def regRead (s : State) (req a n : Nat) : Option (State × List (BitVec 8)) :=
  match regSel s.asm a with
  | .undecoded => none
  | .absent => some (s, List.replicate n 0)
  | .reg r ix =>
    if (n = 8 ∧ a % 8 = 0) ∨ (n = 4 ∧ a % 4 = 0) then some (s, leBytes n (regSeen s r ix >>> (a % 8 * 8)))
    else some (logDiscard s a req, List.replicate n 0)

/-! Writes of registers without an operation of their own. -/

/-- A write of PLC_FAR_CFG: EN may be cleared only while no page is in the far tier, and the other fields are writable
while EN = 0. -/
def farCfgWrite (s : State) (eff : Nat) : State :=
  if s.bit .PLC_FAR_CFG [] PLC_FAR_CFG.EN then
    if fget eff PLC_FAR_CFG.EN = 0 then
      (if (usedFar s).isEmpty then s.setFld .PLC_FAR_CFG [] PLC_FAR_CFG.EN 0 else discardReg s .PLC_FAR_CFG [])
    else s
  else s.plain .PLC_FAR_CFG [] eff

/-- A write of PLC_AGE_CTL: PERIOD_MS is 4 to 255. -/
def ageCtlWrite (s : State) (eff : Nat) : State :=
  if fget eff PLC_AGE_CTL.PERIOD_MS < 4 then discardReg s .PLC_AGE_CTL [] else s.plain .PLC_AGE_CTL [] eff

/-- Whether a RESERVE and LIMIT of a context are acceptable (R329, R335). -/
def poolOk (s : State) (c res lim : Nat) : Bool :=
  let old := s.fld .CTX_POOL [c] CTX_POOL.RESERVE
  let oc := decide (poolCount s < reserveSum s)
  decide (res ≤ lim) && (if oc then decide (res ≤ old) else decide (reserveSum s - old + res ≤ poolCount s)) &&
    decide (pinnedOf s c ≤ res)

/-- A write of CTX_POOL (R329, R335). -/
def ctxPoolWrite (s : State) (c eff : Nat) : State :=
  if poolOk s c (fget eff CTX_POOL.RESERVE) (fget eff CTX_POOL.LIMIT) then
    plcRun (s.plain .CTX_POOL [c] eff)
  else discardReg s .CTX_POOL [c]

/-- A write of RAW_HOST_CFG (R58). -/
def hostWinWrite (s : State) (eff : Nat) : State :=
  let base := fget eff RAW_HOST_CFG.BASE
  if 0x3FFE00 < base ∨ (s.bit .RAW_HOST_CFG [] RAW_HOST_CFG.EN ∧ base ≠ s.fld .RAW_HOST_CFG [] RAW_HOST_CFG.BASE) then
    discardReg s .RAW_HOST_CFG []
  else s.plain .RAW_HOST_CFG [] eff

/-- INJ bits of a home (R272). -/
def injWrite (s : State) (h ce ue : Nat) : State :=
  let x := homeX s h
  setHomeX s h { x with injCe := x.injCe || ce == 1, injUe := x.injUe || ue == 1 }

/-- A tile is idle for the purposes of R79. -/
def tileIdle (s : State) (t : Nat) : Bool := s.tstate t == 0

/-- A write of TILE_AMAX by register (R79, R101): ROLL acts on the values just written. -/
def amaxWrite (s : State) (t n eff : Nat) : State :=
  let s := s.plain .TILE_AMAX (tix t ++ [n]) eff
  if fget eff TILE_AMAX.ROLL = 1 then rollAmax s t n else s

/-- A write of TILE_MMA_CTL (R126): GATE_DIS only while the tile is idle, INJ_ONCE at any time. A write to a tile that is
not idle with another GATE_DIS is discarded whole, INJ_ONCE with it, and one that leaves GATE_DIS as it is is accepted
without a log entry (DESIGN CHOICE, log 152). -/
def mmaCtlWrite (s : State) (t eff : Nat) : State :=
  if !tileIdle s t && fget eff TILE_MMA_CTL.GATE_DIS != s.fld .TILE_MMA_CTL (tix t) TILE_MMA_CTL.GATE_DIS then
    discardReg s .TILE_MMA_CTL (tix t)
  else
    let s := s.plain .TILE_MMA_CTL (tix t) eff
    if fget eff TILE_MMA_CTL.INJ_ONCE = 1 then s.setTile t { s.tile t with inj := true } else s

/-- A software write of a register in a tile's block: discarded and logged while its group is off (R413) or a tile reset
runs (R141). -/
def tileRegWrite (s : State) (t : Nat) (r : RegId) (ix : List Nat) (eff : Nat) : State :=
  let st := s.tstate t
  let rest := st == 0 || st == 4 || st == 7
  if r = .TILE_CTL then tileCtlWrite s t eff 0
  else if !tilePowered s t || s.bit .TILE_STAT (tix t) TILE_STAT.RESETTING then discardReg s r ix
  else match r with
  | .TILE_IMEM_LOAD => imemLoadWrite s t eff
  | .TILE_ENTRY | .TILE_ARG | .TILE_SAVE_BASE | .TILE_IMEM_SRC | .TILE_STAY_WIN =>
    if rest then s.plain r ix eff else discardReg s r ix
  | .TILE_PROG_ID => (s.plain r ix eff).setTile t { s.tile t with progWritten := true }
  | .FMT_DESC => if tileIdle s t then writeFmtDesc s t (ix.getD 2 0) eff else discardReg s r ix
  | .TILE_FMT_CTL => if tileIdle s t then s.plain r ix eff else discardReg s r ix
  | .TILE_SR_SEED => if tileIdle s t then writeSeed s t eff else discardReg s r ix
  | .TILE_AMAX => if tileIdle s t then amaxWrite s t (ix.getD 2 0) eff else discardReg s r ix
  | .TILE_MMA_CTL => mmaCtlWrite s t eff
  | _ => s.plain r ix eff

/-- Whether a requester is the management firmware. -/
def Rq.isFw (q : Rq) : Bool := q == .fw

/-- Whether a tile runs a dispatch of a ring. -/
def ownRing (s : State) (t r : Nat) : Bool :=
  s.q.disps.any (fun d => d.id == (s.tile t).disp && d.ring == r && (s.tile t).disp != 0)

/-- An effective software write of a register copy (R9): the operation of the register, or the plain effect of its field
types (R10). -/
def regDo (s : State) (q : Rq) (r : RegId) (ix : List Nat) (eff : Nat) (ext : Ext) : State :=
  let i := ix.getD 0 0
  let j := ix.getD 1 0
  let open_ (own : Nat) (k : State) : State := if q.isFw || s.owned own then k else discardReg s r ix
  if tileReg r then tileRegWrite s (i * 64 + j) r ix eff
  else match r with
  | .KST_PWR_MODE => pwrModeWrite s eff
  | .ATTR_INVAL => attrInvalWrite s eff
  | .RAW_HBM_ATTR => if fget eff RAW_HBM_ATTR.RTYPE = 3 then discardReg s r ix else s.plain r ix eff
  | .KST_COLL_ID => collIdWrite s i eff ext
  | .KST_COLL_WIN | .KST_COLL_MEMB | .KST_COLL_BUF => if collValid s i then discardReg s r ix else s.plain r ix eff
  | .PLC_FAR_CFG => open_ 1 (farCfgWrite s eff)
  | .PLC_AGE_CTL => open_ 1 (ageCtlWrite s eff)
  | .CTX_POOL => open_ 1 (ctxPoolWrite s i eff)
  | .TR_CTL => open_ 2 (trCtlWrite s i eff)
  | .TR_WIN => open_ 2 (trWinWrite s i eff)
  | .TR_SYNC => open_ 2 (trSyncWrite s i eff)
  | .TR_Q_BASE => open_ 2 (trBaseWrite s i eff)
  | .TR_DB => open_ 2 (trDbWrite s i eff)
  | .TNS_CAP => userCapWrite s eff
  | .KST_PD_CTL => pdCtlWrite s eff
  | .KST_KC_TARGET => kcTargetWrite s eff
  | .KST_CORE_CTL => coreCtlWrite s i eff
  | .KST_QS_EXCL => qsExclWrite s i eff
  | .KST_RAS_CTL => rasCtlWrite s eff
  | .KST_GAUGE_CTL => gaugeCtlWrite s eff
  | .KST_GAUGE_REQ => gaugeReqWrite s eff
  | .KST_RETIRE => retireWrite s i eff
  | .KST_BOOT_CTL => bootCtlWrite s eff
  | .KST_SET_CTL => setCtlWrite s eff
  | .KST_CLD_PORT_CTL => cldCtlWrite s 8 i eff
  | .SPAN_CLD_PORT_CTL => cldCtlWrite s i j eff
  | .PIER_CLD_PORT_CTL => cldCtlWrite s (9 + i) j eff
  | .CTX_RSV_CTL => if 6 ≤ fget eff CTX_RSV_CTL.GRAN then discardReg s r ix else s.plain r ix eff
  | .KST_MBOX_CTL => mboxCtlWrite s i eff ext
  | .RING_BASE => ringBaseWrite s i eff
  | .RING_CPL => ringCplWrite s i eff
  | .RING_CTL => ringCtlWrite s i eff
  | .RING_ABORT => ringAbortWrite s i eff
  | .RING_DB =>
    (match q with
     | .tile t => if ownRing s t i then ringDbWrite s i eff else discardReg s r ix
     | _ => ringDbWrite s i eff)
  | .CLX_RT => routeWrite s i eff
  | .CLX_STAY_CFG => if fget eff CLX_STAY_CFG.HOP_MAX = 0 then discardReg s r ix else s.plain r ix eff
  | .CLX_LINK_CTL => clxCtlWrite s (6 * i + j) eff
  | .SPAN_CACHE_CTL => cacheCtlWrite s i eff
  | .SPAN_CMAINT_CTL => cmaintWrite s i eff
  | .SPAN_PWR_CTL => spanPwrWrite s i eff
  | .SPAN_VF_CURVE => vfWrite s i j eff
  | .LAT_Q_BASE => latBaseWrite s i j eff
  | .LAT_Q_CTL => latCtlWrite s i j eff
  | .LAT_DB => latDbWrite s i j eff
  | .P0_CLC_CFG => clcCfgWrite s eff
  | .RAW_HOST_CFG => hostWinWrite s eff
  | .FAR_HOME_DIR_CTL => injWrite s 12 (fget eff HOME_DIR_CTL.INJ_CE) (fget eff HOME_DIR_CTL.INJ_UE)
  | .HBM_HOME_DIR_CTL => injWrite s i (fget eff HOME_DIR_CTL.INJ_CE) (fget eff HOME_DIR_CTL.INJ_UE)
  | .HBM_THR_CURVE => thrWrite s i eff
  | .HBM_THR_CTL =>
    if fget eff HBM_THR_CTL.HYST = 0 ∨ 8 < fget eff HBM_THR_CTL.HYST then discardReg s r ix else s.plain r ix eff
  | .HBM_SCRUB_CTL => if fget eff HBM_SCRUB_CTL.PERIOD_H = 0 then discardReg s r ix else s.plain r ix eff
  | .HBM_RETIRE_CTL => hbmRetireWrite s eff
  | .HBM_FCLASS => fclassSet s i eff
  | _ => s.plain r ix eff

/-- A software write of `n` bytes holding `d` (R6, R8, R9, R504): none for an undecoded access. A 32-bit write of the
upper half of FMT_DESC entry 15 changes nothing (R511). -/
def regWrite (s : State) (q : Rq) (a n d : Nat) (ext : Ext) : Option State :=
  match regSel s.asm a with
  | .undecoded => none
  | .absent => some s
  | .reg r ix =>
    let flds := (regInfo r).flds
    let old := s.rd r ix
    if r = .FMT_DESC ∧ ix.getD 2 0 = 15 ∧ n = 4 ∧ a % 8 = 4 then some s
    else if n = 8 ∧ a % 8 = 0 then some (regDo s q r ix (effWrite flds old d 0 63) ext)
    else if n = 4 ∧ a % 4 = 0 then
      if spansMiddle flds then some (logDiscard s a (q.code s))
      else if a % 8 = 0 then some (regDo s q r ix (effWrite flds old (d % 2 ^ 32) 0 31) ext)
      else some (regDo s q r ix (effWrite flds old (d % 2 ^ 32 * 2 ^ 32) 32 63) ext)
    else some (logDiscard s a (q.code s))

/-! Commands. -/

/-- Who may write registers as software: the host, a core or a tile. -/
def whoRq (who n : Nat) : Rq :=
  match who with
  | 0 => .host
  | 1 => .core n
  | _ => .tile n

/-- What an undecoded register write brings its requester (R62): an error response, an access fault, or for a tile's move
the status PERMISSION. -/
def regFail (s : State) (q : Rq) (a : Nat) : State :=
  match q with
  | .host => hostFail s a undecStat
  | .core c => coreFail s c a
  | .tile t => foldFirst (logFail s q a) t 0x0E
  | _ => logFail s q a

/-- REGISTER_WRITE (R9): a write of `n` bytes at a register address by the host (0), core `id` (1) or tile `id` (2), here a
move of its move engine. -/
def execRegisterWrite (who id a n : Nat) (d : BitVec 64) (ext : Ext) (s : State) : Host.Outcome State Fault Refusal :=
  whenLive s (
    let q := whoRq who id
    match regWrite s q a n d.toNat ext with
    | some s' => s'
    | none => regFail s q a)

/-- CTX_MODE_WRITE (R27). -/
def execCtxModeWrite (c : Nat) (w : BitVec 64) (s : State) : Host.Outcome State Fault Refusal :=
  whenLive s (if c < 256 then regDo s .host .CTX_MODE [c] w.toNat ⟨[], [], 0⟩ else s)

/-- FMT_DESC_WRITE (R78, R79, R511). -/
def execFmtDescWrite (t n : Nat) (w : BitVec 64) (s : State) : Host.Outcome State Fault Refusal :=
  whenLive s (if t < 512 ∧ n < 16 then tileRegWrite s t .FMT_DESC (tix t ++ [n]) w.toNat else s)

/-- SR_SEED_WRITE (R79, R83). -/
def execSrSeedWrite (t : Nat) (w : BitVec 64) (s : State) : Host.Outcome State Fault Refusal :=
  whenLive s (if t < 512 then tileRegWrite s t .TILE_SR_SEED (tix t) w.toNat else s)

/-- AMAX_ROLL: a write of TILE_AMAX with ROLL (R79, R101). -/
def execAmaxRoll (t n : Nat) (w : BitVec 64) (s : State) : Host.Outcome State Fault Refusal :=
  whenLive s (
    if t < 512 ∧ n < 16 then tileRegWrite s t .TILE_AMAX (tix t ++ [n]) (fput w.toNat TILE_AMAX.ROLL 1) else s)

end Sys2Proof.Machine
end

