-- ==== Sys2Proof/Machine/TileMem.lean ====
section
/-!
DEFINITION. Machine/TileMem.lean: how a tile reaches memory (chapters 06, 07 and 09): pointers and their checks (R155,
R174, R189), the order of its accesses (R235, R236, R238), and the accesses of one line.
-/

namespace Sys2Proof.Machine

/-- What an instruction that reaches memory answers: its effect, an exception, that it is held, or that its accesses at
some pointers are not taken yet. -/
inductive MemR
  | done (s : State)
  | exc (s : State) (cause addr : Nat)
  | wait
  | nack (ps : List (BitVec 64))

/-- The request with which an agent would put an access of a line to the home, if it needs one (R263). -/
def reqKind (s : State) (a l : Nat) (wr alloc : Bool) : Option MsgK :=
  let free : MsgK := if wr then .wru else .rdo
  if a < 8 ∧ !spanOn s a then some free
  else match agentLine s a l with
    | some c => if wr && (c.st == 1 || c.st == 3) then some .upg else none
    | none =>
      if a < 8 ∧ (vebFind s a l).isSome then none
      else if !alloc then some free else some (if wr then .rdu else .rds)

/-- Whether a fill of a Span cache would need an eviction that finds the buffer full (R286). -/
def evictWaits (s : State) (p l : Nat) : Bool :=
  decide (p < 8) && decide (512 ≤ vebLen s p) && (waysOf s p false).all (fun w => (setLines s p l).any (fun e => e.2.way == w))

/-- Accesses of an agent that wait: the first line whose home does not take the request gets its NACK (R264 to R270), or
the eviction that one needs waits for the buffer. -/
def linesNack (s : State) (a : Nat) (wr : Bool) (ls : List (Nat × Bool)) : State :=
  match ls.findSome? (fun l => match reqKind s a l.1 wr l.2 with
    | some k => if (homeStops s k a l.1).isSome then some (l.1, k) else none
    | none => none) with
  | some (l, k) => accessNack s k a l noLine 0
  | none => if ls.any (fun l => (reqKind s a l.1 wr l.2).any entersDir && evictWaits s a l.1) then
      { s with mem := { s.mem with vebStall := sins s.mem.vebStall a } } else s

/-- The cached line at a local address as a tile reaches it, and whether it may allocate. -/
def cachedAt (s : State) (t : Nat) (p : BitVec 64) (wr : Bool) : Option (Nat × Bool) :=
  match decPtr s p with
  | .local_ a => (match (decLocal s (.tile t) a wr).1 with
    | .ok (.line l ty) _ => if ty = 2 then none else some (l, ty == 0)
    | _ => none)
  | _ => none

/-- Accesses of a tile that wait, by their pointers. -/
def ptrNack (s : State) (t : Nat) (wr : Bool) (ps : List (BitVec 64)) : State :=
  linesNack s (t / 64) wr (ps.filterMap (fun p => cachedAt s t p wr))

/-- Execution of the instruction at the head of a stream when it may be held by memory. -/
def issueM (s : State) (t : Nat) (m : Strm) (w0 w1 : BitVec 64) (k : State → QEnt → MemR) :
    Host.Outcome State Fault Refusal :=
  match readyHead s t m w0 w1 with
  | none => .next s
  | some e =>
    match k (popHead s t m) e with
    | .done s' => .next (settle s' t)
    | .exc s' cause addr => .next (faultAt s s' t m.num e cause addr)
    | .wait => .next s
    | .nack ps => .next (ptrNack s t true ps)

/-! Where a tile's pointer leads. -/

/-- The target of a pointer access of a tile (R38 to R41, R45, R53, R404). -/
inductive PtrT
  | undec
  | denied
  | held
  | lost
  | peer (m a link : Nat)
  | loc (t : Tgt) (act : Nat)

/-- The decode of a tile's pointer; an access waits while the bucket of its way moves (R392, R406). -/
def ptrTarget (s : State) (t : Nat) (p : BitVec 64) (wr : Bool) : PtrT × State :=
  match decPtr s p with
  | .bad => (.undec, s)
  | .denied => (.denied, s)
  | .peer m a =>
    (match peerRoute s m with
     | (0, s) => (match peerLink s m (peerBucket m a) with
       | some (l, s) => (.peer m a l, s)
       | none => (.held, s))
     | (0x03, s) => (.lost, s)
     | (_, s) => (.undec, s))
  | .local_ a =>
    match decLocal s (.tile t) a wr with
    | (.ok (.reg r) act, s) => (if regSel s.asm r = .undecoded then .undec else .loc (.reg r) act, s)
    | (.ok x act, s) => (if tgtHeld s (.tile t) x then .held else .loc x act, s)
    | (.undec, s) => (.undec, s)
    | (.denied, s) => (.denied, s)
    | (.held, s) => (.held, s)

/-- Whether a target is Strict (R42). -/
def Tgt.strict (t : Tgt) : Bool :=
  match t with
  | .line _ ty => ty == 2
  | .reg _ => true
  | .win _ _ => false

/-! Statuses. -/

/-- A lost write of the tile marked: for UNREACHABLE or HOST_LOST its sticky bit is set and fences see it (R187, R249). -/
def markWrite (s : State) (t strm st : Nat) : State :=
  if st = 0x03 then
    let s := s.setFld .TILE_MOVE_STAT (tix t) TILE_MOVE_STAT.UNREACH 1
    let x := s.tile t
    s.setTile t { x with wfail := sins x.wfail strm }
  else if st = 0x0A then
    let s := s.setFld .TILE_MOVE_STAT (tix t) TILE_MOVE_STAT.HOSTLOST 1
    let x := s.tile t
    s.setTile t { x with wfail := sins x.wfail (strm + 16) }
  else s

/-- A write of the tile discarded, with its status in FIRST_STATUS. -/
def failWrite (s : State) (t strm st : Nat) : State := markWrite (foldFirst s t st) t strm st

/-- A read of the tile that times out (R249). -/
def markRead (s : State) (t st : Nat) : State :=
  if st = 0x03 then
    let s := s.setFld .TILE_MOVE_STAT (tix t) TILE_MOVE_STAT.UNREACH 1
    s.setTile t { s.tile t with rfail := true }
  else s

/-- A read of the tile that has no answer, with its status in FIRST_STATUS (R249). -/
def failRead (s : State) (t st : Nat) : State := markRead (foldFirst s t st) t st

/-- A containment reset has been triggered: the access is suppressed. -/
def contStarted (s : State) : Bool := s.bit .KST_RAS_STAT [] KST_RAS_STAT.CONT_ACTIVE

/-! Reads of one line or less through a pointer. -/

/-- The outcome of a read: it waits; a containment reset has begun; it fails with an exception cause and a status; or
bytes and whether they are marked poisoned. -/
inductive RdP
  | wait
  | cont (s : State)
  | fail (s : State) (cause stat : Nat)
  | got (s : State) (bytes : List (BitVec 8)) (poison : Bool)

/-- Consecutive 8-byte reads of registers (R43). -/
def regReads (s : State) (req a : Nat) : Nat → Option (State × List (BitVec 8))
  | 0 => some (s, [])
  | n + 1 =>
    match regRead s req a 8 with
    | none => none
    | some (s, b) => (regReads s req (a + 8) n).map (fun r => (r.1, b ++ r.2))

/-- What a peer answers to a read at a pointer. -/
def peerAnswer (s : State) (m : Nat) (p : BitVec 64) (n : Nat) (ext : Ext) : RdP :=
  if ext.status = 0 then
    .got s ((List.range n).map (fun i => extByte ext (p.toNat + i))) (ext.poison.contains (p.toNat / 128 * 128))
  else if ext.status = 0x03 then .fail (lostPeer s m) 0x06 0x03
  else if ext.status = 0x0A then .fail s 0x06 0x0A
  else .fail s (if ext.status = 0x1E then 0x06 else 0x07) 0x0E

/-- A read of `n` bytes within one line at a pointer. A register of 4 or 8 bytes is read as such, longer reads by 8-byte
accesses. -/
def readNow (s : State) (t : Nat) (p : BitVec 64) (n : Nat) (noAlloc : Bool) (ext : Ext) : RdP :=
  let a0 := (p.extractLsb' 0 42).toNat
  match ptrTarget s t p false with
  | (.undec, s) => .fail (logFail s (.tile t) a0) 0x06 0x0E
  | (.denied, s) => .fail (logFail s (.tile t) a0) 0x07 0x0E
  | (.held, _) => .wait
  | (.lost, s) => .fail s 0x06 0x03
  | (.peer m a l, s) => peerAnswer (s.sendOn l 0 (.peerRead m a l n)) m p n ext
  | (.loc (.reg a) _, s) =>
    let req := (Rq.tile t).code s
    (match (if n ≤ 8 then regRead s req a n else regReads s req a (n / 8)) with
     | some (s, b) => .got s b false
     | none => .fail (logFail s (.tile t) a) 0x06 0x0E)
  | (.loc g act, s) =>
    match readPiece s (.span (t / 64)) g act a0 n noAlloc ext with
    | none => .wait
    | some r =>
      if r.stat = 0x08 then .cont r.s
      else if r.stat ≠ 0 then .fail r.s 0x06 r.stat
      else .got r.s r.bytes r.poison

/-- The read of a load that has executed: one toward a peer left then, and its answer is all that is awaited. -/
def readPtr (s : State) (t : Nat) (p : BitVec 64) (n : Nat) (noAlloc : Bool) (ext : Ext) : RdP :=
  match decPtr s p with
  | .peer m _ => peerAnswer s m p n ext
  | _ => readNow s t p n noAlloc ext

/-! Writes within one line through a pointer. -/

/-- The masked bytes of a line written at a decoded target by a tile. The second answer: a status, and whether the write
went to the host without being held in a cache. -/
def tileWrite (s : State) (t : Nat) (g : Tgt) (act : Nat) (v : LineVal) (mask : BitVec 128) (noAlloc : Bool) (ext : Ext) :
    Option (State × Nat × Bool) :=
  match g with
  | .line l ty =>
    if gateRecorded s (l * 2) then none
    else if isFar l && !hostUp s then some (s.satInc .P0_CLC_ERR [] P0_CLC_ERR.DROP_CNT 1, 0x0A, false)
    else (writeLineVia (touch s act) (.span (t / 64)) l ty noAlloc v mask ext).map (fun s' =>
      let sent (s : State) : Nat := (s.mem.farPend.filter (fun w => w.1 == l)).length
      (noteStale s (noteFar s s' l ((Rq.tile t).code s)) l, 0, decide (sent s < sent s')))
  | .win u off =>
    if gateRecorded s ((u * 8192 + off / 128) * 2 + 1) then none
    else some (s.setTile u ((s.tile u).maskWrite (off / 128 * 128) v mask), 0, false)
  | .reg _ => some (s, 0, false)

/-- Writes of registers: (offset, length) units of a line's data. -/
def regWrites (s : State) (q : Rq) (a : Nat) (v : LineVal) (ext : Ext) : List (Nat × Nat) → Option State
  | [] => some s
  | u :: r =>
    match regWrite s q (a + u.1) u.2 (leNat (takeBytes v.data u.1 u.2)) ext with
    | none => none
    | some s => regWrites s q a v ext r

/-- A line of bytes with a mask: `bs` at offset `off`. -/
def lineOf (off : Nat) (bs : List (BitVec 8)) : LineVal × BitVec 128 :=
  (⟨placeBytes off bs, 0, 0⟩, rangeMask off bs.length)

/-- The 8-byte words of a mask that hold a set byte. -/
def maskWords (mask : BitVec 128) : List (Nat × Nat) :=
  ((List.range 16).filter (fun i => (mask >>> (8 * i)) &&& 0xFF#128 != 0)).map (fun i => (8 * i, 8))

/-- Whether every word of a mask that holds a set byte is wholly set (R174). -/
def wholeWords (mask : BitVec 128) : Bool :=
  (maskWords mask).all (fun w => (mask >>> w.1) &&& 0xFF#128 == 0xFF#128)

/-- Writes that leave the module recorded until they are acknowledged (R185). -/
def addOut (s : State) (t tag strm : Nat) (peer : Bool) (m : Nat) (strict : Bool) (addrs : List Nat) : State :=
  let x := s.tile t
  s.setTile t { x with outs := x.outs ++ [⟨tag, strm, peer, m, addrs, strict, s.clk.fc, s.clk.fc⟩] }

/-- The outcome of a write: it waits; it fails with an exception cause and a status; or it has been made or has left. -/
inductive WrP
  | wait
  | fail (s : State) (cause stat : Nat)
  | done (s : State)

/-- A write of masked bytes of the line at a pointer by a store instruction (R155, R174, R191), untagged. `units`: the
accesses a register range takes. -/
def storePtr (s : State) (t tag : Nat) (p : BitVec 64) (v : LineVal) (mask : BitVec 128) (units : List (Nat × Nat)) (ext : Ext) :
    WrP :=
  let a0 := (p.extractLsb' 0 42).toNat
  let held (s : State) (g : Bool) : Bool := ordHeld s t tag 0 g (ptrLines s [(p, 1)])
  match ptrTarget s t p true with
  | (.undec, s) => .fail (logFail s (.tile t) a0) 0x06 0x0E
  | (.denied, s) => .fail (logFail s (.tile t) a0) 0x07 0x0E
  | (.held, _) => .wait
  | (.lost, s) => .done (failWrite s t 0 0x03)
  | (.peer m a l, s) =>
    if held s false then .wait
    else .done (addOut (s.sendOn l 0 (.peerWrite m (a / 128 * 128) l v mask none)) t tag 0 true m false [a])
  | (.loc g act, s) =>
    if held s g.strict then .wait
    else match g with
    | .reg a =>
      (match regWrites s (.tile t) (a / 128 * 128) v ext units with
       | some s => .done s
       | none => .fail (logFail s (.tile t) a) 0x06 0x0E)
    | _ =>
      match tileWrite s t g act v mask false ext with
      | none => .wait
      | some (s, st, host) =>
        let s := failWrite s t 0 st
        .done (if host then addOut s t tag 0 false 0 g.strict [a0] else s)

/-! Exclusive ownership for a reservation (R246). -/

/-- A Span cache that is on takes a line exclusively; a grant starts its hold (R265). -/
def spanExcl (s : State) (p line : Nat) (ext : Ext) : Option State :=
  let own (s : State) (c : CLine) : Option State :=
    (ownCopy s p line c ext).map (fun q => putLine q.1 p line q.2)
  if !spanOn s p then some s
  else match hitLine s p line with
    | (s, some c) => own s c
    | (s, none) =>
      match vebFind s p line with
      | some e =>
        if e.sent then none
        else (vebRecall s p line e).bind (fun s => (agentLine s p line).bind (own s))
      | none =>
        if !wholeGo s .rdu p line then none
        else match dirRoom s line with
          | none => none
          | some s =>
            let (s, o, g) := serveRdu s p line ext
            fillSpan s p line g o

/-- The other lines of a granule taken at least shared. -/
def spanShare (s : State) (p : Nat) (ext : Ext) : List Nat → Option State
  | [] => some s
  | l :: r => (spanRead s p l true ext).bind (fun q => spanShare q.1 p ext r)

end Sys2Proof.Machine
end

