-- ==== Sys2Proof/Machine/TileLoad.lean ====
section
/-!
DEFINITION. Machine/TileLoad.lean: loads and stores of the scalar and vector streams (R155, R174), reserved loads and
conditional stores (R189 to R191), and the return of what they wait for.
-/

namespace Sys2Proof.Machine

/-- A load waits for its data (R155). It occupies its stream, since it may yet raise an exception, and then no later
instruction of the stream may have had an effect (R137, log 137). -/
def addLoad (s : State) (t m : Nat) (e : QEnt) (p : BitVec 64) (mask : BitVec 512) (val : BitVec 64) (rd : Nat) : State :=
  let s := addUse s t ⟨e.tag, m, true, [], [rd], [], [], 0, 0⟩
  let x := s.tile t
  s.setTile t { x with loads := x.loads ++ [⟨e.tag, e.pc, e.w0, p, mask, val, []⟩] }

/-- A load no longer waits. -/
def dropLoad (s : State) (t tag : Nat) : State :=
  let x := s.tile t
  s.setTile t { x with loads := x.loads.filter (fun l => l.tag != tag) }

/-- The value a load of `n` bytes writes: extended as FUNC or SX gives. -/
def loadValue (n : Nat) (sx : Bool) (bs : List (BitVec 8)) : BitVec 64 :=
  if sx then (BitVec.ofNat (8 * n) (leNat bs)).signExtend 64 else BitVec.ofNat 64 (leNat bs)

/-- The checks a pointer load makes when it executes, for one access of `n` bytes (R155): an exception, a hold, or the
state after them. A read toward a peer leaves at once. -/
def loadCheck (s : State) (t tag : Nat) (p : BitVec 64) (n : Nat) : MemR :=
  let a0 := (p.extractLsb' 0 42).toNat
  match ptrTarget s t p false with
  | (.undec, s) => .exc (logFail s (.tile t) a0) 0x06 p.toNat
  | (.denied, s) => .exc (logFail s (.tile t) a0) 0x07 p.toNat
  | (.held, _) => .wait
  | (.lost, s) => .exc (failRead s t 0x03) 0x06 p.toNat
  | (.peer m a l, s) =>
    if ordHeld s t tag 0 false (ptrLines s [(p, 1)]) then .wait else .done (s.sendOn l 0 (.peerRead m a l n))
  | (.loc _ _, s) => .done s

/-- LD (R155). -/
def execLd (t : Nat) (f : InsS) (s : State) : Host.Outcome State Fault Refusal :=
  issueM s t .scalar (encS 0x10 f) 0 (fun s e =>
    let x := s.tile t
    let p := x.s f.rs1.toNat + sx32 f.imm
    let n := 2 ^ (f.func.toNat % 4)
    if !x.predOn f.pred.toNat then .done s
    else if f.func.getLsbD 3 then
      if p.toNat % n ≠ 0 then .exc s 0x05 p.toNat
      else match loadCheck s t e.tag p n with
        | .done s => .done (addLoad s t 0 e p 0 0 f.rd.toNat)
        | r => r
    else if 0x100000 ≤ p.toNat then .exc s 0x04 p.toNat
    else if p.toNat % n ≠ 0 then .exc s 0x05 p.toNat
    else match tmBad x p.toNat n with
      | some c => .exc s c p.toNat
      | none => .done (s.setTile t (x.setS f.rd.toNat (loadValue n (f.func.getLsbD 2) (mread x.mem p.toNat n)))))

/-- ST (R155). -/
def execSt (t : Nat) (f : InsS) (ext : Ext) (s : State) : Host.Outcome State Fault Refusal :=
  issueM s t .scalar (encS 0x11 f) 0 (fun s e =>
    let x := s.tile t
    let p := x.s f.rs1.toNat + sx32 f.imm
    let n := 2 ^ (f.func.toNat % 4)
    let bs := leBytes n (x.s f.rs2.toNat).toNat
    if !x.predOn f.pred.toNat then .done s
    else if f.func.getLsbD 3 then
      if p.toNat % n ≠ 0 then .exc s 0x05 p.toNat
      else
        let (v, mask) := lineOf (p.toNat % 128) bs
        match storePtr s t e.tag p v mask [(p.toNat % 128, n)] ext with
        | .wait => .nack [p]
        | .fail s c _ => .exc s c p.toNat
        | .done s => .done s
    else if 0x100000 ≤ p.toNat then .exc s 0x04 p.toNat
    else if p.toNat % n ≠ 0 then .exc s 0x05 p.toNat
    else .done (s.setTile t (tmWrite x p.toNat bs)))

/-! VLD and VST (R174). -/

/-- Active bytes of one of the four lines. -/
def lineMask (m : BitVec 512) (i : Nat) : BitVec 128 := m.extractLsb' (128 * i) 128

/-- The lines of a vector access that hold an active byte. -/
def activeLines (m : BitVec 512) : List Nat := (List.range 4).filter (fun i => lineMask m i != 0)

/-- The first line of a vector access to a Strict range with a word that is not wholly active (R174). -/
def vecPartial (s : State) (t : Nat) (p : BitVec 64) (m : BitVec 512) (wr : Bool) (ls : List Nat) : Option Nat :=
  (ls.findSome? (fun i =>
    (ptrAdd p (128 * i)).bind (fun q =>
      let strict := match (ptrTarget s t q wr).1, decPtr s q with
        | .loc g _, _ => g.strict
        | .denied, .local_ a => strictAt s a
        | _, _ => false
      if strict && !wholeWords (lineMask m i) then some q.toNat else none)))

/-- The decode of a vector pointer access, line by line in ascending order (R510): the first failing piece decides. -/
def vecDecode (t tag : Nat) (p : BitVec 64) (m : BitVec 512) (wr : Bool) : List Nat → State → MemR
  | [], s => .done s
  | i :: r, s =>
    match ptrAdd p (128 * i) with
    | none => .exc (logFail s (.tile t) (p.extractLsb' 0 42).toNat) 0x06 (p.toNat + 128 * i)
    | some q =>
      let a0 := (q.extractLsb' 0 42).toNat
      match ptrTarget s t q wr with
      | (.undec, s) => .exc (logFail s (.tile t) a0) 0x06 q.toNat
      | (.denied, s) => .exc (logFail s (.tile t) a0) 0x07 q.toNat
      | (.held, _) => .wait
      | (.lost, s) => if wr then vecDecode t tag p m wr r s else .exc (failRead s t 0x03) 0x06 q.toNat
      | (.peer _ _ _, s) =>
        if ordHeld s t tag 0 false (ptrLines s [(q, 1)]) then .wait else vecDecode t tag p m wr r s
      | (.loc (.reg a) _, s) =>
        if (maskWords (lineMask m i)).any (fun w => regSel s.asm (a / 128 * 128 + w.1) = .undecoded) then
          .exc (logFail s (.tile t) a0) 0x06 q.toNat
        else vecDecode t tag p m wr r s
      | (.loc _ _, s) => vecDecode t tag p m wr r s

/-- The checks of a vector pointer access (R138, R174): MISALIGNED, whose code is the lowest, before what decoding finds. -/
def vecCheck (s : State) (t tag : Nat) (p : BitVec 64) (m : BitVec 512) (wr : Bool) : MemR :=
  match vecPartial s t p m wr (activeLines m) with
  | some a => .exc s 0x05 a
  | none => vecDecode t tag p m wr (activeLines m) s

/-- Requests to a peer for the lines of a VLD: all at once, or in ORDERED mode the first (R238). -/
def vecAsk (s : State) (t : Nat) (p : BitVec 64) (ls : List Nat) : State :=
  match decPtr s p with
  | .peer _ _ =>
    (if (s.tile t).ordered then ls.take 1 else ls).foldl (fun s i =>
      match ptrTarget s t (p + BitVec.ofNat 64 (128 * i)) false with
      | (.peer m a l, s) => s.sendOn l 0 (.peerRead m a l 128)
      | _ => s) s
  | _ => s

/-- VLD (R174). -/
def execVld (t : Nat) (f : InsV) (s : State) : Host.Outcome State Fault Refusal :=
  issueM s t .vector (encV 0x53 f) 0 (fun s e =>
    let x := s.tile t
    let p := x.s f.ss.toNat + f.imm.signExtend 64 * 128
    let m := x.p f.pred.toNat
    if f.func.getLsbD 0 then
      if p.toNat % 128 ≠ 0 then .exc s 0x05 p.toNat
      else match vecCheck s t e.tag p m false with
        | .done s => .done (addLoad (vecAsk s t p (activeLines m)) t 1 e p m 0 (32 + f.vd.toNat))
        | r => r
    else if 0xFFE01 ≤ p.toNat then .exc s 0x04 p.toNat
    else if p.toNat % 128 ≠ 0 then .exc s 0x05 p.toNat
    else match tmBad x p.toNat 512 with
      | some c => .exc s c p.toNat
      | none =>
        let bs := mread x.mem p.toNat 512
        let (v, _) := vmapElems 8 512 m (f.pz == 1) (x.v f.vd.toNat) (fun i => ((bs.getD i 0).toNat, FFlags.none))
        .done (s.setTile t (x.setV f.vd.toNat v)))

/-- The stores of a VST through a pointer, in ascending order. -/
def vecStores (t tag : Nat) (p : BitVec 64) (v : BitVec 4096) (m : BitVec 512) (ext : Ext) : List Nat → State → WrP
  | [], s => .done s
  | i :: r, s =>
    match ptrAdd p (128 * i) with
    | none => .fail s 0x06 0x0E
    | some q =>
      match storePtr s t tag q ⟨v.extractLsb' (1024 * i) 1024, 0, 0⟩ (lineMask m i) (maskWords (lineMask m i)) ext with
      | .done s => if contStarted s then .done s else vecStores t tag p v m ext r s
      | x => x

/-- The acknowledgements a VST awaits, as one. -/
def mergeOuts (s : State) (t tag : Nat) : State :=
  let x := s.tile t
  match x.outs.filter (fun w => w.tag == tag) with
  | a :: b :: r =>
    let c : WriteRec := { a with addrs := (a :: b :: r).flatMap (·.addrs), strict := (a :: b :: r).all (·.strict) }
    s.setTile t { x with outs := x.outs.filter (fun w => w.tag != tag) ++ [c] }
  | _ => s

/-- A VST through a pointer in ORDERED mode (R238): one line a time, in a step of its own; until the last one it stays at
the head of its stream with the lines done as its progress. What fails after the checks of its first step is a refusal
without exception (R155). -/
def vecOrdered (s : State) (t : Nat) (e : QEnt) (p : BitVec 64) (v : BitVec 4096) (m : BitVec 512) (ext : Ext) : MemR :=
  let ls := (activeLines m).drop e.prog
  match (if e.prog = 0 then vecCheck s t e.tag p m true else .done s) with
  | .done s =>
    let next (s : State) : MemR :=
      if ls.length ≤ 1 ∨ contStarted s then .done s
      else
        let x := s.tile t
        .done (s.setTile t { x with qv := { e with prog := e.prog + 1 } :: x.qv })
    (match vecStores t e.tag p v m ext (ls.take 1) s with
     | .wait => .nack ((ls.take 1).map (fun i => p + BitVec.ofNat 64 (128 * i)))
     | .fail s c st => if e.prog = 0 then .exc s c p.toNat else next (foldFirst s t st)
     | .done s => next s)
  | r => r

/-- VST (R174). -/
def execVst (t : Nat) (f : InsV) (ext : Ext) (s : State) : Host.Outcome State Fault Refusal :=
  issueM s t .vector (encV 0x54 f) 0 (fun s e =>
    let x := s.tile t
    let p := x.s f.ss.toNat + f.imm.signExtend 64 * 128
    let m := x.p f.pred.toNat
    let v := x.v f.vs1.toNat
    if f.func.getLsbD 0 then
      if p.toNat % 128 ≠ 0 then .exc s 0x05 p.toNat
      else if x.ordered then vecOrdered s t e p v m ext
      else match vecCheck s t e.tag p m true with
        | .done s =>
          (match vecStores t e.tag p v m ext (activeLines m) s with
           | .wait => .nack ((activeLines m).map (fun i => p + BitVec.ofNat 64 (128 * i)))
           | .fail s c _ => .exc s c p.toNat
           | .done s => .done (mergeOuts s t e.tag))
        | r => r
    else if 0xFFE01 ≤ p.toNat then .exc s 0x04 p.toNat
    else if p.toNat % 128 ≠ 0 then .exc s 0x05 p.toNat
    else
      let y := (activeLines m).foldl (fun y i =>
        let lm := lineMask m i
        if lm = fullMask then tmWrite y (p.toNat + 128 * i) (takeBytes (v.extractLsb' (1024 * i) 1024) 0 128)
        else (List.range 128).foldl (fun y j =>
          if lm.getLsbD j then tmWrite y (p.toNat + 128 * i + j) [BitVec.ofNat 8 (vbits v (8 * (128 * i + j)) 8)] else y) y) x
      .done (s.setTile t y))

/-! LDR and STC (R189 to R191). -/

/-- The checks of LDR and STC (R189): the resolved line, or an exception or a hold. -/
inductive RsvR
  | line (s : State) (l : Nat)
  | stop (r : MemR)

/-- Where a reserved access leads. -/
def rsvTarget (s : State) (t : Nat) (p : BitVec 64) (n : Nat) (wr : Bool) : RsvR :=
  let a0 := (p.extractLsb' 0 42).toNat
  let deny (s : State) : RsvR := .stop (.exc (logFail s (.tile t) a0) 0x07 p.toNat)
  if p.toNat % n ≠ 0 then .stop (.exc s 0x05 p.toNat)
  else match decPtr s p with
    | .bad => .stop (.exc (logFail s (.tile t) a0) 0x06 p.toNat)
    | .local_ _ =>
      (match ptrTarget s t p wr with
       | (.loc (.line l 2) _, s) => let _ := l; deny s
       | (.loc (.line l _) _, s) => .line s l
       | (.loc _ _, s) => deny s
       | (.denied, s) => deny s
       | (.held, _) => .stop .wait
       | (_, s) => .stop (.exc (logFail s (.tile t) a0) 0x06 p.toNat))
    | _ => deny s

/-- Bytes of an access of SIZE. -/
def rsvBytes (f : InsRsv) : Nat := if f.size = 3 then 8 else 4

/-- LDR (R189, R190): the earlier reservation is lost. -/
def execLdr (t : Nat) (f : InsRsv) (s : State) : Host.Outcome State Fault Refusal :=
  issueM s t .move (encRsv 0xC2 f) 0 (fun s e =>
    let x := s.tile t
    let p := x.s f.ra.toNat + f.imm.signExtend 64
    if !x.predOn f.pred.toNat then .done s
    else match rsvTarget s t p (rsvBytes f) false with
      | .stop r => r
      | .line s _ =>
        let s := s.setTile t { s.tile t with resv := [] }
        .done (addLoad s t 3 e p 0 0 f.rd.toNat))

/-- STC (R189, R191). -/
def execStc (t : Nat) (f : InsRsv) (s : State) : Host.Outcome State Fault Refusal :=
  issueM s t .move (encRsv 0xC3 f) 0 (fun s e =>
    let x := s.tile t
    let p := x.s f.ra.toNat + f.imm.signExtend 64
    if !x.predOn f.pred.toNat then .done s
    else match rsvTarget s t p (rsvBytes f) true with
      | .stop r => r
      | .line s _ => .done (addLoad s t 3 e p 0 (x.s f.rb.toNat) f.rd.toNat))

/-! Returns. -/

/-- An exception of an instruction that waited, raised from s' once every earlier instruction of its stream has
completed (R137); until then the event does not occur and s stays. In the stop phase of a preemption the instruction goes
back to its stream, to raise it after the restore (R144). -/
def loadFault (s s' : State) (t : Nat) (l : LoadRec) (cause addr : Nat) : State :=
  let m := (streamOf (opcOf l.w0)).num
  if streamClear (s.tile t) m l.tag then
    if s.tstate t = 3 then s'.setTile t ((s'.tile t).putBack [backEnt l.tag l.pc l.w0 0 0 none])
    else
      let s' := dropLoad s' t l.tag
      let x := s'.tile t
      let s' := s'.setTile t { x with uses := x.uses.filter (fun u => u.tag != l.tag) }
      raiseExc s' t m l.tag cause l.pc addr
  else s

/-- A load ends with its register written. -/
def loadEnd (s : State) (t : Nat) (l : LoadRec) (g : Tile → Tile) : State :=
  let s := dropLoad s t l.tag
  endUse (s.setTile t (g (s.tile t))) t l.tag

/-- The accesses of a VLD: whole lines, or the words of a Strict line. -/
def vecUnits (s : State) (t : Nat) (p : BitVec 64) (m : BitVec 512) : List (Nat × Nat) :=
  (activeLines m).flatMap (fun i =>
    match (ptrTarget s t (p + BitVec.ofNat 64 (128 * i)) false).1 with
    | .loc g _ => if g.strict then (maskWords (lineMask m i)).map (fun w => (128 * i + w.1, w.2)) else [(128 * i, 128)]
    | _ => [(128 * i, 128)])

/-- The reads of a VLD in ascending order: bytes by offset. -/
def vecReads (t : Nat) (p : BitVec 64) (noAlloc : Bool) (ext : Ext) : List (Nat × Nat) → State → List (Nat × BitVec 8) → Bool →
    RdP × List (Nat × BitVec 8)
  | [], s, acc, pz => (.got s [] pz, acc)
  | u :: r, s, acc, pz =>
    match readPtr s t (p + BitVec.ofNat 64 u.1) u.2 noAlloc ext with
    | .got s bs q => vecReads t p noAlloc ext r s (acc ++ (List.range u.2).map (fun i => (u.1 + i, bs.getD i 0))) (pz || q)
    | x => (x, acc)

/-- The value of a VLD: bytes read where active, PZ elsewhere. -/
def vecValue (x : Tile) (l : LoadRec) (bs : List (Nat × BitVec 8)) : BitVec 4096 :=
  let f := decV l.w0
  (vmapElems 8 512 l.mask (f.pz == 1) (x.v f.vd.toNat) (fun i =>
    ((match bs.find? (fun b => b.1 == i) with
      | some b => b.2.toNat
      | none => 0), FFlags.none))).1

/-- A MOV that may raise an exception (R183): its source or its destination is tile memory. -/
def MoveRec.mayFault (m : MoveRec) : Bool :=
  let f := decMov m.w0 m.w1
  !(f.ssp == 1 && f.dsp == 1)

/-- An earlier active MOV may still raise an exception, which lets nothing later of its stream have an effect (R137). -/
def movAhead (x : Tile) (tag : Nat) : Bool := x.moves.any (fun m => decide (m.tag < tag) && m.mayFault)

/-- The lines of the granule of a pointer, which is naturally aligned in its address (R245), where they resolve to
lines. -/
def granuleLines (s : State) (t : Nat) (p : BitVec 64) : List Nat :=
  let g := 2 ^ (s.tile t).gran
  let base := (p.extractLsb' 0 42).toNat / (g * 128) * (g * 128)
  (List.range g).filterMap (fun i =>
    match (decLocal s (.tile t) (base + i * 128) false).1 with
    | .ok (.line l _) _ => some l
    | _ => none)

/-- The end of a reserved load: the line is taken exclusively, the rest of the granule shared, and the reservation set
(R190, R246). -/
def ldrReturn (s : State) (t : Nat) (l : LoadRec) (ext : Ext) : State :=
  let f := decRsv l.w0
  let n := rsvBytes f
  match rsvTarget s t l.ptr n false with
  | .stop (.exc s1 c a) => loadFault s s1 t l c a
  | .stop _ => s
  | .line s1 ln =>
    let rest := (granuleLines s t l.ptr).filter (· != ln)
    match (spanExcl s1 (t / 64) ln ext).bind (fun s => spanShare s (t / 64) ext rest) with
    | none => linesNack (linesNack s (t / 64) true [(ln, true)]) (t / 64) false (rest.map (fun l => (l, true)))
    | some s1 =>
      match readPtr s1 t l.ptr n false ext with
      | .wait => s
      | .cont s => s
      | .fail s1 c st => loadFault s (failRead s1 t st) t l c l.ptr.toNat
      | .got s1 bs pz =>
        if pz then loadFault s s1 t l 0x0B l.ptr.toNat
        else loadEnd s1 t l (fun x => { x.setS f.rd.toNat (loadValue n (f.sx == 1) bs) with resv := ln :: rest })

/-- The end of a VLD toward a peer in ORDERED mode (R238): the answer brings one line, and the next is asked. -/
def vldOrdered (s : State) (t : Nat) (l : LoadRec) (ext : Ext) : State :=
  let ls := (activeLines l.mask).filter (fun i => !l.got.any (fun b => b.1 == 128 * i))
  match vecReads t l.ptr false ext ((ls.take 1).map (fun i => (128 * i, 128))) s [] false with
  | (.fail s1 c st, _) => loadFault s (failRead s1 t st) t l c l.ptr.toNat
  | (.got s1 _ pz, bs) =>
    if pz then loadFault s s1 t l 0x0B l.ptr.toNat
    else if ls.length ≤ 1 then
      loadEnd s1 t l (fun x => x.setV (decV l.w0).vd.toNat (vecValue x l (l.got ++ bs)))
    else
      let x := s1.tile t
      let s1 := s1.setTile t { x with loads := x.loads.map (fun (k : LoadRec) =>
        if k.tag = l.tag then { k with got := k.got ++ bs } else k) }
      vecAsk s1 t l.ptr (ls.drop 1)
  | _ => s

/-- LOAD_DATA_RETURN (R155): the data of a pointer LD, VLD or LDR. `ext` is what the host or the peer answers; a status of
0x1E says that the peer found the access undecoded. A VLD completes in the stop phase of a preemption too (R143). -/
def execLoadDataReturn (t : Nat) (tag : Nat) (ext : Ext) (s : State) : Host.Outcome State Fault Refusal :=
  whenLive s (
    match (s.tile t).loads.find? (fun l => l.tag == tag && opcOf l.w0 != 0xC3) with
    | none => s
    | some l =>
      let x := s.tile t
      if t ≥ 512 ∨ (s.tstate t ≠ 1 ∧ s.tstate t ≠ 3) ∨ loadHeld s t l then s
      else if opcOf l.w0 = 0xC2 then (if movAhead x tag then s else ldrReturn s t l ext)
      else if opcOf l.w0 = 0x53 then
        if x.ordered && l.asked s then vldOrdered s t l ext
        else match vecReads t l.ptr false ext (vecUnits s t l.ptr l.mask) s [] false with
        | (.wait, _) => ptrNack s t false ((activeLines l.mask).map (fun i => l.ptr + BitVec.ofNat 64 (128 * i)))
        | (.cont s, _) => s
        | (.fail s1 c st, _) => loadFault s (failRead s1 t st) t l c l.ptr.toNat
        | (.got s1 _ pz, bs) =>
          if pz then loadFault s s1 t l 0x0B l.ptr.toNat
          else loadEnd s1 t l (fun x => x.setV (decV l.w0).vd.toNat (vecValue x l bs))
      else
        let f := decS l.w0
        let n := 2 ^ (f.func.toNat % 4)
        match readPtr s t l.ptr n false ext with
        | .wait => ptrNack s t false [l.ptr]
        | .cont s => s
        | .fail s1 c st => loadFault s (failRead s1 t st) t l c l.ptr.toNat
        | .got s1 bs pz =>
          if pz then loadFault s s1 t l 0x0B l.ptr.toNat
          else loadEnd s1 t l (fun x => x.setS f.rd.toNat (loadValue n (f.func.getLsbD 2) bs)))

/-- Reservations on the granule of a conditional store that has stored end: those of cores and tiles on any of its lines
(R246). -/
def granuleTaken (s : State) (ls : List Nat) : State := ls.foldl lineWritten s

/-- STC_RESULT (R191): the home answers; the store is made only while the reservation is held on the granule of the
address. The reservation ends. -/
def execStcResult (t : Nat) (ext : Ext) (s : State) : Host.Outcome State Fault Refusal :=
  whenLive s (
    match (s.tile t).loads.find? (fun l => opcOf l.w0 == 0xC3) with
    | none => s
    | some l =>
      let f := decRsv l.w0
      let n := rsvBytes f
      let x := s.tile t
      if t ≥ 512 ∨ s.tstate t ≠ 1 ∨ loadHeld s t l ∨ movAhead x l.tag then s
      else match rsvTarget s t l.ptr n true with
        | .stop (.exc s1 c a) => loadFault s s1 t l c a
        | .stop _ => s
        | .line s1 ln =>
          if x.resv.contains ln then
            let (v, mask) := lineOf (l.ptr.toNat % 128) (leBytes n l.val.toNat)
            match storePtr s1 t l.tag l.ptr v mask [] ext with
            | .wait => ptrNack s t true [l.ptr]
            | .fail s2 c _ => loadFault s s2 t l c l.ptr.toNat
            | .done s =>
              if contStarted s then s
              else loadEnd (granuleTaken s x.resv) t l (fun x => { x.setS f.rd.toNat 0 with resv := [], stcFails := 0 })
          else loadEnd s1 t l (fun x => { x.setS f.rd.toNat 1 with resv := [], stcFails := x.stcFails + 1 }))

end Sys2Proof.Machine
end

