-- ==== Sys2Proof/Machine/TileMove.lean ====
section
/-!
DEFINITION. Machine/TileMove.lean: the move stream (R180 to R188), epochs (R192 to R196), and writes on their way outside
the module: acknowledgement, link-loss timeout and HOLD (R185, R248 to R251).
-/

namespace Sys2Proof.Machine

/-! MOV. -/

/-- A MOV has a tile-memory extent that leaves tile memory, or two that overlap (R181). -/
def movBad (f : InsMov) (src dst : BitVec 64) (len : Nat) : Bool :=
  let rows := f.rows1.toNat + 1
  let es := extent f.sstride.toNat rows len
  let ed := extent f.dstride.toNat rows len
  (f.ssp == 0 && decide (0x100000 < src.toNat + es)) || (f.dsp == 0 && decide (0x100000 < dst.toNat + ed)) ||
    (f.ssp == 0 && f.dsp == 0 && decide (src.toNat < dst.toNat + ed) && decide (dst.toNat < src.toNat + es))

/-- MOV (R180, R181, R184): its checks, and a slot of the move engine. -/
def execMov (t : Nat) (f : InsMov) (s : State) : Host.Outcome State Fault Refusal :=
  let (w0, w1) := encMov f
  issueM s t .move w0 w1 (fun s e =>
    let x := s.tile t
    let sl := x.s f.sl.toNat
    let len := sl.toNat % 2 ^ 32
    let src := x.s f.ss.toNat
    let dst := x.s f.sd.toNat
    if !x.predOn f.pred.toNat then .done s
    else if 2 ^ 32 ≤ sl.toNat then .exc s 0x04 0
    else if len ≠ 0 ∧ movBad f src dst len then .exc s 0x04 0
    else if 4 ≤ x.moves.length then .wait
    else
      let (rr, wr) := rangesOf s t e
      let s := addUse s t ⟨e.tag, 3, false, [], [], rr, wr, 0, 0⟩
      let x := s.tile t
      .done (s.setTile t { x with moves := x.moves ++ [⟨e.tag, e.pc, w0, w1, src, dst, len, e.prog, 0⟩] }))

/-- How one side of a MOV goes on: it waits; a containment reset has begun; an exception; or on. -/
inductive MvR (α : Type)
  | wait
  | cont (s : State)
  | exc (s : State) (cause addr : Nat)
  | ok (s : State) (a : α)

/-- A byte a MOV carries, with its poison mark; none where its read failed. -/
abbrev MvByte := Option (BitVec 8 × Bool)

/-- Reads of the pieces of a row through a pointer: bytes, and the first failing status (R182). -/
def mvReads (t : Nat) (al noAlloc toTile : Bool) (ext : Ext) (base : BitVec 64) (a0 : Nat) : List (Nat × Nat) → State →
    List MvByte → Nat → MvR (List MvByte × Nat)
  | [], s, acc, st => .ok s (acc, st)
  | (a, n) :: r, s, acc, st =>
    let lost (s : State) (c : Nat) : MvR (List MvByte × Nat) :=
      mvReads t al noAlloc toTile ext base a0 r (markRead s t c) (acc ++ List.replicate n none) (firstStat st c)
    match ptrAdd base (a - a0) with
    | none => lost (logFail s (.tile t) a0) 0x0E
    | some p =>
      let strict := match (ptrTarget s t p false).1 with
        | .loc g _ => g.strict
        | _ => false
      if strict && !al then lost (logFail s (.tile t) (a % 2 ^ 42)) 0x0E
      else match readNow s t p n noAlloc ext with
        | .wait => .wait
        | .cont s => .cont s
        | .fail s _ c => lost s c
        | .got s bs pz =>
          if pz && toTile then .exc s 0x0B p.toNat
          else mvReads t al noAlloc toTile ext base a0 r s (acc ++ bs.map (fun b => some (b, pz))) st

/-- The part of a MOV from its progress up to a byte of all its bytes, counted in row-major order: rows, with the byte at
which each begins and ends (R186). -/
def movRows (m : MoveRec) (upto : Nat) : List (Nat × Nat × Nat) :=
  let rows := (decMov m.w0 m.w1).rows1.toNat + 1
  ((List.range rows).map (fun r => (r, m.prog - r * m.len, min m.len (upto - r * m.len)))).filter (fun p =>
    decide (p.2.1 < p.2.2))

/-- Where a row of one side begins in its tile memory or after its pointer. -/
def rowOff (f : InsMov) (stride : BitVec 24) (r : Nat) : Nat := if f.rows1 = 0 then 0 else r * stride.toNat

/-- The fault of a MOV's source in tile memory (R183), over all its rows, parity first (R138): parity, or poison where the
destination is tile memory. -/
def movSrcBad (x : Tile) (m : MoveRec) : Option (Nat × Nat) :=
  let f := decMov m.w0 m.w1
  if f.ssp = 1 then none
  else
    match tmBadIn x ((movRows m ((f.rows1.toNat + 1) * m.len)).map (fun p =>
        (m.src.toNat + rowOff f f.sstride p.1 + p.2.1, p.2.2 - p.2.1))) with
    | some (0x0A, a) => some (0x0A, a)
    | some (c, a) => if f.dsp = 0 then some (c, a) else none
    | none => none

/-- The source bytes of a row from byte `lo` up to `hi`. -/
def mvRowRead (t : Nat) (m : MoveRec) (ext : Ext) (r lo hi : Nat) (s : State) (st : Nat) : MvR (List MvByte × Nat) :=
  let f := decMov m.w0 m.w1
  let n := hi - lo
  let off := rowOff f f.sstride r
  if f.ssp = 0 then
    let a := m.src.toNat + off + lo
    let x := s.tile t
    .ok s ((List.range n).map (fun i => some (mget 0 x.mem (a + i), x.poison.contains ((a + i) / 128))), st)
  else
    match ptrAdd m.src off with
    | none => .ok (logFail s (.tile t) (m.src.extractLsb' 0 42).toNat) (List.replicate n none, firstStat st 0x0E)
    | some p =>
      let a := (p.extractLsb' 0 42).toNat
      mvReads t (a % 8 == 0 && m.len % 8 == 0) (f.hint == 1) (f.dsp == 0) ext p a (pieces (a + lo) n) s [] st

/-- Every row read, in order. -/
def mvReadRows (t : Nat) (m : MoveRec) (ext : Ext) : List (Nat × Nat × Nat) → State → List (Nat × Nat × List MvByte) →
    Nat → MvR (List (Nat × Nat × List MvByte) × Nat)
  | [], s, acc, st => .ok s (acc, st)
  | (r, lo, hi) :: rest, s, acc, st =>
    match mvRowRead t m ext r lo hi s st with
    | .ok s (bs, st) => mvReadRows t m ext rest s (acc ++ [(r, lo, bs)]) st
    | .wait => .wait
    | .cont s => .cont s
    | .exc s c a => .exc s c a

/-! Epochs (R192 to R195). -/

/-- The open epoch's tag; a new epoch opens unless four wait to be resolved (R195). -/
def openEpoch (s : State) (t : Nat) : Option (Nat × State) :=
  match s.epochs.find? (fun e => e.tile == t && !e.closed) with
  | some e => some (epochTag s e, s)
  | none =>
    if 4 ≤ s.fld .TILE_EPOCH (tix t) TILE_EPOCH.UNRESOLVED then none
    else
      let ctx := tileCtx s t
      let e : Epoch := ⟨t, s.fld .TILE_EPOCH (tix t) TILE_EPOCH.NEXT_SEQ, s.bit .CTX_MODE [ctx] CTX_MODE.INTEG, false, [], false,
        [], boundEpochs s ctx, s.clk.fc⟩
      let s := (s.wrapInc .TILE_EPOCH (tix t) TILE_EPOCH.NEXT_SEQ 1).setFld .TILE_EPOCH (tix t) TILE_EPOCH.OPEN 1
      some (epochTag s e, { s with epochs := s.epochs ++ [e] })

/-- A peer-bound write of the open epoch counted, with the verdicts its data depends on (R194). -/
def epochSent (s : State) (t m : Nat) (deps : List Nat) : State :=
  { s with epochs := s.epochs.map (fun (e : Epoch) =>
      if e.tile = t ∧ ¬ e.closed then
        { e with sent := mins e.sent m ((mfind e.sent m).getD 0 + 1), deps := deps.foldl sins e.deps }
      else e) }

/-- The verdicts awaited by written drains whose lines a MOV reads. -/
def movDeps (s : State) (t : Nat) (m : MoveRec) : List Nat :=
  let x := s.tile t
  let rr := (x.uses.filter (fun u => u.tag == m.tag)).flatMap (·.rdR)
  (x.drains.filter (fun d => d.st == 3 && x.uses.any (fun u => u.tag == d.tag && overlaps u.wrR rr))).flatMap (·.deps)

/-! Writes of a MOV. -/

/-- What a MOV has written so far: status, the peer and the addresses of the lines sent to it, the addresses of those on
their way to the host, and whether all of these are Strict. -/
structure MvW where
  stat : Nat
  peer : Option Nat
  sent : List Nat
  host : List Nat
  strict : Bool

/-- A line's value and mask of the bytes a MOV has for it. -/
def mvLine (off : Nat) (bs : List MvByte) : LineVal × BitVec 128 :=
  let all : List MvByte := List.replicate off none ++ bs
  let pz := (List.range 4).foldl (fun m i =>
    m ||| markBit i (((all.drop (32 * i)).take 32).any (fun b => b.any (·.2)))) 0
  (⟨packBytes 1024 (all.map (fun b => (b.map (·.1)).getD 0)), pz, 0⟩,
   (List.range all.length).foldl (fun m i =>
     if (all.getD i none).isSome then m ||| (BitVec.ofNat 128 (2 ^ i)) else m) 0)

/-- Writes of the pieces of a row through a pointer (R182, R183, R192). `cuts`: numbers of peer-bound writes of this MOV
before which the 2 µs close of R193 falls. -/
def mvWrites (t : Nat) (m : MoveRec) (al : Bool) (deps cuts : List Nat) (ext : Ext) (base : BitVec 64) (a0 : Nat) :
    List (Nat × Nat) → List MvByte → State → MvW → MvR MvW
  | [], _, s, w => .ok s w
  | (a, n) :: r, bs, s, w =>
    let f := decMov m.w0 m.w1
    let strm := f.strm.toNat
    let (v, mask) := mvLine (a % 128) (bs.take n)
    let next (s : State) (w : MvW) : MvR MvW := mvWrites t m al deps cuts ext base a0 r (bs.drop n) s w
    let refused (s : State) : MvR MvW := next (logFail s (.tile t) (a % 2 ^ 42)) { w with stat := firstStat w.stat 0x0E }
    if mask = 0 then next s w
    else match ptrAdd base (a - a0) with
      | none => refused s
      | some p =>
        match ptrTarget s t p true with
        | (.undec, s) => refused s
        | (.denied, s) => refused s
        | (.held, _) => .wait
        | (.lost, s) => next (markWrite s t strm 0x03) { w with stat := firstStat w.stat 0x03 }
        | (.peer pm pa l, s) =>
          let s := if cuts.contains w.sent.length then closeEpoch s t else s
          (match openEpoch s t with
           | none => .wait
           | some (tag, s) =>
             let s := epochSent (s.sendOn l 0 (.peerWrite pm (pa / 128 * 128) l v mask (some tag))) t pm deps
             next s { w with sent := w.sent ++ [pa], peer := some pm })
        | (.loc g act, s) =>
          if g.strict && !al then refused s
          else match g with
          | .reg ra =>
            (match regWrites s (.tile t) (ra / 128 * 128) v ext (maskWords mask) with
             | some s => next s w
             | none => refused s)
          | _ =>
            match tileWrite s t g act v mask (f.hint == 1) ext with
            | none => .wait
            | some (s, st, host) =>
              if contStarted s then .cont s
              else next (markWrite s t strm st) { w with
                stat := firstStat w.stat st, host := if host then w.host ++ [a % 2 ^ 42] else w.host
                strict := w.strict && (!host || g.strict) }

/-- Bytes of a row written into tile memory where their reads succeeded. -/
def mvTile (x : Tile) (a : Nat) (bs : List MvByte) : Tile :=
  (pieces a bs.length).foldl (fun y p =>
    let l := (bs.drop (p.1 - a)).take p.2
    if l.all (·.isSome) then tmWrite y p.1 (l.filterMap (fun b => b.map (·.1)))
    else (List.range p.2).foldl (fun y i =>
      match l.getD i none with
      | some b => tmWrite y (p.1 + i) [b.1]
      | none => y) y) x

/-- Every row written, in order. -/
def mvWriteRows (t : Nat) (m : MoveRec) (deps cuts : List Nat) (ext : Ext) : List (Nat × Nat × List MvByte) → State → MvW →
    MvR MvW
  | [], s, w => .ok s w
  | (r, lo, bs) :: rest, s, w =>
    let f := decMov m.w0 m.w1
    let off := rowOff f f.dstride r
    let one : MvR MvW :=
      if f.dsp = 0 then .ok (s.setTile t (mvTile (s.tile t) (m.dst.toNat + off + lo) bs)) w
      else match ptrAdd m.dst off with
        | none => .ok (logFail s (.tile t) (m.dst.extractLsb' 0 42).toNat) { w with stat := firstStat w.stat 0x0E }
        | some p =>
          let a := (p.extractLsb' 0 42).toNat
          mvWrites t m (a % 8 == 0 && m.len % 8 == 0) deps cuts ext p a (pieces (a + lo) bs.length) bs s w
    match one with
    | .ok s w => mvWriteRows t m deps cuts ext rest s w
    | x => x

/-- The writes of a MOV outside the module are awaited. -/
def movOuts (s : State) (t : Nat) (m : MoveRec) (w : MvW) : State :=
  let strm := (decMov m.w0 m.w1).strm.toNat
  let s := if w.sent.isEmpty then s else addOut s t m.tag strm true (w.peer.getD 0) false w.sent
  if w.host.isEmpty then s else addOut s t m.tag strm false 0 w.strict w.host

/-- A MOV ends: its first failing status is recorded (R182), and its writes outside the module are awaited. -/
def movEnd (s : State) (t : Nat) (m : MoveRec) (w : MvW) : State :=
  let s := foldFirst s t w.stat
  let s := if w.stat = 0 then s else s.satInc .TILE_MOVE_STAT (tix t) TILE_MOVE_STAT.FAIL_CNT 1
  let s := movOuts s t m w
  let x := s.tile t
  endUse (s.setTile t { x with moves := x.moves.filter (fun q => q.tag != m.tag) }) t m.tag

/-- A MOV has written up to a byte and goes on from there. -/
def movPause (s : State) (t : Nat) (m : MoveRec) (upto : Nat) (w : MvW) : State :=
  let s := movOuts s t m w
  let x := s.tile t
  s.setTile t { x with moves := x.moves.map (fun (q : MoveRec) =>
    if q.tag = m.tag then { q with prog := upto, status := w.stat } else q) }

/-- The tile without what its move stream executes from a sequence tag on. -/
def Tile.dropFrom (x : Tile) (tag : Nat) : Tile :=
  { x with
    moves := x.moves.filter (fun q => decide (q.tag < tag))
    loads := x.loads.filter (fun l => streamOf (opcOf l.w0) != .move || decide (l.tag < tag))
    fence := x.fence.filter (fun r => decide (r.tag < tag))
    uses := x.uses.filter (fun u => u.stream != 3 || decide (u.tag < tag)) }

/-- All bytes of a MOV. -/
def MoveRec.total (m : MoveRec) : Nat := ((decMov m.w0 m.w1).rows1.toNat + 1) * m.len

/-- The destination address of a byte of a MOV, as far as lines matter. -/
def MoveRec.dstAt (m : MoveRec) (n : Nat) : Nat :=
  let f := decMov m.w0 m.w1
  m.dst.toNat + rowOff f f.dstride (n / m.len) + n % m.len

/-- The byte after the line of its destination, and of its row, in which a MOV's progress lies. -/
def MoveRec.nextLine (m : MoveRec) : Nat :=
  min (m.prog + (128 - m.dstAt m.prog % 128)) ((m.prog / m.len + 1) * m.len)

/-- The start of the destination line, or of the row, in which a byte of a MOV lies, but not before its progress. -/
def MoveRec.lineStart (m : MoveRec) (n : Nat) : Nat :=
  max m.prog (max (n / m.len * m.len) (n - m.dstAt n % 128))

/-- Whether an active MOV may access memory now: nothing holds it (R235 to R238); no earlier one of the stream may still
raise an exception (R137, log 137); and no drain of a retry has still to write again what it reads (R194). -/
def movFree (s : State) (t : Nat) (m : MoveRec) : Bool :=
  let x := s.tile t
  let rr := (x.uses.filter (fun u => u.tag == m.tag)).flatMap (·.rdR)
  !movHeld s t m && !movAhead x m.tag &&
    !x.drains.any (fun d => d.again && d.st != 3 && x.uses.any (fun u => u.tag == d.tag && overlaps u.wrR rr))

/-- The accesses of one side of a MOV that wait. -/
def movNack (s : State) (t : Nat) (m : MoveRec) (wr : Bool) : State :=
  ptrNack s t wr ((m.ptrs wr).flatMap (fun r =>
    (List.range ((r.1.toNat % 128 + r.2 + 127) / 128)).map (fun i => r.1 - BitVec.ofNat 64 (r.1.toNat % 128) + BitVec.ofNat 64 (128 * i))))

/-- A MOV copies up to a byte: reads, then writes. Its exception waits for the earlier instructions of the move stream,
and ends the later ones that are active (R137). -/
def movGo (s : State) (t : Nat) (m : MoveRec) (upto : Nat) (cuts : List Nat) (ext : Ext) : State :=
  let fault (s' : State) (c a : Nat) : State :=
    if streamClear (s.tile t) 3 m.tag then
      raiseExc (s'.setTile t ((s'.tile t).dropFrom m.tag)) t 3 m.tag c m.pc a
    else s
  match movSrcBad (s.tile t) m with
  | some (c, a) => fault s c a
  | none =>
    match mvReadRows t m ext (movRows m upto) s [] m.status with
    | .wait => movNack s t m false
    | .cont s => s
    | .exc s c a => fault s c a
    | .ok s1 (rows, st) =>
      match mvWriteRows t m (movDeps s1 t m) cuts ext rows s1 ⟨st, none, [], [], true⟩ with
      | .wait => movNack s t m true
      | .cont s => s
      | .exc s c a => fault s c a
      | .ok s w => if upto < m.total then movPause s t m upto w else movEnd s t m w

/-- How far an active MOV goes in one step: to its end, or in ORDERED mode, where it writes outside the tile, to the end
of a line (R238). -/
def movUpto (x : Tile) (m : MoveRec) : Nat :=
  if x.ordered && (decMov m.w0 m.w1).dsp == 1 then min m.nextLine m.total else m.total

/-- MOV_RETIRE (R185): the MOV has read every source byte and issued every write; in ORDERED mode, those of its next
line. -/
def execMovRetire (t : Nat) (tag : Nat) (cuts : List Nat) (ext : Ext) (s : State) : Host.Outcome State Fault Refusal :=
  whenLive s (
    match (s.tile t).moves.find? (fun m => m.tag == tag) with
    | none => s
    | some m => if t ≥ 512 ∨ s.tstate t ≠ 1 ∨ !movFree s t m then s else movGo s t m (movUpto (s.tile t) m) cuts ext)

/-! The end of a preemption's stop phase (R143, R144, R186). -/

/-- A MOV between tile memory and HBM of the module, or toward a peer from these: it needs no data from outside. -/
def movLocal (s : State) (m : MoveRec) : Bool :=
  let near (l : Nat × Nat) : Bool := decide (l.2 < 2 ^ 50) || (decide (2 ^ 60 ≤ l.1) && decide (l.2 < 2 ^ 61))
  let peer (l : Nat × Nat) : Bool := decide (2 ^ 61 ≤ l.1)
  (ptrLines s (m.ptrs false)).all near && (ptrLines s (m.ptrs true)).all (fun l => near l || peer l)

/-- An active MOV stops at a line boundary, and goes back to its queue with its progress. How far it has come is a free
choice (log 54); one that needs data from outside the module has come no further, and so has one that would raise an
exception, which it raises after the restore. -/
def movStop (s : State) (t : Nat) (m : MoveRec) : State :=
  let (n, s) := s.freeNat (m.total + 1)
  let upto := m.lineStart n
  let s := if m.prog < upto && upto < m.total && movFree s t m && movLocal s m && (movSrcBad (s.tile t) m).isNone then
      movGo s t m upto [] ⟨[], [], 0⟩ else s
  let x := s.tile t
  match x.moves.find? (fun q => q.tag == m.tag) with
  | some q => foldFirst (s.setTile t (x.putBack [backEnt q.tag q.pc q.w0 q.w1 q.prog none])) t q.status
  | none => s

/-- PREEMPT_SAVE_DONE (R143, R144): active MOVs have stopped, the epoch has closed, and the record is written. -/
def execPreemptSaveDone (t : Nat) (s : State) : Host.Outcome State Fault Refusal :=
  whenLive s (if t < 512 ∧ s.tstate t = 3 ∧ (s.tile t).stopped then
    (let s := closeEpoch ((s.tile t).moves.foldl (fun s m => movStop s t m) s) t
     if contStarted s then s
     else
       let s := (writeSave s t).setTstate t 4
       let x := s.tile t
       let ents := (x.qs ++ x.qv ++ x.qm ++ x.qx).map (fun e => (0, e))
       applyHeld (s.setTile t { x with saved := ents }) t) else s)

/-! Writes on their way. -/

/-- WRITE_RESPONSE (R185): a write outside the module is acknowledged (status 0) or fails (UNREACHABLE, HOST_LOST or
PERMISSION), and its status joins FIRST_STATUS. -/
def execWriteResponse (t : Nat) (tag : Nat) (status : Nat) (s : State) : Host.Outcome State Fault Refusal :=
  whenLive s (
    match (s.tile t).outs.find? (fun w => w.tag == tag) with
    | some w =>
      if status = 0 ∨ status = 0x03 ∨ status = 0x0A ∨ status = 0x0E then
        let x := s.tile t
        offSettle (failWrite (s.setTile t { x with outs := x.outs.filter (fun w => w.tag != tag) }) t w.strm status)
      else s
    | none => s)

/-- Writes of a unit to the host that are discarded leave the far home. -/
def dropFarPend (s : State) (unit n : Nat) : State :=
  let l := (List.range n).foldl (fun l _ => l.eraseP (fun w => w.2 == unit)) s.mem.farPend
  { s with mem := { s.mem with farPend := l } }

/-- Discarded writes counted (R249). -/
def countDiscard (s : State) (n : Nat) : State :=
  (s.satInc .KST_ORD_STAT [] KST_ORD_STAT.DISCARD_CNT n).setFld .KST_ORD_STAT [] KST_ORD_STAT.UNREACH 1

/-- Writes discarded at a time limit (R249, R251): each is logged with its address and counted. -/
def discardOut (s : State) (t : Nat) (w : WriteRec) : State :=
  let x := s.tile t
  let u := (Rq.tile t).code s
  let s := s.setTile t { x with outs := x.outs.filter (fun o => o.tag != w.tag) }
  let s := if w.peer then s else dropFarPend s u w.addrs.length
  let s := w.addrs.foldl (fun s a => logDrop s 0x03 u w.strm a) s
  offSettle (failWrite (countDiscard s w.addrs.length) t w.strm 0x03)

/-- Whether an access through pointers reaches host memory. -/
def ptrsFar (s : State) (l : List (BitVec 64 × Nat)) : Bool :=
  (ptrLines s l).any (fun q => decide (2 ^ 50 ≤ q.1) && decide (q.1 < 2 ^ 60))

/-- A pointer load runs into its timeout: it raises ACCESS_UNDECODED (R249). -/
def loadTimeout (s : State) (t : Nat) (l : LoadRec) : State :=
  match decPtr s l.ptr with
  | .peer m _ => loadFault s (failRead (lostPeer s m) t 0x03) t l 0x06 l.ptr.toNat
  | .local_ _ =>
    if !loadHeld s t l && ptrsFar s l.ptrs then loadFault s (failRead s t 0x03) t l 0x06 l.ptr.toNat else s
  | _ => s

/-- A MOV whose reads run into their timeout goes on without their data. -/
def movTimeout (s : State) (t : Nat) (m : MoveRec) : State :=
  let go (s : State) : State := movGo s t m (movUpto (s.tile t) m) [] ⟨[], [], 0x03⟩
  if s.tstate t ≠ 1 ∨ (decMov m.w0 m.w1).ssp = 0 ∨ !movFree s t m then s
  else match decPtr s m.src with
    | .peer pm _ => go (lostPeer s pm)
    | .local_ _ => if ptrsFar s (m.ptrs false) then go s else s
    | _ => s

/-- A write to the host by an agent other than a tile, discarded at its timeout (R249). -/
def farTimeout (s : State) (n : Nat) : State :=
  let l := s.mem.farPend.filter (fun w => !tileUnit w.2)
  match l[n]? with
  | none => s
  | some w =>
    let s := { s with mem := { s.mem with farPend := s.mem.farPend.erase w } }
    offSettle (countDiscard (logDrop s 0x03 w.2 0 (farAddr w.1)) 1)

/-- ACCESS_LINK_TIMEOUT (R248 to R250): an access of tile t outside the module runs into its link-loss timeout, or, for
t = 512, write number `tag` of the other agents to the host. A write is discarded, a MOV goes on without the data, a
pointer load raises ACCESS_UNDECODED; a peer is marked lost. -/
def execAccessLinkTimeout (t : Nat) (tag : Nat) (s : State) : Host.Outcome State Fault Refusal :=
  whenLive s (
    if 512 ≤ t then farTimeout s tag
    else
      let x := s.tile t
      match x.outs.find? (fun w => w.tag == tag) with
      | some w => discardOut (if w.peer then lostPeer s w.target else s) t w
      | none =>
        match x.loads.find? (fun l => l.tag == tag && opcOf l.w0 != 0xC3) with
        | some l => loadTimeout s t l
        | none =>
          match x.moves.find? (fun m => m.tag == tag) with
          | some m => movTimeout s t m
          | none => s)

/-- HOLD_LIMIT_DISCARD (R251): a write still unperformed 2 ms after its issue; the peer is not marked lost. -/
def execHoldLimitDiscard (t : Nat) (tag : Nat) (s : State) : Host.Outcome State Fault Refusal :=
  whenLive s (
    match (s.tile t).outs.find? (fun w => w.tag == tag && w.peer) with
    | some w => discardOut s t w
    | none => s)

/-- HOLD_SEND (R251): while data credits are withheld toward a module, or a gate holds its GATED writes. -/
def execHoldSend (m : Nat) (credits : Bool) (s : State) : Host.Outcome State Fault Refusal :=
  whenLive s (
    let holds := s.gate.eps.any (fun e => tagModule e.tag == m && !e.held.isEmpty)
    let link := (clxLinks s).any (linkFor s m)
    if m < 32768 ∧ (holds ∨ (credits ∧ link)) then stayTell s 2 m 0xF2 [actId s] else s)

/-- HOLD_RECEIVED (R251): the timeouts of every write toward the sender run anew, within 2 ms of its issue. -/
def execHoldReceived (m : Nat) (s : State) : Host.Outcome State Fault Refusal :=
  whenLive s { s with tiles := s.tiles.map (fun p =>
    (p.1, { p.2 with outs := p.2.outs.map (fun (w : WriteRec) =>
      if w.peer ∧ w.target = m ∧ s.clk.fc < w.issued + 2 * fcMs then { w with timer := s.clk.fc } else w) })) }

/-! FENCE. -/

/-- FENCE (R187, R239): it holds its stream and later accesses until it completes. -/
def execFence (t : Nat) (f : InsFence) (s : State) : Host.Outcome State Fault Refusal :=
  issue s t .move (encFence f) 0 (fun s e =>
    let x := s.tile t
    if !x.predOn f.pred.toNat then .done s
    else
      let (h, hm) := holdOf e
      let s := addUse s t ⟨e.tag, 3, true, [], [f.rd.toNat], [], [], h, hm⟩
      let r : FenceRec := ⟨e.tag, e.pc, e.w0, f.rd.toNat, f.scope.toNat, f.type.toNat, f.smask.toNat, 0⟩
      .done (s.setTile t { s.tile t with fence := some r }))

/-- FENCE_COMPLETE (R187, R188): every covered access is performed or discarded. -/
def execFenceComplete (t : Nat) (s : State) : Host.Outcome State Fault Refusal :=
  whenLive s (
    let x := s.tile t
    match x.fence with
    | none => s
    | some r =>
      if t < 512 ∧ s.tstate t = 1 ∧ fenceClear s t r.tag r.scope r.type r.smask then
        let st := fenceStatus x r.type r.smask
        let s := if st = 0x03 then s.setFld .TILE_MOVE_STAT (tix t) TILE_MOVE_STAT.UNREACH 1
          else if st = 0x0A then s.setFld .TILE_MOVE_STAT (tix t) TILE_MOVE_STAT.HOSTLOST 1 else s
        let y := x.setS r.rd (BitVec.ofNat 64 st)
        endUse (s.setTile t { y with fence := none }) t r.tag
      else s)

/-! ECUT and the automatic close. -/

/-- ECUT (R196): once every earlier MOV has retired, the open epoch closes. -/
def execEcut (t : Nat) (pred : BitVec 3) (rd : BitVec 5) (s : State) : Host.Outcome State Fault Refusal :=
  issueM s t .move (encEcut pred rd) 0 (fun s e =>
    let x := s.tile t
    if !x.predOn pred.toNat then .done s
    else if x.moves.any (fun m => decide (m.tag < e.tag)) then .wait
    else
      let tag := match s.epochs.find? (fun e => e.tile == t && !e.closed) with
        | some e => epochTag s e
        | none => 0
      let s := closeEpoch s t
      .done (s.setTile t ((s.tile t).setS rd.toNat (BitVec.ofNat 64 tag))))

/-- EPOCH_AUTO_CLOSE (R193): 2 µs after the first peer-bound write of the open epoch. -/
def execEpochAutoClose (t : Nat) (s : State) : Host.Outcome State Fault Refusal :=
  whenLive s (if t < 512 then closeEpoch s t else s)

end Sys2Proof.Machine
end

