-- ==== Sys2Proof/Machine/AccessCmds.lean ====
section
/-!
DEFINITION. Machine/AccessCmds.lean: accesses of the Keystone cores (R39), the host (R59, R61, R356), third devices on
PCIe (R60, R357, R358) and peer modules (R40, R41) to the local address space, with their outcomes (R62, R510).
-/

namespace Sys2Proof.Machine

/-! Whole requests (R510): every piece is decoded before any is performed. -/

/-- A decoded piece: target, activity frame, address and length. -/
structure Piece where
  t : Tgt
  act : Nat
  a : Nat
  n : Nat

/-- The decoding of a request: its pieces, or the outcome of the first one that fails. -/
inductive PcsR
  | ok (l : List Piece)
  | undec
  | denied
  | held

/-- Decode of the pieces of one page part by lines. -/
def decLines (s : State) (q : Rq) (wr : Bool) : List (Nat × Nat) → PcsR × State
  | [] => (.ok [], s)
  | (a, n) :: r =>
    match decLocal s q a wr with
    | (.undec, s) => (.undec, s)
    | (.denied, s) => (.denied, s)
    | (.held, s) => (.held, s)
    | (.ok t act, s) =>
      match decLines s q wr r with
      | (.ok l, s) => (.ok (⟨t, act, a, n⟩ :: l), s)
      | r => r

/-- Decode of the parts of a request by page or range (R510): an access to registers stays whole, since R8 judges its size
and alignment, and so does the alignment of a Strict access (R43). A part whose way between dies is moving waits (R392). -/
def decParts (s : State) (q : Rq) (wr : Bool) : List (Nat × Nat) → PcsR × State
  | [] => (.ok [], s)
  | (a, n) :: r =>
    match decLocal s q a wr with
    | (.undec, s) => (.undec, s)
    | (.denied, s) => (.denied, s)
    | (.held, s) => (.held, s)
    | (.ok t act, s1) =>
      let one : PcsR × State := match t with
        | .reg _ => (.ok [⟨t, act, a, n⟩], s1)
        | _ => if !strictOk t a n then (.undec, s1) else decLines s q wr (pieces a n)
      match one with
      | (.ok l, s) =>
        if tgtHeld s q t then (.held, s)
        else (match decParts s q wr r with
         | (.ok k, s) => (.ok (l ++ k), s)
         | r => r)
      | r => r

/-- Decode of a request of `n` bytes. -/
def decPieces (s : State) (q : Rq) (wr : Bool) (a n : Nat) : PcsR × State := decParts s q wr (pageParts a n)

/-- What a performed read gives: it must wait, a containment reset has begun, no register is there, or bytes. -/
inductive GetR
  | wait
  | cont (s : State)
  | undec (s : State)
  | lost (s : State)
  | got (s : State) (bytes : List (BitVec 8)) (poison : Bool)

/-- Pieces read in ascending order. -/
def getPieces (s : State) (req : Nat) (via : Via) (noAlloc : Bool) (ext : Ext) : List Piece → GetR
  | [] => .got s [] false
  | p :: r =>
    let go (s : State) (bs : List (BitVec 8)) (pz : Bool) : GetR :=
      match getPieces s req via noAlloc ext r with
      | .got s b z => .got s (bs ++ b) (pz || z)
      | x => x
    match p.t with
    | .reg a =>
      (match regRead s req a p.n with
       | none => .undec s
       | some (s, bs) => go s bs false)
    | t =>
      match readPiece s via t p.act p.a p.n noAlloc ext with
      | none => .wait
      | some x =>
        if x.stat = 0x08 then .cont x.s
        else if x.stat ≠ 0 then .lost x.s
        else go x.s x.bytes x.poison

/-- What a performed write gives. -/
inductive PutR
  | wait
  | undec (s : State)
  | done (s : State) (stat : Nat)

/-- Pieces written in ascending order; a write that meets an error-marked codeword ends with the containment reset it
triggers. -/
def putPieces (s : State) (q : Rq) (via : Via) (poison noAlloc : Bool) (ext : Ext) :
    List Piece → List (BitVec 8) → PutR
  | [], _ => .done s 0
  | p :: r, bs =>
    let go (s : State) (st : Nat) : PutR :=
      if contStarted s then .done s st
      else match putPieces s q via poison noAlloc ext r (bs.drop p.n) with
        | .done s st2 => .done s (if st = 0 then st2 else st)
        | x => x
    match p.t with
    | .reg a =>
      (match regWrite s q a p.n (packBytes 1024 (bs.take p.n)).toNat ext with
       | none => .undec s
       | some s => go s 0)
    | t =>
      match writePiece s via t p.act p.a (bs.take p.n) poison noAlloc ext with
      | none => .wait
      | some (s1, st) =>
        go (match t with
          | .line l _ => noteFar s s1 l (q.code s)
          | _ => s1) st

/-! Cores. -/

/-- A core whose access a containment reset has suppressed (R449 event 8). -/
def coreCut (s : State) (c : Nat) : State := { s with ras := { s.ras with suppressed := some c } }

/-- The reservation of a core (R245). -/
def coreRsvOf (s : State) (c line : Nat) : Bool := s.mem.coreRsv.contains (c, line)

/-- It ends. -/
def coreRsvEnd (s : State) (c : Nat) : State :=
  { s with mem := { s.mem with coreRsv := s.mem.coreRsv.filter (fun p => p.1 != c) } }

/-- The result of an atomic operation on `n` bytes of the RISC-V A extension. -/
def amoVal (k : Nat) (n old d : Nat) : Nat :=
  let w := 8 * n
  let o := old % 2 ^ w
  let x := d % 2 ^ w
  let sgn (v : Nat) : Int := if v < 2 ^ (w - 1) then v else (v : Int) - 2 ^ w
  match k with
  | 0 => x
  | 1 => (o + x) % 2 ^ w
  | 2 => o ^^^ x
  | 3 => o &&& x
  | 4 => o ||| x
  | 5 => if sgn o ≤ sgn x then o else x
  | 6 => if sgn o ≤ sgn x then x else o
  | 7 => min o x
  | _ => max o x

/-- The accesses of a core that wait: the NACK of the first line whose home does not take the request. -/
def coreNack (s : State) (c : Nat) (wr : Bool) (l : List Piece) : State :=
  linesNack s (8 + c) wr (l.filterMap (fun p => match p.t with
    | .line n ty => if ty = 2 then none else some (n, true)
    | _ => none))

/-- A load. -/
def coreLoad (s : State) (c a n : Nat) (ext : Ext) : State :=
  match decPieces s (.core c) false a n with
  | (.held, _) => s
  | (.undec, s) => coreFail s c a
  | (.denied, s) => coreFail s c a
  | (.ok l, s1) =>
    match getPieces s1 ((Rq.core c).code s1) (.agent (8 + c)) false ext l with
    | .wait => coreNack s c false l
    | .cont s => coreCut s c
    | .undec s => coreFail s c a
    | .lost s => s.send (.coreFault c a)
    | .got s bs pz => if pz then s.send (.coreFault c a) else s.send (.coreData c bs)

/-- A store. -/
def coreStore (s : State) (c a : Nat) (bs : List (BitVec 8)) (ext : Ext) : State :=
  match decPieces s (.core c) true a bs.length with
  | (.held, _) => s
  | (.undec, s) => coreFail s c a
  | (.denied, s) => coreFail s c a
  | (.ok l, s1) =>
    match putPieces s1 (.core c) (.agent (8 + c)) false false ext l bs with
    | .wait => coreNack s c true l
    | .undec s => coreFail s c a
    | .done s _ => if contStarted s then coreCut s c else s

/-- The target of an LR, SC or atomic operation: a naturally aligned word of a line that a cache may hold. -/
def coreAtom (s : State) (c a n : Nat) (wr : Bool) (k : State → Piece → Nat → State) : State :=
  if !(n == 4 || n == 8) || a % n != 0 then coreFail s c a
  else match decPieces s (.core c) wr a n with
    | (.held, _) => s
    | (.ok [p], s1) =>
      (match p.t with
       | .line l ty => if ty = 2 then coreFail s1 c a else k s1 p l
       | _ => coreFail s1 c a)
    | (_, s) => coreFail s c a

/-- CORE_LOAD_STORE (R39): an access of core c at a physical address. -/
def execCoreLoadStore (c : Nat) (op : CoreOp) (a n : Nat) (d : BitVec 64) (ext : Ext) (s : State) :
    Host.Outcome State Fault Refusal :=
  whenLive s (
    if 64 ≤ c ∨ !s.coreRuns c then s
    else if 2 ^ 42 ≤ a + (n - 1) then coreFail s c a
    else
      let bs (v : Nat) : List (BitVec 8) := leBytes n v
      match op with
      | .load => if n = 0 ∨ 8 < n then s else coreLoad s c a n ext
      | .store => if n = 0 ∨ 8 < n then s else coreStore s c a (bs d.toNat) ext
      | .lr =>
        coreAtom s c a n false (fun s1 p l =>
          match getPieces s1 ((Rq.core c).code s1) (.agent (8 + c)) false ext [p] with
          | .wait => coreNack s c false [p]
          | .cont s => coreCut s c
          | .got s b pz =>
            if pz then s.send (.coreFault c a)
            else
              let s := coreRsvEnd s c
              let s := { s with mem := { s.mem with coreRsv := s.mem.coreRsv ++ [(c, l)] } }
              s.send (.coreData c b)
          | .undec s => coreFail s c a
          | .lost s => s.send (.coreFault c a))
      | .sc =>
        coreAtom s c a n true (fun s1 p l =>
          if !coreRsvOf s1 c l then (coreRsvEnd s1 c).send (.coreData c (bs 1))
          else match putPieces s1 (.core c) (.agent (8 + c)) false false ext [p] (bs d.toNat) with
            | .wait => coreNack s c true [p]
            | .undec s => coreFail s c a
            | .done s _ =>
              if contStarted s then coreCut (coreRsvEnd s c) c else (coreRsvEnd s c).send (.coreData c (bs 0)))
      | .amo k =>
        coreAtom s c a n true (fun s1 p _ =>
          match getPieces s1 ((Rq.core c).code s1) (.agent (8 + c)) false ext [p] with
          | .wait => coreNack s c false [p]
          | .cont s => coreCut s c
          | .got s2 b pz =>
            if pz then s2.send (.coreFault c a)
            else
              let old := (packBytes 64 b).toNat
              (match putPieces s2 (.core c) (.agent (8 + c)) false false ext [p] (bs (amoVal k n old d.toNat)) with
               | .wait => coreNack s c true [p]
               | .undec s => coreFail s c a
               | .done s _ => if contStarted s then coreCut s c else s.send (.coreData c b))
          | .undec s => coreFail s c a
          | .lost s => s.send (.coreFault c a)))

/-! The host. -/

/-- The requester code of the third devices of a Pier. -/
def pcieWho (p : Nat) : Nat := 1 + p
/-- The status of the retry response of R452. -/
def retryStat : Nat := 0x100

/-- The MSI-X structures (R356) read at an offset from the table. -/
def msixRead (s : State) (o n : Nat) : List (BitVec 8) :=
  (List.range n).map (fun i =>
    if o + i < 32768 then s.msixByte (o + i)
    else (List.range 8).foldl (fun b j =>
      if s.clc.pba.contains ((o + i - 32768) * 8 + j) then b ||| BitVec.ofNat 8 (2 ^ j) else b) 0)

/-- Pending vectors whose mask bit is 0 are sent. -/
def msixRun (s : State) : State :=
  (s.clc.pba.filter (fun v => !(s.msixByte (v * 16 + 12)).getLsbD 0)).foldl (fun s v =>
    ({ s with clc := { s.clc with pba := sdel s.clc.pba v } }).send (.hostIrq v)) s

/-- A write of the MSI-X table; the Pending Bit Array is read-only. -/
def msixWrite (s : State) (o : Nat) (bs : List (BitVec 8)) : State :=
  if 32768 ≤ o then s
  else
    let put (m : List (Nat × BitVec 8)) (i : Nat) : List (Nat × BitVec 8) :=
      mset (if (o + i) % 16 = 12 then 1 else 0) m (o + i) (bs.getD i 0)
    msixRun { s with clc := { s.clc with msix := (List.range bs.length).foldl put s.clc.msix } }

/-- Where a host address goes (R59, R61, R356). -/
inductive HostTo
  | local_ (a : Nat)
  | msix (o : Nat)
  | none_
deriving DecidableEq, Repr

/-- The local address of a host request. -/
def hostAddr (s : State) (bar2 : Bool) (a n : Nat) : HostTo :=
  let cxl := s.bit .P0_CLC_STAT [] P0_CLC_STAT.CXL
  if bar2 then
    if !cxl ∨ 2 ^ 38 < a + n then .none_
    else if 0x40000000 ≤ a ∧ a + n ≤ 0x40008100 then
      (if (n = 4 ∨ n = 8) ∧ a % n = 0 then .msix (a - 0x40000000) else .none_)
    else .local_ (0x3C000000000 + a)
  else
    let base := s.fld .P0_CLC_STAT [] P0_CLC_STAT.HWIN * 2 ^ 42
    if !s.bit .P0_CLC_STAT [] P0_CLC_STAT.HWIN_VALID ∨ a < base ∨
        base + (if cxl then 0x30000000000 else 2 ^ 42) < a + n then .none_
    else .local_ (a - base)

/-- HOST_MEM_REQUEST (R59, R61, R452): from event 2 to event 6 of a containment reset it gets the retry response. -/
def execHostMemRequest (r : HostReq) (ext : Ext) (s : State) : Host.Outcome State Fault Refusal :=
  whenUp s (
    if !hostUp s ∨ s.fld .KST_BOOT_STAT [] KST_BOOT_STAT.STAGE = 15 then s
    else if contStarted s ∧ contEvent s < 6 then hostAnswer s retryStat []
    else match r with
    | .read bar2 a n =>
      (match hostAddr s bar2 a n with
       | .none_ => hostFail s a undecStat
       | .msix o => hostAnswer s 0 (msixRead s o n)
       | .local_ x =>
         match decPieces s .host false x n with
         | (.held, _) => s
         | (.undec, s) => hostFail s x undecStat
         | (.denied, s) => hostFail s x 0x0E
         | (.ok l, s1) =>
           match getPieces s1 (Rq.host.code s1) .none_ true ext l with
           | .wait => s
           | .cont s => hostAnswer s retryStat []
           | .undec s => hostFail s x undecStat
           | .lost s => hostAnswer s 0x0A []
           | .got s bs pz => hostAnswer s (if pz then 4 else 0) bs)
    | .write bar2 a data poison =>
      match hostAddr s bar2 a data.length with
      | .none_ => hostFail s a undecStat
      | .msix o => hostAnswer (if poison then s else msixWrite s o data) 0 []
      | .local_ x =>
        match decPieces s .host true x data.length with
        | (.held, _) => s
        | (.undec, s) => hostFail s x undecStat
        | (.denied, s) => hostFail s x 0x0E
        | (.ok l, s1) =>
          match putPieces s1 .host .none_ poison true ext l data with
          | .wait => s
          | .undec s => hostFail s x undecStat
          | .done s st => hostAnswer s (if contStarted s then retryStat else st) [])

/-! Third devices. -/

/-- Whether a PCIe request of a Pier is taken: its domain B is on, no containment reset holds it (R452), and
Cast-off has not taken its links down (R485). -/
def pcieUp (s : State) (p : Nat) : Bool :=
  decide (p < s.asm.piers) && domOn s (73 + 2 * p) && !(contStarted s && decide (contEvent s < 6)) &&
    s.fld .KST_BOOT_STAT [] KST_BOOT_STAT.STAGE != 15 && s.boot.off != 6

/-- PCIE_MEM_READ (R60, R62, R357, R358): Unsupported Request for an undecoded access, Completer Abort for PERMISSION and
while Parked. -/
def execPcieMemRead (pier a n : Nat) (ext : Ext) (s : State) : Host.Outcome State Fault Refusal :=
  whenUp s (
    if !pcieUp s pier then s
    else
      let q := Rq.pcie pier
      let fail (s : State) (st : Nat) : State := (logFail s q a).send (.resp (pcieWho pier) st [])
      if s.bit .KST_PARK [] KST_PARK.PARKED then s.send (.resp (pcieWho pier) 0x0E [])
      else if 4096 < n then s.send (.resp (pcieWho pier) undecStat [])
      else match decPieces s q false a n with
        | (.held, _) => s
        | (.undec, s) => fail s undecStat
        | (.denied, s) => fail s 0x0E
        | (.ok l, s1) =>
          match getPieces s1 (q.code s1) .none_ true ext l with
          | .wait => s
          | .cont s => s
          | .undec s => fail s undecStat
          | .lost s => s.send (.resp (pcieWho pier) 0x0A [])
          | .got s bs pz => s.send (.resp (pcieWho pier) (if pz then 4 else 0) bs))

/-- PCIE_MEM_WRITE (R358): a posted write, at most 512 bytes (R357). -/
def execPcieMemWrite (pier a : Nat) (data : List (BitVec 8)) (poison : Bool) (ext : Ext) (s : State) :
    Host.Outcome State Fault Refusal :=
  whenUp s (
    if !pcieUp s pier ∨ 512 < data.length then s
    else
      let q := Rq.pcie pier
      if s.bit .KST_PARK [] KST_PARK.PARKED then s.satInc .P0_CLC_ERR [] P0_CLC_ERR.PCIE_DROP 1
      else match decPieces s q true a data.length with
        | (.held, _) => s
        | (.undec, s) => logFail s q a
        | (.denied, s) => logFail s q a
        | (.ok l, s1) =>
          match putPieces s1 q .none_ poison true ext l data with
          | .wait => s
          | .undec s => logFail s q a
          | .done s _ => s)

/-! Peers. -/

/-- PEER_MEM_ACCESS (R40, R41): module m asks for an access to module `dest`. One for another module is logged as misrouted,
for which the spec gives no code of its own: it takes the ordinary entry of a refused access (DESIGN CHOICE, log 162). -/
def execPeerMemAccess (dest m : Nat) (x : PeerAcc) (ext : Ext) (s : State) : Host.Outcome State Fault Refusal :=
  let back (s : State) (st : Nat) (bs : List (BitVec 8)) : State := s.send (.resp (peerWho m) st bs)
  let fail (s : State) (a : Nat) : State := back (logFail s .peer a) 0x0E []
  whenPeer s (back s 0x03 []) (
    match x with
    | .read a n =>
      if !peerInOk s dest then fail s a
      else match decPieces s .peer false a n with
        | (.held, _) => s
        | (.ok l, s1) =>
          (match getPieces s1 (Rq.peer.code s1) .none_ true ext l with
           | .wait => s
           | .cont s => back s 0x03 []
           | .undec s => fail s a
           | .lost s => back s 0x0A []
           | .got s bs pz => back s (if pz then 4 else 0) bs)
        | (_, s) => fail s a
    | .write a data mask pz =>
      if !peerInOk s dest then fail s a
      else match peerLine s a mask with
        | (.held, _) => s
        | (.ok t act, s1) =>
          if gateRecorded s1 (gateKey t) then s
          else match maskedWrite s1 t act ⟨data, pz, 0⟩ mask ext with
            | none => s
            | some s2 => back s2 (tgtLost s1 t) []
        | (_, s) => fail s a)

end Sys2Proof.Machine
end

