-- ==== Sys2Proof/Machine/Svc.lean ====
section
/-!
DEFINITION. Machine/Svc.lean: the service calls that read or write registers (R28, R385, and the controls table of each
chapter). The operand `m` is the mailbox (256 the system one, 257 MCTP); the others are the call's inputs. A call whose
register write would be discarded returns PERMISSION and changes nothing.
-/

namespace Sys2Proof.Machine

/-! Registers through calls. -/

/-- A register copy that the assembly has. -/
def regThere (s : State) (r : RegId) (ix : List Nat) : Bool :=
  let ds := (regInfo r).dims
  ix.length == ds.length && (ix.zip ds).all (fun p => decide (p.1 < p.2.1)) && errIxExists r ix &&
    !absentCopy s.asm (regAddr r ix)

/-- The state after a write, unless the write was refused: the newest entry of the log is then its refusal. -/
def refusedBy (s s' : State) : Option State :=
  let n0 := s.fld .KST_ERR_LOG_STAT [] KST_ERR_LOG_STAT.NEXT
  let n := s'.fld .KST_ERR_LOG_STAT [] KST_ERR_LOG_STAT.NEXT
  if n = n0 then some s'
  else match mfind s'.ras.log ((n + 4095) % 4096) with
    | some e => if e.cause = 0x0F then none else some s'
    | none => some s'

/-- A register copy written with an effective value by firmware. -/
def svcReg (s : State) (r : RegId) (ix : List Nat) (eff : Nat) : SvcR :=
  if !regThere s r ix then svcStat s 0x0E
  else match refusedBy s (regDo s .fw r ix eff ⟨[], [], 0⟩) with
    | some s' => svcOk s' []
    | none => svcStat s 0x0E

/-- Two registers written, or neither. -/
def svcReg2 (s : State) (r : RegId) (ix : List Nat) (eff : Nat) (r2 : RegId) (ix2 : List Nat) (eff2 : Nat) : SvcR :=
  match svcReg s r ix eff with
  | some (s1, some 0, _) =>
    (match svcReg s1 r2 ix2 eff2 with
     | some (s2, some 0, _) => svcOk s2 []
     | _ => svcStat s 0x0E)
  | x => x

/-- Fields of a register written, its other read/write fields kept. -/
def svcFld (s : State) (r : RegId) (ix : List Nat) (fs : List (Fld × Nat)) : SvcR :=
  svcReg s r ix (fs.foldl (fun w f => fput w f.1 f.2) (effWrite (regInfo r).flds (s.rd r ix) 0 64 0))

/-- Registers read. -/
def svcRead (s : State) (l : List (RegId × List Nat)) : SvcR :=
  if l.all (fun p => regThere s p.1 p.2) then svcOk s (l.map (fun p => BitVec.ofNat 64 (regSeen s p.1 p.2)))
  else svcStat s 0x0E

/-- Further outputs of a call that has returned OK, after its own. -/
def svcThen (r : SvcR) (outs : List (BitVec 64)) : SvcR :=
  match r with
  | some (s, some 0, o) => some (s, some 0, o ++ outs)
  | x => x

/-- Further outputs before its own. -/
def svcPre (outs : List (BitVec 64)) (r : SvcR) : SvcR :=
  match r with
  | some (s, some 0, o) => some (s, some 0, outs ++ o)
  | x => x

/-- SVC_MOD_INFO (R5): KST_ASSY_INFO. -/
def execSvcModInfo (m : Nat) (s : State) :
    Host.Outcome State Fault Refusal :=
  svcRow s m 0x0001 (fun _ => false) (fun s =>
    svcRead s [(.KST_ASSY_INFO, [])])

/-- SVC_PWR_MODE (R27). -/
def execSvcPwrMode (m : Nat) (v : Nat) (s : State) :
    Host.Outcome State Fault Refusal :=
  svcRow s m 0x0101 (fun _ => false) (fun s =>
    svcFld s .KST_PWR_MODE [] [(KST_PWR_MODE.MODE, v)])

/-- SVC_INTEGRITY_MODE (R27): CTX_MODE.INTEG. -/
def execSvcIntegrityMode (m : Nat) (c v : Nat) (s : State) :
    Host.Outcome State Fault Refusal :=
  svcRow s m 0x0102 (fun m => c == m) (fun s =>
    svcFld s .CTX_MODE [c] [(CTX_MODE.INTEG, v)])

/-- SVC_ACT_PROTECT (R27): CTX_MODE.ACT_PROT. -/
def execSvcActProtect (m : Nat) (c v : Nat) (s : State) :
    Host.Outcome State Fault Refusal :=
  svcRow s m 0x0103 (fun m => c == m) (fun s =>
    svcFld s .CTX_MODE [c] [(CTX_MODE.ACT_PROT, v)])

/-- SVC_ORDER_MODE (R27): CTX_MODE.ORDER. -/
def execSvcOrderMode (m : Nat) (c v : Nat) (s : State) :
    Host.Outcome State Fault Refusal :=
  svcRow s m 0x0104 (fun m => c == m) (fun s =>
    svcFld s .CTX_MODE [c] [(CTX_MODE.ORDER, v)])

/-- SVC_RAW_HBM_ATTR (R57). -/
def execSvcRawHbmAttr (m : Nat) (rtype bar : Nat) (s : State) :
    Host.Outcome State Fault Refusal :=
  svcRow s m 0x0205 (fun _ => false) (fun s =>
    svcFld s .RAW_HBM_ATTR [] [(RAW_HBM_ATTR.RTYPE, rtype), (RAW_HBM_ATTR.BAR_EN, bar)])

/-- SVC_RAW_HOST_WIN (R58). -/
def execSvcRawHostWin (m : Nat) (en base : Nat) (s : State) :
    Host.Outcome State Fault Refusal :=
  svcRow s m 0x0206 (fun _ => false) (fun s =>
    svcFld s .RAW_HOST_CFG [] [(RAW_HOST_CFG.EN, en), (RAW_HOST_CFG.BASE, base)])

/-- SVC_MOD_ID (R41). -/
def execSvcModId (m : Nat) (id valid : Nat) (s : State) :
    Host.Outcome State Fault Refusal :=
  svcRow s m 0x0207 (fun _ => false) (fun s =>
    svcFld s .KST_MOD_ID [] [(KST_MOD_ID.MOD_ID, id), (KST_MOD_ID.VALID, valid)])

/-- A call on named tiles (R103): it waits until each is idle, and serves them in order; where one of them cannot be
served, none is. A LOST tile never becomes idle, and its registers refuse the call. -/
def svcTiles (s : State) (ts : List Nat) (k : State → Nat → SvcR) : SvcR :=
  if ts.any (fun t => !tileIdle s t && s.tstate t != 7) then none
  else ts.foldl (fun r t =>
    match r with
    | some (u, some 0, o) =>
      (match svcPre o (k u t) with
       | some (v, some 0, o) => some (v, some 0, o)
       | _ => svcStat s 0x0E)
    | r => r) (svcOk s [])

/-- Whether the named tiles belong to a context. -/
def tilesOf (s : State) (ts : List Nat) (m : Nat) : Bool := ts.all (fun t => tileCtx s t == m)

/-- What SVC_FMT_DESC writes: overflow mode, rounding and block size; the user format of slot 15 stays. -/
def fmtDescWord (s : State) (t n w : Nat) : Nat :=
  if n = 15 then s.rd .FMT_DESC (tix t ++ [15]) / 65536 * 65536 + w % 65536 else w

/-- SVC_FMT_DESC (R78, R79, R103): a slot. -/
def execSvcFmtDesc (m : Nat) (ts : List Nat) (n : Nat) (w : BitVec 64) (s : State) :
    Host.Outcome State Fault Refusal :=
  svcRow s m 0x0301 (tilesOf s ts) (fun s => svcTiles s ts (fun s t =>
    svcReg s .FMT_DESC (tix t ++ [n]) (fmtDescWord s t n w.toNat)))

/-- SVC_FMT_USER (R79, R103): the user slot. -/
def execSvcFmtUser (m : Nat) (ts : List Nat) (w : BitVec 64) (s : State) :
    Host.Outcome State Fault Refusal :=
  svcRow s m 0x0302 (tilesOf s ts) (fun s => svcTiles s ts (fun s t => svcReg s .FMT_DESC (tix t ++ [15]) w.toNat))

/-- SVC_SR_SEED (R83, R103). -/
def execSvcSrSeed (m : Nat) (ts : List Nat) (w : BitVec 64) (s : State) :
    Host.Outcome State Fault Refusal :=
  svcRow s m 0x0303 (tilesOf s ts) (fun s => svcTiles s ts (fun s t => svcReg s .TILE_SR_SEED (tix t) w.toNat))

/-- SVC_FMT_FLAGS (R103): the flags as they were; those named are cleared. -/
def execSvcFmtFlags (m : Nat) (ts : List Nat) (clr : BitVec 64) (s : State) :
    Host.Outcome State Fault Refusal :=
  svcRow s m 0x0304 (tilesOf s ts) (fun s => svcTiles s ts (fun s t =>
    svcThen (svcReg s .TILE_FMT_FLAGS (tix t) clr.toNat) [BitVec.ofNat 64 (regSeen s .TILE_FMT_FLAGS (tix t))]))

/-- SVC_FMT_REPORT (R103). -/
def execSvcFmtReport (m : Nat) (ts : List Nat) (w : BitVec 64) (s : State) :
    Host.Outcome State Fault Refusal :=
  svcRow s m 0x0305 (tilesOf s ts) (fun s => svcTiles s ts (fun s t => svcReg s .TILE_FMT_CTL (tix t) w.toNat))

/-- SVC_AMAX (R103): a maximum read, or written too. -/
def execSvcAmax (m : Nat) (ts : List Nat) (n : Nat) (set : Bool) (w : BitVec 64) (s : State) :
    Host.Outcome State Fault Refusal :=
  svcRow s m 0x0306 (tilesOf s ts) (fun s => svcTiles s ts (fun s t =>
    if set then svcThen (svcReg s .TILE_AMAX (tix t ++ [n]) w.toNat) [BitVec.ofNat 64 (regSeen s .TILE_AMAX (tix t ++ [n]))]
    else svcRead s [(.TILE_AMAX, tix t ++ [n])]))

/-- SVC_MMA_TEST (R126, R127). -/
def execSvcMmaTest (m : Nat) (t gate inj : Nat) (s : State) :
    Host.Outcome State Fault Refusal :=
  svcRow s m 0x0401 (fun m => tileCtx s t == m) (fun s =>
    svcFld s .TILE_MMA_CTL (tix t) [(TILE_MMA_CTL.GATE_DIS, gate), (TILE_MMA_CTL.INJ_ONCE, inj)])

/-- SVC_MMA_STATS (R127). -/
def execSvcMmaStats (m : Nat) (t : Nat) (s : State) :
    Host.Outcome State Fault Refusal :=
  svcRow s m 0x0402 (fun m => tileCtx s t == m) (fun s =>
    svcRead s [(.TILE_MMA_STAT, tix t), (.TILE_MMA_PERF, tix t), (.TILE_MMA_KSTEP, tix t)])

/-- SVC_TILE_MAP (R127). -/
def execSvcTileMap (m : Nat) (span : Nat) (s : State) :
    Host.Outcome State Fault Refusal :=
  svcRow s m 0x0403 (fun _ => false) (fun s =>
    svcRead s [(.SPAN_SPARE_MAP, [span]), (.SPAN_TILE_LOST, [span])])

/-- SVC_TILE_STATUS (R150, R203). -/
def execSvcTileStatus (m : Nat) (t : Nat) (s : State) :
    Host.Outcome State Fault Refusal :=
  svcRow s m 0x0501 (fun m => tileCtx s t == m) (fun s =>
    svcRead s [(.TILE_STAT, tix t), (.TILE_EXC, tix t), (.TILE_EXC_ADDR, tix t), (.TILE_MOVE_STAT, tix t), (.TILE_EPOCH, tix t)])

/-- SVC_TILE_PREEMPT (R150): only while software holds OWN_GAUGE. -/
def execSvcTilePreempt (m : Nat) (t : Nat) (restore : Bool) (s : State) :
    Host.Outcome State Fault Refusal :=
  svcRow s m 0x0502 (fun m => tileCtx s t == m) (fun s =>
    if !s.held 3 then svcStat s 0x0E
    else svcFld s .TILE_CTL (tix t) [(if restore then TILE_CTL.RESTORE else TILE_CTL.PREEMPT, 1)])

/-- SVC_TILE_DISABLE (R150). -/
def execSvcTileDisable (m : Nat) (t on : Nat) (s : State) :
    Host.Outcome State Fault Refusal :=
  svcRow s m 0x0503 (fun m => tileCtx s t == m) (fun s =>
    svcFld s .TILE_CTL (tix t) [(TILE_CTL.DISABLE, on)])

/-- SVC_TILE_RESET (R150). -/
def execSvcTileReset (m : Nat) (t : Nat) (s : State) :
    Host.Outcome State Fault Refusal :=
  svcRow s m 0x0504 (fun m => tileCtx s t == m) (fun s =>
    svcFld s .TILE_CTL (tix t) [(TILE_CTL.RESET, 1)])

/-- SVC_COLL_RELEASE (R232). -/
def execSvcCollRelease (m : Nat) (n : Nat) (s : State) :
    Host.Outcome State Fault Refusal :=
  svcRow s m 0x0802 (fun m => s.fld .KST_COLL_ID [n] KST_COLL_ID.CTX_ID == m) (fun s =>
    svcFld s .KST_COLL_ID [n] [(KST_COLL_ID.VALID, 0)])

/-- SVC_COLL_ABORT (R215, R232). -/
def execSvcCollAbort (m : Nat) (n : Nat) (s : State) :
    Host.Outcome State Fault Refusal :=
  svcRow s m 0x0803 (fun m => s.fld .KST_COLL_ID [n] KST_COLL_ID.CTX_ID == m) (fun s =>
    svcFld s .KST_COLL_ID [n] [(KST_COLL_ID.ABORT, 1)])

/-- SVC_COLL_PHASE (R213, R232). -/
def execSvcCollPhase (m : Nat) (n on : Nat) (s : State) :
    Host.Outcome State Fault Refusal :=
  svcRow s m 0x0804 (fun m => s.fld .KST_COLL_ID [n] KST_COLL_ID.CTX_ID == m) (fun s =>
    svcFld s .KST_COLL_ID [n] [(KST_COLL_ID.ACTIVE, on)])

/-- SVC_REVOKE_LOG (R219, R232). -/
def execSvcRevokeLog (m : Nat) (n : Nat) (s : State) :
    Host.Outcome State Fault Refusal :=
  svcRow s m 0x0805 (fun _ => false) (fun s =>
    svcRead s [(.KST_REVOKE_CNT, []), (.KST_REVOKE_ENT, [n])])

/-- SVC_EPOCH_STAT (R232). -/
def execSvcEpochStat (m : Nat) (p : Nat) (s : State) :
    Host.Outcome State Fault Refusal :=
  svcRow s m 0x0806 (fun _ => false) (fun s =>
    svcRead s [(.PIER_EPOCH_STAT, [p])])

/-- SVC_LAT_DISABLE (R232). -/
def execSvcLatDisable (m : Nat) (p q abort : Nat) (s : State) :
    Host.Outcome State Fault Refusal :=
  svcRow s m 0x0807 (fun _ => false) (fun s =>
    svcFld s .LAT_Q_CTL [p, q] [(LAT_Q_CTL.DISABLE, 1), (LAT_Q_CTL.ABORT_EN, abort)])

/-- SVC_LAT_STATS (R232). -/
def execSvcLatStats (m : Nat) (p q : Nat) (s : State) :
    Host.Outcome State Fault Refusal :=
  svcRow s m 0x0808 (fun _ => false) (fun s =>
    svcRead s [(.LAT_FLAGS, [p]), (.LAT_STAT, [p]), (.LAT_Q_STAT, [p, q])])

/-- SVC_RSV_GRAN (R245, R254). -/
def execSvcRsvGran (m : Nat) (c g : Nat) (s : State) :
    Host.Outcome State Fault Refusal :=
  svcRow s m 0x0901 (fun m => c == m) (fun s =>
    svcFld s .CTX_RSV_CTL [c] [(CTX_RSV_CTL.GRAN, g)])

/-- SVC_ORD_STATS (R254). -/
def execSvcOrdStats (m : Nat) (t : Nat) (s : State) :
    Host.Outcome State Fault Refusal :=
  svcRow s m 0x0902 (fun _ => false) (fun s =>
    svcRead s [(.KST_ORD_STAT, []), (.TILE_MOVE_STAT, tix t)])

/-- SVC_LINK_STATUS (R254, R410): a Claden-D port (0), a Claden-X link (1) or a word of lost marks (2). -/
def execSvcLinkStatus (m : Nat) (kind die port : Nat) (s : State) :
    Host.Outcome State Fault Refusal :=
  svcRow s m 0x0903 (fun _ => false) (fun s =>
    match kind with
    | 0 =>
      let (st, er, _, ix) := cldRegs die port
      let di := if die < 8 then (RegId.SPAN_DIE_INFO, [die]) else if die = 8 then (RegId.KST_DIE_INFO, []) else (RegId.PIER_DIE_INFO, [die - 9])
      svcRead s [di, (st, ix), (er, ix)]
    | 1 => svcRead s [(.CLX_LINK_STAT, [die / 6, die % 6]), (.CLX_LINK_ERR, [die / 6, die % 6])]
    | _ => svcRead s [(.CLX_LOST, [die])])

/-- SVC_COH_STATS (R279): of home h and agent a. -/
def execSvcCohStats (m : Nat) (h a : Nat) (s : State) :
    Host.Outcome State Fault Refusal :=
  svcRow s m 0x0A01 (fun _ => false) (fun s =>
    let home : List (RegId × List Nat) :=
      if h = 12 then [(.FAR_HOME_DIR_STAT, []), (.FAR_HOME_DIR_CNT, []), (.FAR_HOME_DIR_ERR, [])]
      else [(.HBM_HOME_DIR_STAT, [h]), (.HBM_HOME_DIR_CNT, [h]), (.HBM_HOME_DIR_ERR, [h])]
    svcRead s (home ++ (cohStat a).toList))

/-- SVC_COH_TEST (R272, R279). -/
def execSvcCohTest (m : Nat) (h ce ue : Nat) (s : State) :
    Host.Outcome State Fault Refusal :=
  svcRow s m 0x0A02 (fun _ => false) (fun s =>
    if h = 12 then svcFld s .FAR_HOME_DIR_CTL [] [(HOME_DIR_CTL.INJ_CE, ce), (HOME_DIR_CTL.INJ_UE, ue)]
    else svcFld s .HBM_HOME_DIR_CTL [h] [(HOME_DIR_CTL.INJ_CE, ce), (HOME_DIR_CTL.INJ_UE, ue)])

/-- SVC_CACHE_STATS (R299). -/
def execSvcCacheStats (m : Nat) (span : Nat) (s : State) :
    Host.Outcome State Fault Refusal :=
  svcRow s m 0x0B04 (fun _ => false) (fun s =>
    svcRead s [(.SPAN_CACHE_STAT, [span]), (.SPAN_CACHE_PERF, [span]), (.SPAN_CMAINT_STAT, [span])])

/-- SVC_HBM_THROTTLE (R317). -/
def execSvcHbmThrottle (m : Nat) (n : Nat) (w : BitVec 64) (hyst : Nat) (s : State) :
    Host.Outcome State Fault Refusal :=
  svcRow s m 0x0C01 (fun _ => false) (fun s =>
    svcReg2 s .HBM_THR_CURVE [n] w.toNat .HBM_THR_CTL [] hyst)

/-- SVC_HBM_SCRUB (R317). -/
def execSvcHbmScrub (m : Nat) (w : BitVec 64) (s : State) :
    Host.Outcome State Fault Refusal :=
  svcRow s m 0x0C02 (fun _ => false) (fun s =>
    svcReg s .HBM_SCRUB_CTL [] w.toNat)

/-- SVC_HBM_STATS (R317): of a stack and a region. -/
def execSvcHbmStats (m : Nat) (st k : Nat) (s : State) :
    Host.Outcome State Fault Refusal :=
  svcRow s m 0x0C03 (fun _ => false) (fun s =>
    svcRead s [(.HBM_STK_STAT, [st]), (.HBM_THR_STAT, [st]), (.HBM_ERR_CNT, [st]), (.HBM_PPR_STAT, [st]), (.HBM_SCRUB_STAT, []), (.HBM_REGION, [k])])

/-- SVC_FAR_POOL (R352). -/
def execSvcFarPool (m : Nat) (w : BitVec 64) (s : State) :
    Host.Outcome State Fault Refusal :=
  svcRow s m 0x0D01 (fun _ => false) (fun s =>
    if s.held 1 then svcStat s 0x0E else svcReg s .PLC_FAR_CFG [] w.toNat)

/-- SVC_POOL_SET (R329, R352). -/
def execSvcPoolSet (m : Nat) (c res lim : Nat) (s : State) :
    Host.Outcome State Fault Refusal :=
  svcRow s m 0x0D02 (fun _ => false) (fun s =>
    if s.held 1 then svcStat s 0x0E else svcFld s .CTX_POOL [c] [(CTX_POOL.RESERVE, res), (CTX_POOL.LIMIT, lim)])

/-- SVC_POOL_STATS (R352). -/
def execSvcPoolStats (m : Nat) (c : Nat) (s : State) :
    Host.Outcome State Fault Refusal :=
  svcRow s m 0x0D03 (fun m => c == m) (fun s =>
    svcThen (svcRead s [(.CTX_POOL, [c]), (.PLC_POOL_STAT, []), (.PLC_STAT, [])]) [BitVec.ofNat 64 (pinnedOf s c)])

/-- SVC_PLACE_TUNE (R352). -/
def execSvcPlaceTune (m : Nat) (w : BitVec 64) (s : State) :
    Host.Outcome State Fault Refusal :=
  svcRow s m 0x0D04 (fun _ => false) (fun s =>
    if s.held 1 then svcStat s 0x0E else svcReg s .PLC_AGE_CTL [] w.toNat)

/-- SVC_TRESTLE_CFG (R352). -/
def execSvcTrestleCfg (m : Nat) (span : Nat) (win sync : BitVec 64) (ways : Nat) (s : State) :
    Host.Outcome State Fault Refusal :=
  svcRow s m 0x0D07 (fun _ => false) (fun s =>
    if s.held 2 then svcStat s 0x0E
    else match svcReg2 s .TR_WIN [span] win.toNat .TR_SYNC [span] sync.toNat with
      | some (s1, some 0, _) =>
        if (refusedBy s1 (cacheCtlWrite s1 span (b2n (s1.bit .SPAN_CACHE_CTL [span] SPAN_CACHE_CTL.EN) + 16 * (ways % 16)))).isNone
        then svcStat s 0x0E
        else svcOk (cacheCtlWrite s1 span (b2n (s1.bit .SPAN_CACHE_CTL [span] SPAN_CACHE_CTL.EN) + 16 * (ways % 16))) []
      | r => r)

/-- SVC_TRESTLE_DISABLE (R352). -/
def execSvcTrestleDisable (m : Nat) (span abort : Nat) (s : State) :
    Host.Outcome State Fault Refusal :=
  svcRow s m 0x0D09 (fun _ => false) (fun s =>
    if s.held 2 then svcStat s 0x0E
    else svcFld s .TR_CTL [span] [(TR_CTL.DISABLE, 1), (TR_CTL.ABORT_EN, abort)])

/-- SVC_TRESTLE_STATS (R352). -/
def execSvcTrestleStats (m : Nat) (span : Nat) (s : State) :
    Host.Outcome State Fault Refusal :=
  svcRow s m 0x0D0A (fun _ => false) (fun s =>
    svcRead s [(.TR_Q_STAT, [span]), (.TR_STAT, [span]), (.TR_FLAGS, [span])])

/-- SVC_RING_DISABLE (R369). -/
def execSvcRingDisable (m : Nat) (r abort : Nat) (s : State) :
    Host.Outcome State Fault Refusal :=
  svcRow s m 0x0E04 (fun m => s.fld .RING_CTL [r] RING_CTL.CTX_ID == m) (fun s =>
    svcFld s .RING_CTL [r] [(RING_CTL.DISABLE, 1), (RING_CTL.ABORT_EN, abort)])

/-- SVC_RING_STATUS (R376). -/
def execSvcRingStatus (m : Nat) (r : Nat) (s : State) :
    Host.Outcome State Fault Refusal :=
  svcRow s m 0x0E05 (fun m => s.fld .RING_CTL [r] RING_CTL.CTX_ID == m) (fun s =>
    svcRead s [(.RING_STAT, [r])])

/-- SVC_CLC_CFG (R376). -/
def execSvcClcCfg (m : Nat) (mode drain : Nat) (s : State) :
    Host.Outcome State Fault Refusal :=
  svcRow s m 0x0E06 (fun _ => false) (fun s =>
    svcFld s .P0_CLC_CFG [] [(P0_CLC_CFG.MODE, mode), (P0_CLC_CFG.DRAIN_MS, drain)])

/-- SVC_CLC_RESET (R370). -/
def execSvcClcReset (m : Nat) (s : State) :
    Host.Outcome State Fault Refusal :=
  svcRow s m 0x0E07 (fun _ => false) (fun s =>
    svcFld s .P0_CLC_CFG [] [(P0_CLC_CFG.EP_RESET, 1)])

/-- SVC_REATTACH (R374). -/
def execSvcReattach (m : Nat) (epoch : Nat) (s : State) :
    Host.Outcome State Fault Refusal :=
  svcRow s m 0x0E08 (fun _ => false) (fun s =>
    if !s.bit .KST_PARK [] KST_PARK.PARKED || s.fld .KST_PARK [] KST_PARK.EPOCH != epoch then svcStat s 0x0E
    else svcOk (reattach s) [])

/-- SVC_CLC_STATUS (R376). -/
def execSvcClcStatus (m : Nat) (s : State) :
    Host.Outcome State Fault Refusal :=
  svcRow s m 0x0E09 (fun _ => false) (fun s =>
    svcRead s [(.P0_CLC_STAT, []), (.P0_CLC_ERR, []), (.KST_PARK, [])])

/-- SVC_CORE_STATUS (R389, R446): for a retired core also where its state was saved, which is free. -/
def execSvcCoreStatus (m : Nat) (c : Nat) (s : State) :
    Host.Outcome State Fault Refusal :=
  svcRow s m 0x0F01 (fun _ => false) (fun s =>
    if coreRetired s c then
      svcThen (svcRead { s with freeCtr := s.freeCtr + 1 } [(.KST_CORE_STAT, [c]), (.KST_HART_STAT, [])])
        [Config.freeValue s.freeCtr]
    else svcRead s [(.KST_CORE_STAT, [c]), (.KST_HART_STAT, [])])

/-- SVC_CORE_RESET (R379, R389). -/
def execSvcCoreReset (m : Nat) (c : Nat) (w : BitVec 64) (s : State) :
    Host.Outcome State Fault Refusal :=
  svcRow s m 0x0F02 (fun _ => false) (fun s =>
    svcReg s .KST_CORE_CTL [c] w.toNat)

/-- SVC_CORE_POWER (R379, R389, R435). -/
def execSvcCorePower (m : Nat) (off : Nat) (s : State) :
    Host.Outcome State Fault Refusal :=
  svcRow s m 0x0F03 (fun _ => false) (fun s =>
    if s.held 0 || !offsOk s 64 8 (off % 256) then svcStat s 0x0E
    else svcOk (applyOff (s.setFld .KST_PD_CTL [] KST_PD_CTL.CORE_PD_OFF (off % 256)) 64 8 (off % 256)) [])

/-- SVC_QS_EXCLUDE (R386, R389). -/
def execSvcQsExclude (m : Nat) (span : Nat) (w : BitVec 64) (s : State) :
    Host.Outcome State Fault Refusal :=
  svcRow s m 0x0F04 (fun _ => false) (fun s =>
    svcReg s .KST_QS_EXCL [span] w.toNat)

/-- SVC_LINK_ROUTE (R410). -/
def execSvcLinkRoute (m : Nat) (dest : Nat) (w : BitVec 64) (hop : Option Nat) (s : State) :
    Host.Outcome State Fault Refusal :=
  svcRow s m 0x1001 (fun _ => false) (fun s =>
    match hop with
    | none => svcReg s .CLX_RT [dest] w.toNat
    | some h => svcReg2 s .CLX_RT [dest] w.toNat .CLX_STAY_CFG [] h)

/-- SVC_LINK_RETRAIN (R410): a Claden-D port or a Claden-X link. -/
def execSvcLinkRetrain (m : Nat) (cld : Bool) (i j : Nat) (s : State) :
    Host.Outcome State Fault Refusal :=
  svcRow s m 0x1002 (fun _ => false) (fun s =>
    let (_, _, ct, ix) := cldRegs i j
    if cld then svcFld s ct ix [(CLD_PORT_CTL.RETRAIN, 1)]
    else svcFld s .CLX_LINK_CTL [i / 6, i % 6] [(CLX_LINK_CTL.RETRAIN, 1)])

/-- SVC_LINK_ENABLE (R410). -/
def execSvcLinkEnable (m : Nat) (l en : Nat) (s : State) :
    Host.Outcome State Fault Refusal :=
  svcRow s m 0x1003 (fun _ => false) (fun s =>
    svcFld s .CLX_LINK_CTL [l / 6, l % 6] [(CLX_LINK_CTL.EN, en)])

/-- SVC_LINK_TEST (R410). -/
def execSvcLinkTest (m : Nat) (die port width : Nat) (s : State) :
    Host.Outcome State Fault Refusal :=
  svcRow s m 0x1004 (fun _ => false) (fun s =>
    let (_, _, ct, ix) := cldRegs die port
    svcFld s ct ix [(CLD_PORT_CTL.MAX_WIDTH, width)])

/-- SVC_PWR_CAP (R417, R435). -/
def execSvcPwrCap (m : Nat) (w : Nat) (s : State) :
    Host.Outcome State Fault Refusal :=
  svcRow s m 0x1101 (fun _ => false) (fun s =>
    svcFld s .TNS_CAP [] [(TNS_CAP.USER_CAP_W, w)])

/-- SVC_PD_SET (R413, R414, R435): the tile groups of a Span, or the Pier domains. -/
def execSvcPdSet (m : Nat) (span : Option Nat) (off : Nat) (s : State) :
    Host.Outcome State Fault Refusal :=
  svcRow s m 0x1102 (fun _ => false) (fun s =>
    if s.held 0 then svcStat s 0x0E
    else match span with
      | some p =>
        if 8 ≤ p ∨ !offsOk s (8 * p) 8 (off % 256) then svcStat s 0x0E
        else svcOk (applyOff (s.setFld .SPAN_PWR_CTL [p] SPAN_PWR_CTL.PD_OFF (off % 256)) (8 * p) 8 (off % 256)) []
      | none =>
        let off := off % 2 ^ (2 * s.asm.piers)
        svcOk (applyOff (s.setFld .KST_PD_CTL [] KST_PD_CTL.PIER_PD_OFF off) 72 (2 * s.asm.piers) off) [])

/-- SVC_PWR_STATS (R435). -/
def execSvcPwrStats (m : Nat) (span : Nat) (s : State) :
    Host.Outcome State Fault Refusal :=
  svcRow s m 0x1103 (fun _ => false) (fun s =>
    svcRead s [(.TNS_EST, []), (.TNS_EVENT, []), (.TNS_DEFER, []), (.SPAN_PWR_STAT, [span]), (.SPAN_DROOP_STAT, [span])])

/-- SVC_ERR_LOG (R438, R463): entry n of the log, and the bank of a unit. -/
def execSvcErrLog (m : Nat) (n unit : Nat) (s : State) :
    Host.Outcome State Fault Refusal :=
  svcRow s m 0x1201 (fun _ => false) (fun s =>
    let (st, ad, sy, ti, ix) := bankOf unit
    if 4096 ≤ n then svcStat s 0x0E
    else
      let s1 := s.setFld .KST_ERR_LOG_IDX [] ⟨11, 0⟩ n
      svcPre ([BitVec.ofNat 64 (regSeen s .KST_ERR_SUM []), BitVec.ofNat 64 (regSeen s .KST_ERR_LOG_STAT [])] ++
        (List.range 4).map (fun k => BitVec.ofNat 64 (logWord s1 k))) (svcRead s [(st, ix), (ad, ix), (sy, ix), (ti, ix)]))

/-- SVC_ERR_CLEAR (R463). -/
def execSvcErrClear (m : Nat) (unit : Nat) (w : BitVec 64) (s : State) :
    Host.Outcome State Fault Refusal :=
  svcRow s m 0x1202 (fun _ => false) (fun s =>
    let (st, _, _, _, ix) := bankOf unit
    svcReg s st ix w.toNat)

/-- SVC_RETIRE_TBL (R443, R463): a row read, or written. -/
def execSvcRetireTbl (m : Nat) (row : Nat) (set : Option (BitVec 64)) (s : State) :
    Host.Outcome State Fault Refusal :=
  svcRow s m 0x1203 (fun _ => false) (fun s =>
    match set with
    | none => svcRead s [(.KST_RETIRE, [row])]
    | some w => if s.held 4 then svcStat s 0x0E else svcReg s .KST_RETIRE [row] w.toNat)

/-- SVC_GAUGE_CFG (R463). -/
def execSvcGaugeCfg (m : Nat) (w : BitVec 64) (s : State) :
    Host.Outcome State Fault Refusal :=
  svcRow s m 0x1204 (fun _ => false) (fun s =>
    if s.held 3 then svcStat s 0x0E else svcReg s .KST_GAUGE_CTL [] w.toNat)

/-- SVC_GAUGE_RUN (R461): under OWN_GAUGE. -/
def execSvcGaugeRun (m : Nat) (w : BitVec 64) (s : State) :
    Host.Outcome State Fault Refusal :=
  svcRow s m 0x1205 (fun _ => false) (fun s =>
    if !s.held 3 then svcStat s 0x0E
    else svcReg s .KST_GAUGE_REQ [] (fput w.toNat KST_GAUGE_REQ.GO 1))

/-- SVC_CONT_TEST (R463). -/
def execSvcContTest (m : Nat) (s : State) :
    Host.Outcome State Fault Refusal :=
  svcRow s m 0x1206 (fun _ => false) (fun s =>
    svcFld s .KST_RAS_CTL [] [(KST_RAS_CTL.CONT_REQ, 1)])

/-- SVC_RAS_RESUME (R453). -/
def execSvcRasResume (m : Nat) (s : State) :
    Host.Outcome State Fault Refusal :=
  svcRow s m 0x1207 (fun _ => false) (fun s =>
    svcFld s .KST_RAS_CTL [] [(KST_RAS_CTL.CONT_RESUME, 1)])

/-- SVC_RAS_STATUS (R463). -/
def execSvcRasStatus (m : Nat) (s : State) :
    Host.Outcome State Fault Refusal :=
  svcRow s m 0x1208 (fun _ => false) (fun s =>
    svcRead s [(.KST_RAS_STAT, []), (.KST_CORE_RETIRED, [])])

/-- SVC_GAUGE_STATUS (R463). -/
def execSvcGaugeStatus (m : Nat) (s : State) :
    Host.Outcome State Fault Refusal :=
  svcRow s m 0x1209 (fun _ => false) (fun s =>
    svcRead s [(.KST_GAUGE_STAT, []), (.KST_GAUGE_REQ, [])])

/-- SVC_BOOT_STATUS (R486). -/
def execSvcBootStatus (m : Nat) (s : State) :
    Host.Outcome State Fault Refusal :=
  svcRow s m 0x1306 (fun _ => false) (fun s =>
    svcRead s [(.KST_BOOT_STAT, []), (.KST_SLOT, [0]), (.KST_SLOT, [1]), (.KST_SET_STAT, [])])

/-- SVC_ID_STATUS (R486). -/
def execSvcIdStatus (m : Nat) (s : State) :
    Host.Outcome State Fault Refusal :=
  svcRow s m 0x1309 (fun _ => false) (fun s =>
    svcRead s [(.KST_ID_STAT, [])])

/-- SVC_BOARD_STATUS (R502). -/
def execSvcBoardStatus (m : Nat) (s : State) :
    Host.Outcome State Fault Refusal :=
  svcRow s m 0x1401 (fun _ => false) (fun s =>
    svcRead s [(.KST_BOARD_STAT, [])])

end Sys2Proof.Machine
end

