-- ==== Sys2Proof/Machine/SvcOps.lean ====
section
/-!
DEFINITION. Machine/SvcOps.lean: the service calls that are more than register accesses: objects and pages, copies, Stay
windows and collectives, cache maintenance, rings, settings, images and resets.
-/

namespace Sys2Proof.Machine

/-! Objects and pages (R50, R51, R54, R326 to R332, R348). -/

/-- Whether pages b to b + n - 1 are free unified pages. -/
def runFree (s : State) (b n : Nat) : Bool :=
  decide (b + n ≤ 1048576) && (ptPages s).all (fun p => decide (p < b) || decide (b + n ≤ p))

/-- A run of free pages (R326): at the start of the range or behind a page in use; which of these is a free choice. -/
def takeRun (s : State) (n : Nat) : Option (Nat × State) :=
  match ((0 :: (ptPages s).map (· + 1)).filter (fun b => runFree s b n)) with
  | [] => none
  | l => let (i, s) := s.freeNat l.length; some (l.getD i 0, s)

/-- A descriptor not in use: ID 1, or the one after an ID in use; which of these is a free choice. -/
def takeObj (s : State) : Option (Nat × State) :=
  let ids := objIds s
  match ((1 :: ids.map (· + 1)).filter (fun i => decide (i < 65536) && !ids.contains i)) with
  | [] => none
  | l => let (i, s) := s.freeNat l.length; some (l.getD i 1, s)

/-- What comes of placing a page of an allocation: it waits (R334), it cannot be placed, or the state after it. -/
inductive NewPage
  | wait
  | no
  | ok (s : State)

/-- A page backed by a far page that reads as zero. -/
def newFar (s : State) (page : Nat) (e : BitVec 64) : NewPage :=
  match takeFar s with
  | none => .no
  | some (f, s) =>
    let s := recallPage s true f
    let s := (List.range 16384).foldl (fun (s : State) i => s.send (.hostWrite (f * 2097152 + i * 128) ⟨0, 0, 0⟩ fullMask)) s
    .ok (setEntry s page (entPut (entPut e 62 32 f) 16 16 1))

/-- A page backed by an HBM frame that reads as zero, under the class of its entry (R50). -/
def newNear (s : State) (page f : Nat) (e : BitVec 64) : State :=
  let s := zeroFrame (setFrameClass (recallPage s false f) f (peClass e)) f
  setEntry s page (entPut (entPut e 62 32 f) 16 16 0)

/-- One page placed under R331 and R332; an eviction is carried out at once. An eviction that consumes an error-marked
codeword leaves the page unplaced, in the containment reset it has triggered. -/
def placeNew (s : State) (page : Nat) (e : BitVec 64) (pol : Nat) : NewPage :=
  if pol = 2 then newFar s page e
  else match placeDecide s (peCtx e) (pol = 0) with
    | (.frame f, s) => .ok (newNear s page f e)
    | (.evict v, s) =>
      (match takeFar s with
       | none => .no
       | some (f, s) =>
         let old := peFrame (ptEntry s v)
         match moveEffect s ⟨v, true, f, none⟩ ⟨[], [], 0⟩ with
         | (s, false) => .ok s
         | (s, true) => .ok (newNear s page old e))
    | (.no, s) => if pol = 0 then .wait else newFar s page e

/-- The pages of an allocation in ascending order. -/
def placeAll (s : State) (e : BitVec 64) (pol : Nat) : List Nat → NewPage
  | [] => .ok s
  | p :: r =>
    match placeNew s p e pol with
    | .ok s => if contStarted s then .ok s else placeAll s e pol r
    | x => x

/-- Word 0 of an object descriptor. -/
def objWord0 (page n kind pol c : Nat) : BitVec 64 :=
  BitVec.ofNat 64 (fput (fput (fput (fput (fput (2 ^ 53) ⟨19, 0⟩ page) ⟨39, 20⟩ n) ⟨42, 40⟩ kind) ⟨44, 43⟩ pol) ⟨52, 45⟩ c)

/-- The entry of a new page before it is placed (R51, R52). -/
def newEntry (s : State) (c kind : Nat) (attr : BitVec 16) : BitVec 64 :=
  let cls := if kind = 4 then s.fld .CTX_MODE [c] CTX_MODE.ACT_PROT else 1
  entPut (entPut (entPut (attr.zeroExtend 64) 15 8 c) 3 3 cls) 0 0 1

/-- Pages of a run that HBM backs. -/
def resident (s : State) (b n : Nat) : Nat :=
  ((ptPages s).filter (fun p => decide (b ≤ p) && decide (p < b + n) && !peLoc (ptEntry s p))).length

/-- SVC_MEM_ALLOC (R326, R332): context, kind, policy, pages, attributes and replica. -/
def execSvcMemAlloc (m c kind pol n : Nat) (attr : BitVec 16) (rep : BitVec 64) (s : State) :
    Host.Outcome State Fault Refusal :=
  svcRow s m 0x0201 (fun m => c == m) (fun s =>
    if s.held 1 ∨ 256 ≤ c ∨ 5 ≤ kind ∨ 4 ≤ pol ∨ n = 0 ∨ 1048576 ≤ n ∨ attr.toNat / 2 % 4 = 3 ∨
        (pol = 0 ∧ s.fld .CTX_POOL [c] CTX_POOL.RESERVE < pinnedOf s c + n) then svcStat s 0x0E
    else match takeRun s n with
      | none => svcStat s 0x0E
      | some (b, s1) =>
        match takeObj s1 with
        | none => svcStat s 0x0E
        | some (id, s1) =>
          let s1 := setObjWord s1 id 1 rep
          let s1 := setObjWord (setObjWord s1 id 2 0) id 3 0
          let s1 := setObjWord s1 id 0 (objWord0 b n kind pol c)
          match placeAll s1 (newEntry s c kind attr) pol ((List.range n).map (b + ·)) with
          | .wait => none
          | .no => svcStat s 0x0E
          | .ok s2 =>
            if contStarted s2 then some (s2, none, [])
            else
              svcOk (setObjWord s2 id 2 (BitVec.ofNat 64 (resident s2 b n)))
                [BitVec.ofNat 64 id, BitVec.ofNat 64 (b * 2097152)])

/-- SVC_MEM_FREE (R326): it waits for moves of the object's pages. -/
def execSvcMemFree (m id : Nat) (s : State) : Host.Outcome State Fault Refusal :=
  svcRow s m 0x0202 (fun m => objCtx s id == m) (fun s =>
    if s.held 1 ∨ id = 0 ∨ 65536 ≤ id ∨ !objValid s id then svcStat s 0x0E
    else
      let ps := (ptPages s).filter (fun p => decide (objPage s id ≤ p) && decide (p < objPage s id + objPages s id))
      if ps.any (fun p => peMoving (ptEntry s p)) then none
      else
        let s := ps.foldl (fun s p =>
          let e := ptEntry s p
          setEntry (recallPage s (peLoc e) (peFrame e)) p (entPut e 0 0 0)) s
        svcOk (plcRun (setObjWord s id 0 (entPut (objWord s id 0) 53 53 0))) [])

/-- SVC_PAGE_ATTR (R54, R55): the attribute word of an allocated page. -/
def execSvcPageAttr (m page : Nat) (attr : BitVec 16) (s : State) : Host.Outcome State Fault Refusal :=
  svcRow s m 0x0203 (fun m => peCtx (ptEntry s page) == m && attr.toNat / 256 == m) (fun s =>
    let e := ptEntry s page
    if 1048576 ≤ page ∨ !peValid e ∨ attr.getLsbD 0 = false then svcStat s 0x0E
    else svcOk (setEntry s page (entPut e 15 0 attr.toNat)) [])

/-- A frame stored anew under a class; its poison marks stay. -/
def recodeFrame (s : State) (f : Nat) (c : Bool) : State :=
  let s := setFrameClass s f c
  let inF (x : Nat) : Bool := frameOf s (x * 32) == f
  { s with mem := { s.mem with
      frmD := if c then sdel s.mem.frmD f else sins s.mem.frmD f
      odd := s.mem.odd.filter (fun x => !inF x)
      er := s.mem.er.filter (fun e => !inF e.1) } }

/-- SVC_PAGE_SET_CLASS (R50): it waits for a move of the page. -/
def execSvcPageSetClass (m page : Nat) (cls : Bool) (s : State) : Host.Outcome State Fault Refusal :=
  svcRow s m 0x0204 (fun m => peCtx (ptEntry s page) == m) (fun s =>
    let e := ptEntry s page
    if 1048576 ≤ page ∨ !peValid e then svcStat s 0x0E
    else if peMoving e then none
    else if peLoc e then svcOk (setEntry s page (entPut e 3 3 (b2n cls))) []
    else
      let s := recallPage s false (peFrame e)
      match frameErr s (peFrame e) with
      | some x => some (consume s x, none, [])
      | none => svcOk (setEntry (recodeFrame s (peFrame e) cls) page (entPut e 3 3 (b2n cls))) [])

/-- SVC_RAW_RESERVE (R328): frames f to f + n - 1 taken out of the free pool for raw-window use, or given back. The
reserves must still fit the pool (R329). -/
def execSvcRawReserve (m f n : Nat) (take : Bool) (s : State) : Host.Outcome State Fault Refusal :=
  svcRow s m 0x0D05 (fun _ => false) (fun s =>
    let fs := (List.range n).map (f + ·)
    if s.held 1 then svcStat s 0x0E
    else if take then
      let s1 := { s with plc := { s.plc with raw := fs.foldl sins s.plc.raw } }
      if fs.all (fun x => (freeIn s (frameRegion s x)).contains x) ∧ reserveSum s1 ≤ poolCount s1 then svcOk s1 []
      else svcStat s 0x0E
    else if fs.all (fun x => s.plc.raw.contains x) then
      svcOk (plcRun { s with plc := { s.plc with raw := fs.foldl sdel s.plc.raw } }) []
    else svcStat s 0x0E)

/-- The line of a page at an offset. -/
def pageLine (s : State) (e : BitVec 64) (off : Nat) : Option Nat :=
  if peLoc e then some (2 ^ 47 + (peFrame e * 2097152 + off) / 128)
  else (rawResolve s (peFrame e * 2097152 + off)).map (· / 128)

/-- The lines of one page of an object rewritten from a source; none where a line cannot be had. -/
def repairPage (s : State) (page src off : Nat) (ext : Ext) : Option State :=
  (List.range 16384).foldl (fun (acc : Option State) i =>
    match acc with
    | none => none
    | some s =>
      match repLine s src (off + i * 128) ext, pageLine s (ptEntry s page) (i * 128) with
      | some (s, some v), some l =>
        if v.pz = 0 then some (memWrite (recallWhole (lineWritten s l) l) l v fullMask) else none
      | _, _ => none) (some s)

/-- The pages of a poisoned object, each placed again if it lost its backing (R372), rewritten and no longer marked. -/
def repairAll (s : State) (id src : Nat) (ext : Ext) : List Nat → Option (State × Nat)
  | [] => some (s, 0)
  | i :: r =>
    let p := objPage s id + i
    let e := ptEntry s p
    match (if peValid e then NewPage.ok s else placeNew s p (entPut e 0 0 1) (objPolicy s id)) with
    | .wait => none
    | .no => some (s, 0x0E)
    | .ok s =>
      if contStarted s then some (s, 0)
      else match repairPage s p src (i * 2097152) ext with
        | none => some (s, 0x04)
        | some s => repairAll (setEntry s p (entPut (ptEntry s p) 18 18 0)) id src ext r

/-- SVC_OBJ_REPAIR (R348): the object rewritten from a source, its REPLICA when none is named, and POISONED cleared.
It places pages, so it is refused while software holds the policy (R29). -/
def execSvcObjRepair (m id : Nat) (src : BitVec 64) (ext : Ext) (s : State) : Host.Outcome State Fault Refusal :=
  svcRow s m 0x0D06 (fun m => objCtx s id == m) (fun s =>
    let src := if src = 0 then (objWord s id 1).toNat else src.toNat
    if s.held 1 ∨ id = 0 ∨ 65536 ≤ id ∨ !objValid s id ∨ src = 0 then svcStat s 0x0E
    else match repairAll s id src ext (List.range (objPages s id)) with
      | none => none
      | some (s2, st) =>
        if contStarted s2 then some (s2, none, [])
        else if st ≠ 0 then svcStat s st
        else
          let n := resident s2 (objPage s2 id) (objPages s2 id)
          svcOk (setObjWord (setObjWord s2 id 0 (entPut (objWord s2 id 0) 54 54 0)) id 2 (BitVec.ofNat 64 n)) [])

/-! Copies and counters. -/

/-- The reading side of a copy: it waits, a containment reset has begun, or bytes (none where a read failed) and the first
failing status. -/
inductive CopyR
  | wait
  | cont (s : State)
  | got (s : State) (bs : List MvByte) (st : Nat)

/-- The status with which a peer has answered. -/
def peerStat (ext : Ext) : Nat :=
  if ext.status = 0 ∨ ext.status = 0x03 ∨ ext.status = 0x0A then ext.status else 0x0E

/-- A refused access of the move engine of a service, logged. -/
def copyNo (s : State) (a : Nat) : State := logDiscard s a unitSvc

/-- Reads of the pieces of a copy's source, each on its own (R182, R510): a Strict range by 8-byte accesses (R43), refused
unless address and length are multiples of 8. -/
def copyReads (q : Rq) (al : Bool) (ext : Ext) : List (Nat × Nat) → State → List MvByte → Nat → CopyR
  | [], s, acc, st => .got s acc st
  | (a, n) :: r, s, acc, st =>
    let lost (s : State) (c : Nat) : CopyR := copyReads q al ext r s (acc ++ List.replicate n none) (firstStat st c)
    let got (s : State) (bs : List (BitVec 8)) (pz : Bool) : CopyR :=
      copyReads q al ext r s (acc ++ bs.map (fun b => some (b, pz))) st
    if 2 ^ 42 ≤ a then lost (copyNo s (a % 2 ^ 42)) 0x0E
    else match decLocal s q a false with
      | (.held, _) => .wait
      | (.ok t act, s) =>
        if t.strict && !al then lost (copyNo s a) 0x0E
        else (match t with
          | .reg ra =>
            (match regReads s unitSvc ra (n / 8) with
             | some (s, bs) => got s bs false
             | none => lost (copyNo s a) 0x0E)
          | _ =>
            match readPiece s .none_ t act a n true ext with
            | none => .wait
            | some x => if x.stat = 0x08 then .cont x.s else if x.stat ≠ 0 then lost x.s x.stat else got x.s x.bytes x.poison)
      | (_, s) => lost (copyNo s a) 0x0E

/-- The requests of a copy's reads at a peer, each on the link of its line (R404); none while one must wait. -/
def copyAsk (pm : Nat) : List (Nat × Nat) → State → Option State
  | [], s => some s
  | (a, n) :: r, s =>
    match peerLink s pm (peerBucket pm a) with
    | none => none
    | some (l, s) => copyAsk pm r (s.sendOn l 0 (.peerRead pm a l n))

/-- The writes of a copy at a peer, each on the link of its line; none while one must wait. -/
def copySend (pm a0 : Nat) (bs : List MvByte) : List (Nat × Nat) → State → Option State
  | [], s => some s
  | (a, n) :: r, s =>
    let (v, mask) := mvLine (a % 128) ((bs.drop (a - a0)).take n)
    if mask = 0 then copySend pm a0 bs r s
    else match peerLink s pm (peerBucket pm a) with
      | none => none
      | some (l, s) => copySend pm a0 bs r (s.sendOn l 0 (.peerWrite pm (a / 128 * 128) l v mask none))

/-- The source of a copy: local memory, or a peer whose answer the outside gives under the pointer. -/
def copyRead (s : State) (q : Rq) (p : BitVec 64) (n : Nat) (ext : Ext) : CopyR :=
  let no (s : State) (st : Nat) : CopyR := .got s (List.replicate n none) st
  match decPtr s p with
  | .peer pm a =>
    (match peerRoute s pm with
     | (0, s) =>
       (match copyAsk pm (pieces a n) s with
        | none => .wait
        | some s =>
          if ext.status ≠ 0 then no (if ext.status = 0x03 then lostPeer s pm else s) (peerStat ext)
          else .got s ((List.range n).map (fun i =>
            some (extByte ext (p.toNat + i), ext.poison.contains ((p.toNat + i) / 128 * 128)))) 0)
     | (0x0E, s) => no (copyNo s a) 0x0E
     | (st, s) => no s st)
  | .local_ a => copyReads q (a % 8 == 0 && n % 8 == 0) ext (pieces a n) s [] 0
  | _ => no (copyNo s (p.toNat % 2 ^ 42)) 0x0E

/-- Writes of the pieces of a copy's destination, each on its own; bytes whose read failed are not written. `none` = one
must wait. -/
def copyWrites (q : Rq) (al : Bool) (ext : Ext) : List (Nat × Nat) → List MvByte → State → Nat → Option (State × Nat)
  | [], _, s, st => some (s, st)
  | (a, n) :: r, bs, s, st =>
    let (v, mask) := mvLine (a % 128) (bs.take n)
    let next (s : State) (c : Nat) : Option (State × Nat) := copyWrites q al ext r (bs.drop n) s (firstStat st c)
    if mask = 0 then next s 0
    else if 2 ^ 42 ≤ a then next (copyNo s (a % 2 ^ 42)) 0x0E
    else match decLocal s q a true with
      | (.held, _) => none
      | (.ok t act, s) =>
        if t.strict && !al then next (copyNo s a) 0x0E
        else (match t with
          | .reg ra =>
            (match regWrites s q (ra / 128 * 128) v ext (maskWords mask) with
             | some s => next s 0
             | none => next (copyNo s a) 0x0E)
          | .line l _ =>
            if gateRecorded s (l * 2) then none
            else (maskedWrite s t act v mask ext).bind (fun s1 => next (noteFar s s1 l unitSvc) (tgtLost s t))
          | .win u off =>
            if gateRecorded s ((u * 8192 + off / 128) * 2 + 1) then none
            else (maskedWrite s (.win u (off / 128 * 128)) act v mask ext).bind (fun s => next s 0))
      | (_, s) => next (copyNo s a) 0x0E

/-- The destination of a copy: the first failing status, or none while it waits. -/
def copyWrite (s : State) (q : Rq) (p : BitVec 64) (bs : List MvByte) (st : Nat) (ext : Ext) : Option (State × Nat) :=
  match decPtr s p with
  | .peer pm a =>
    (match peerRoute s pm with
     | (0, s) =>
       (copySend pm a bs (pieces a bs.length) s).map (fun s =>
         (if ext.status = 0x03 then lostPeer s pm else s, firstStat st (peerStat ext)))
     | (0x0E, s) => some (copyNo s a, firstStat st 0x0E)
     | (c, s) => some (s, firstStat st c))
  | .local_ a => copyWrites q (a % 8 == 0 && bs.length % 8 == 0) ext (pieces a bs.length) bs s st
  | _ => some (copyNo s (p.toNat % 2 ^ 42), firstStat st 0x0E)

/-- SVC_COPY (R39): a move engine copies for a core, in the context of the mailbox, as a MOV does (R182, R183): poisoned
data is copied with its mark and the call then completes with POISONED; a failing access leaves the rest standing. -/
def execSvcCopy (m : Nat) (dst src : BitVec 64) (n : Nat) (ext : Ext) (s : State) : Host.Outcome State Fault Refusal :=
  svcRow s m 0x0208 (fun _ => true) (fun s =>
    let q : Rq := if m < 256 then .eng m unitSvc else .core 0
    match copyRead s q src n ext with
    | .wait => none
    | .cont s => some (s, none, [])
    | .got s bs st =>
      match copyWrite s q dst bs st ext with
      | none => none
      | some (s, st) =>
        if contStarted s then some (s, none, [])
        else some (s, some (if st ≠ 0 then st else if bs.any (fun b => b.any (·.2)) then 0x04 else 0), []))

/-- The rate difference of two counters (R24): the change in offset divided by the interval between two estimates, in a
number format that the spec does not give; with no earlier estimate there is none, and the word is free. -/
def driftWord (s : State) (dest : Nat) (off : Int) : BitVec 64 :=
  match mfind s.kst.offs dest with
  | some (fc, o) => if fc = s.kstFc then Config.freeValue s.freeCtr else Config.driftFormat (off - o) (s.kstFc - fc)
  | none => Config.freeValue s.freeCtr

/-- SVC_CNT_OFFSET (R24): `remote` is what the peer's counter read and `rt` the round trip of the best sample. -/
def execSvcCntOffset (m dest rt remote : Nat) (s : State) : Host.Outcome State Fault Refusal :=
  svcRow s m 0x0105 (fun _ => false) (fun s =>
    match (if dest < 32768 then staySend s 2 dest 0xF4 [] else none) with
    | none => svcStat s 0x03
    | some s =>
      let now := s.kstFc
      let off : Int := (remote : Int) - (((now - rt) + now) / 2 : Nat)
      let s1 := { s with freeCtr := s.freeCtr + 1, kst := { s.kst with offs := mins s.kst.offs dest (now, off) } }
      svcOk s1 [BitVec.ofInt 64 off, BitVec.ofNat 64 (rt / 2), driftWord s dest off])

/-! Stay windows and collectives. -/

/-- SVC_STAY_ALLOC (R203): a window of counters for registration n, chosen clear of every window in force, its counters
initialised. -/
def execSvcStayAlloc (m n c sc kc : Nat) (s : State) : Host.Outcome State Fault Refusal :=
  svcRow s m 0x0701 (fun m => c == m) (fun s =>
    if 64 ≤ n ∨ collValid s n ∨ 1024 < sc ∨ 4096 < kc then svcStat s 0x0E
    else match freeBase s 0 sc 1024 with
      | none => svcStat s 0x0E
      | some (sb, s1) =>
        match freeBase s1 8 kc 4096 with
        | none => svcStat s 0x0E
        | some (kb, s1) =>
          let w := winWord sb sc kb kc
          svcOk (initWin (s1.wr .KST_COLL_WIN [n] w) w) [BitVec.ofNat 64 w])

/-- SVC_COLL_REGISTER (R214, R232): window (unless SVC_STAY_ALLOC has set it), member bitmap, buffer and identity. -/
def execSvcCollRegister (m n : Nat) (id memb buf : BitVec 64) (win : Option (BitVec 64)) (ext : Ext) (s : State) :
    Host.Outcome State Fault Refusal :=
  svcRow s m 0x0801 (fun m => fget id.toNat KST_COLL_ID.CTX_ID == m) (fun s =>
    if 64 ≤ n ∨ collValid s n then svcStat s 0x0E
    else
      let s1 := match win with
        | some w => s.plain .KST_COLL_WIN [n] w.toNat
        | none => s
      let s1 := (s1.plain .KST_COLL_MEMB [n] memb.toNat).plain .KST_COLL_BUF [n] buf.toNat
      match refusedBy s1 (collIdWrite s1 n (fput id.toNat KST_COLL_ID.VALID 1) ext) with
      | none => svcStat s 0x0E
      | some s2 => if collValid s2 n then svcOk s2 [] else none)

/-! Cache maintenance. -/

/-- What the buffer of a Span has taken from the maintenance engine is written back and accepted, in order (R284). -/
def maintDrain (s : State) (p : Nat) : State :=
  (s.mem.vebs.filter (fun e => e.span == p && e.maint)).foldl (fun s e => vebPut (serveWb s p e.line e.v) p e.line none) s

/-- The scan of an operation to its end, the buffer written back whenever it is full; it stops where it must wait. -/
def maintAll (s : State) (p : Nat) (r : MaintRec) (n : Nat) : Nat → State × MaintRec
  | 0 => (s, r)
  | k + 1 =>
    let q := maintGoOn s p r n
    if maintWritten q.1 p then q
    else
      let s := maintDrain q.1 p
      if q.2.scanned then (s, q.2) else maintAll s p q.2 n k

/-- A maintenance operation carried out from its start to its end: the state and its status, or none while it cannot run
yet. -/
def cmaintOnce (s : State) (p eff addr len status : Nat) : Option (State × Nat) :=
  if s.bit .SPAN_CMAINT_STAT [p] SPAN_CMAINT_STAT.BUSY then none
  else
    let s1 := (s.plain .SPAN_CMAINT_ADDR [p] addr).plain .SPAN_CMAINT_LEN [p] len
    let eff := fput (fput eff SPAN_CMAINT_CTL.GO 1) SPAN_CMAINT_CTL.ABORT 0
    if maintRefused s1 p eff then some (s, 0x0E)
    else
      let s2 := cmaintWrite s1 p eff
      match mfind s2.mem.maint p with
      | none => none
      | some r =>
        let total := if r.byWay then 24576 else r.len
        let (s2, r) := maintAll s2 p r total 1537
        if !r.scanned then none
        else
          let st := if status = 0x0A ∨ status = 0x03 then status else 0
          some (maintEnd s2 p r st, st)

/-- SVC_CACHE_MAINT (R287, R299); `status` is what became of its host-bound writebacks. -/
def execSvcCacheMaint (m span : Nat) (ctl : BitVec 64) (addr len status : Nat) (s : State) :
    Host.Outcome State Fault Refusal :=
  svcRow s m 0x0B01 (fun m => fget ctl.toNat SPAN_CMAINT_CTL.TARGET == 0 && decide (addr + len * 128 ≤ 0x20000000000) &&
      (pagesOf addr (len * 128)).all (fun p => peCtx (ptEntry s p) == m)) (fun s =>
    if 8 ≤ span ∨ addr % 128 ≠ 0 then svcStat s 0x0E
    else match cmaintOnce s span ctl.toNat addr len status with
      | none => none
      | some (s, st) => some (s, some st, []))

/-- The control word of an operation over all 16 ways. -/
def allWays (op : Nat) : Nat := fput (fput (fput 0 SPAN_CMAINT_CTL.OP op) SPAN_CMAINT_CTL.TARGET 1) SPAN_CMAINT_CTL.WAY_MASK 0xFFFF

/-- SVC_SPAN_CACHE_DISABLE (R294): CLEAN_INVAL of all ways once every tile of the Span is idle, then EN = 0. -/
def execSvcSpanCacheDisable (m span status : Nat) (s : State) : Host.Outcome State Fault Refusal :=
  svcRow s m 0x0B02 (fun _ => false) (fun s =>
    if 8 ≤ span then svcStat s 0x0E
    else if !s.bit .SPAN_CACHE_CTL [span] SPAN_CACHE_CTL.EN then svcOk s []
    else if (List.range 64).any (fun i => !(tileIdle s (span * 64 + i) || s.tstate (span * 64 + i) == 7)) then none
    else match cmaintOnce s span (allWays 3) 0 0 status with
      | none => none
      | some (s, st) =>
        let s := (s.setFld .SPAN_CACHE_CTL [span] SPAN_CACHE_CTL.EN 0).setFld .SPAN_CACHE_STAT [span] SPAN_CACHE_STAT.INV_CLEAN 0
        some (s.setFld .SPAN_CACHE_STAT [span] SPAN_CACHE_STAT.DIRTY_AT_DIS 0, some st, []))

/-- SVC_SPAN_CACHE_ENABLE (R297): INVAL of all ways, then EN = 1. -/
def execSvcSpanCacheEnable (m span : Nat) (s : State) : Host.Outcome State Fault Refusal :=
  svcRow s m 0x0B03 (fun _ => false) (fun s =>
    if 8 ≤ span then svcStat s 0x0E
    else if s.bit .SPAN_CACHE_CTL [span] SPAN_CACHE_CTL.EN then svcOk s []
    else match cmaintOnce s span (allWays 2) 0 0 0 with
      | none => none
      | some (s, st) => some (s.setFld .SPAN_CACHE_CTL [span] SPAN_CACHE_CTL.EN 1, some st, []))

/-! Trestle and rings. -/

/-- SVC_TRESTLE_POST (R340, R352): with `ring`, the base of the Span's ring, which is enabled and numbered afresh; then the
layer's descriptor in the next slot with its SEQ, and the doorbell. -/
def execSvcTrestlePost (m span : Nat) (ring : Option (BitVec 64)) (d : BitVec 512) (s : State) :
    Host.Outcome State Fault Refusal :=
  svcRow s m 0x0D08 (fun _ => false) (fun s =>
    let s1? : Option State := match ring with
      | none => some s
      | some w => (refusedBy s (trBaseWrite s span w.toNat)).bind (fun s1 =>
          refusedBy s1 (trCtlWrite s1 span (fput (fput 0 TR_CTL.EN 1) TR_CTL.GO 1)))
    match s1? with
    | none => svcStat s 0x0E
    | some s1 =>
      let x := s1.trs span
      let size := trSize s1 span
      if 8 ≤ span ∨ s.held 2 ∨ !s1.bit .TR_CTL [span] TR_CTL.EN ∨ size ≤ x.posted - x.started + 1 then svcStat s 0x0E
      else
        let a := s1.fld .TR_Q_BASE [span] LAT_Q_BASE.BASE * 64 + x.tail % size * 64
        let v : BitVec 512 := BitVec.ofNat 512 (fput d.toNat ⟨63, 56⟩ (x.posted % 256))
        let s2 := fwWriteBytes s1 a ((List.range 64).map (fun i => v.extractLsb' (8 * i) 8))
        svcOk (trDbWrite s2 span (fput 0 LAT_DB.TAIL ((x.tail + 1) % size))) [])

/-- SVC_RING_CREATE (R359, R376). -/
def execSvcRingCreate (m r : Nat) (base cpl ctl : BitVec 64) (s : State) : Host.Outcome State Fault Refusal :=
  svcRow s m 0x0E01 (fun m => fget ctl.toNat RING_CTL.CTX_ID == m) (fun s =>
    if 4096 ≤ r ∨ s.bit .RING_CTL [r] RING_CTL.EN then svcStat s 0x0E
    else match svcReg2 s .RING_BASE [r] base.toNat .RING_CPL [r] cpl.toNat with
      | some (s1, some 0, _) =>
        (match svcReg s1 .RING_CTL [r] (fput ctl.toNat RING_CTL.EN 1) with
         | some (s2, some 0, o) => svcOk s2 o
         | _ => svcStat s 0x0E)
      | x => x)

/-- SVC_RING_DESTROY (R376): a ring without a running dispatch is disabled. -/
def execSvcRingDestroy (m r : Nat) (s : State) : Host.Outcome State Fault Refusal :=
  svcRow s m 0x0E02 (fun m => s.fld .RING_CTL [r] RING_CTL.CTX_ID == m) (fun s =>
    if 4096 ≤ r ∨ ringRuns s r then svcStat s 0x0E else svcFld s .RING_CTL [r] [(RING_CTL.EN, 0)])

/-- SVC_DISPATCH_ABORT (R367). -/
def execSvcDispatchAbort (m r seq : Nat) (s : State) : Host.Outcome State Fault Refusal :=
  svcRow s m 0x0E03 (fun m => s.fld .RING_CTL [r] RING_CTL.CTX_ID == m) (fun s =>
    if 4096 ≤ r then svcStat s 0x0E
    else
      let (s, st) := abortSeq s r (seq % 2 ^ 32)
      some (skipRecorded 4096 s r, some st, []))

/-! Settings, images and resets. -/

/-- SVC_SETTINGS_STORE (R467, R469): its status comes with the end of the commit. -/
def execSvcSettingsStore (m : Nat) (s : State) : Host.Outcome State Fault Refusal :=
  svcRow s m 0x1301 (fun _ => false) (fun s =>
    let (s, st) := storeAsk s (some m)
    some (s, st, []))

/-- SVC_SETTINGS_DEFAULT (R469). -/
def execSvcSettingsDefault (m : Nat) (s : State) : Host.Outcome State Fault Refusal :=
  svcRow s m 0x1302 (fun _ => false) (fun s => svcFld s .KST_SET_CTL [] [(KST_SET_CTL.DEFAULT, 1)])

/-- The steppings of the dies present. -/
def steppings (s : State) : List Nat :=
  s.fld .KST_DIE_INFO [] DIE_INFO.STEPPING :: (List.range 8).map (fun p => s.fld .SPAN_DIE_INFO [p] DIE_INFO.STEPPING) ++
    (List.range s.asm.piers).map (fun p => s.fld .PIER_DIE_INFO [p] DIE_INFO.STEPPING)

/-- Whether an image set fits (R470, R472, R473). -/
def setFits (s : State) (set : List ImgHdr) : Bool :=
  let ver (k : Nat) : Option Nat :=
    if k = 0x0F then some Config.romVersion else (set.find? (fun h => h.kind == k)).map (·.version)
  set.map (·.kind) == [1, 2, 3, 4, 5] &&
  set.all (fun h =>
    h.auth && decide (h.keyslot < 4) && (s.fld .KST_ID_STAT [] KST_ID_STAT.KEY_REVOKED >>> h.keyslot) % 2 == 0 &&
    (steppings s).all (fun x => decide (h.stepMin ≤ x) && decide (x ≤ h.stepMax)) &&
    decide (h.layMin ≤ 1) && decide (1 ≤ h.layMax) && decide (mget 0 s.boot.minSvn h.kind ≤ h.svn) &&
    h.compat.all (fun c =>
      match ver c.1 with
      | some v => decide (c.2.2.1 ≤ v) && decide (v ≤ c.2.2.2)
      | none => !c.2.1))

/-- A set written whole: what the directory and KST_SLOT hold of it. -/
def slotFill (s : State) (k : Nat) (set : List ImgHdr) : State :=
  let s := match set.head? with
    | none => s
    | some h =>
      let s := setSlot (setSlot s k KST_SLOT.SVN h.svn) k KST_SLOT.KEYSLOT h.keyslot
      setSlot { s with boot := { s.boot with revoke := mset 0 s.boot.revoke k h.revoke } } k KST_SLOT.VERSION h.version
  let svn := set.foldl (fun m (h : ImgHdr) => mset 0 m (8 * k + h.kind) h.svn) s.boot.svn
  setSlot (setSlot { s with boot := { s.boot with svn := svn } } k KST_SLOT.READY 1) k KST_SLOT.FAIL_CNT 0

/-- SVC_IMAGE_WRITE (R474): a chunk of an image set for a slot; with the last one, what its headers say. -/
def execSvcImageWrite (m slot : Nat) (first last : Bool) (set : List ImgHdr) (s : State) :
    Host.Outcome State Fault Refusal :=
  svcRow s m 0x1303 (fun _ => false) (fun s =>
    let ran := !(s.fld .KST_BOOT_STAT [] KST_BOOT_STAT.STAGE == 15 && s.fld .KST_BOOT_STAT [] KST_BOOT_STAT.RCVY_CAUSE == 1)
    if 2 ≤ slot ∨ (ran ∧ slot = s.fld .KST_BOOT_STAT [] KST_BOOT_STAT.SLOT) ∨
        (!first ∧ !s.bit .KST_SLOT [slot] KST_SLOT.WRITING) then svcStat s 0x0E
    else
      let s := if first then
          setSlot (setSlot (setSlot (s.setFld .KST_SLOT [slot] KST_SLOT.WRITING 1) slot KST_SLOT.READY 0) slot
            KST_SLOT.TRIAL 0) slot KST_SLOT.CONFIRMED 0
        else s
      if !last then svcOk s []
      else
        let s := s.setFld .KST_SLOT [slot] KST_SLOT.WRITING 0
        if setFits s set then svcOk (slotFill s slot set) [] else some (s, some 0x0E, []))

/-- SVC_IMAGE_SELECT (R475). -/
def execSvcImageSelect (m slot : Nat) (s : State) : Host.Outcome State Fault Refusal :=
  svcRow s m 0x1304 (fun _ => false) (fun s =>
    if 2 ≤ slot ∨ !slotReady s slot then svcStat s 0x0E else svcOk (slotSelect s slot) [])

/-- SVC_IMAGE_CONFIRM (R475). -/
def execSvcImageConfirm (m : Nat) (s : State) : Host.Outcome State Fault Refusal :=
  svcRow s m 0x1305 (fun _ => false) (fun s =>
    if trialOpen s ∧ s.boot.event = 11 then svcOk (trialConfirm s) [] else svcStat s 0x0E)

/-- SVC_MOD_RESET (R476, R486): `rcvy` asks for Recovery at the Cast-on that follows. -/
def execSvcModReset (m : Nat) (rcvy : Bool) (s : State) : Host.Outcome State Fault Refusal :=
  svcRow s m 0x1307 (fun _ => false) (fun s =>
    svcOk (moduleReset (if rcvy then { s with boot := { s.boot with rcvy := true } } else s)) [])

/-- SVC_CASTOFF (R485): its status comes with the end of Cast-off. -/
def execSvcCastoff (m : Nat) (s : State) : Host.Outcome State Fault Refusal :=
  svcRow s m 0x1308 (fun _ => false) (fun s => some (castOffAsk s (some m), none, []))

end Sys2Proof.Machine
end

