-- ==== Sys2Proof/Machine/Dispatch.lean ====
section
/-!
DEFINITION. Machine/Dispatch.lean: the meaning of each command, one arm per constructor of Instr.
-/

namespace Sys2Proof.Machine

/-- The command's effect on everything but the queue. -/
def exec (i : Instr) (s : State) : Host.Outcome State Fault Refusal :=
  match i with
  | .registerWrite who id a n d ext => Sys2Proof.Machine.execRegisterWrite who id a n d ext s
  | .coldReset => Sys2Proof.Machine.execColdReset s
  | .moduleReset ns held strap => Sys2Proof.Machine.execModuleReset ns held strap s
  | .modResetRelease strap => Sys2Proof.Machine.execModResetRelease strap s
  | .pwrEnRise => Sys2Proof.Machine.execPwrEnRise s
  | .pwrGoodRise => Sys2Proof.Machine.execPwrGoodRise s
  | .pwrEnFall => Sys2Proof.Machine.execPwrEnFall s
  | .vinOutOfRange dv held => Sys2Proof.Machine.execVinOutOfRange dv held s
  | .converterRestart => Sys2Proof.Machine.execConverterRestart s
  | .boardSensorRead vin coolant => Sys2Proof.Machine.execBoardSensorRead vin coolant s
  | .svcModInfo m => Sys2Proof.Machine.execSvcModInfo m s
  | .svcCntOffset m dest rt remote => Sys2Proof.Machine.execSvcCntOffset m dest rt remote s
  | .svcPwrMode m v => Sys2Proof.Machine.execSvcPwrMode m v s
  | .svcIntegrityMode m c v => Sys2Proof.Machine.execSvcIntegrityMode m c v s
  | .svcActProtect m c v => Sys2Proof.Machine.execSvcActProtect m c v s
  | .svcOrderMode m c v => Sys2Proof.Machine.execSvcOrderMode m c v s
  | .powerModeWrite w => Sys2Proof.Machine.execPowerModeWrite w s
  | .ctxModeWrite c w => Sys2Proof.Machine.execCtxModeWrite c w s
  | .policyTakeover w => Sys2Proof.Machine.execPolicyTakeover w s
  | .policyHandback w => Sys2Proof.Machine.execPolicyHandback w s
  | .policyAckChange n => Sys2Proof.Machine.execPolicyAckChange n s
  | .policyAckTimeout n => Sys2Proof.Machine.execPolicyAckTimeout n s
  | .attrInval w => Sys2Proof.Machine.execAttrInval w s
  | .attrInvalDone => Sys2Proof.Machine.execAttrInvalDone s
  | .svcMemAlloc m c kind pol n attr rep => Sys2Proof.Machine.execSvcMemAlloc m c kind pol n attr rep s
  | .svcMemFree m id => Sys2Proof.Machine.execSvcMemFree m id s
  | .svcPageAttr m page attr => Sys2Proof.Machine.execSvcPageAttr m page attr s
  | .svcPageSetClass m page cls => Sys2Proof.Machine.execSvcPageSetClass m page cls s
  | .svcRawHbmAttr m rtype bar => Sys2Proof.Machine.execSvcRawHbmAttr m rtype bar s
  | .svcRawHostWin m en base => Sys2Proof.Machine.execSvcRawHostWin m en base s
  | .svcModId m id valid => Sys2Proof.Machine.execSvcModId m id valid s
  | .svcCopy m dst src n ext => Sys2Proof.Machine.execSvcCopy m dst src n ext s
  | .coreLoadStore c op a n d ext => Sys2Proof.Machine.execCoreLoadStore c op a n d ext s
  | .hostMemRequest r ext => Sys2Proof.Machine.execHostMemRequest r ext s
  | .pcieMemRead pier a n ext => Sys2Proof.Machine.execPcieMemRead pier a n ext s
  | .pcieMemWrite pier a data poison ext => Sys2Proof.Machine.execPcieMemWrite pier a data poison ext s
  | .peerMemAccess dest m x ext => Sys2Proof.Machine.execPeerMemAccess dest m x ext s
  | .movingHoldTimeout page => Sys2Proof.Machine.execMovingHoldTimeout page s
  | .pageMoveDone page ext => Sys2Proof.Machine.execPageMoveDone page ext s
  | .pageMoveAbandon page => Sys2Proof.Machine.execPageMoveAbandon page s
  | .fmtDescWrite t n w => Sys2Proof.Machine.execFmtDescWrite t n w s
  | .srSeedWrite t w => Sys2Proof.Machine.execSrSeedWrite t w s
  | .amaxRoll t n w => Sys2Proof.Machine.execAmaxRoll t n w s
  | .svcFmtDesc m ts n w => Sys2Proof.Machine.execSvcFmtDesc m ts n w s
  | .svcFmtUser m ts w => Sys2Proof.Machine.execSvcFmtUser m ts w s
  | .svcSrSeed m ts w => Sys2Proof.Machine.execSvcSrSeed m ts w s
  | .svcFmtFlags m ts clr => Sys2Proof.Machine.execSvcFmtFlags m ts clr s
  | .svcFmtReport m ts w => Sys2Proof.Machine.execSvcFmtReport m ts w s
  | .svcAmax m ts n set w => Sys2Proof.Machine.execSvcAmax m ts n set w s
  | .nop t f => Sys2Proof.Machine.execNop t f s
  | .end_ t f => Sys2Proof.Machine.execEnd t f s
  | .add t f => Sys2Proof.Machine.execAdd t f s
  | .sub t f => Sys2Proof.Machine.execSub t f s
  | .and_ t f => Sys2Proof.Machine.execAnd t f s
  | .or_ t f => Sys2Proof.Machine.execOr t f s
  | .xor_ t f => Sys2Proof.Machine.execXor t f s
  | .sll t f => Sys2Proof.Machine.execSll t f s
  | .srl t f => Sys2Proof.Machine.execSrl t f s
  | .sra t f => Sys2Proof.Machine.execSra t f s
  | .mul t f => Sys2Proof.Machine.execMul t f s
  | .slt t f => Sys2Proof.Machine.execSlt t f s
  | .sltu t f => Sys2Proof.Machine.execSltu t f s
  | .min_ t f => Sys2Proof.Machine.execMin t f s
  | .max_ t f => Sys2Proof.Machine.execMax t f s
  | .li t f v => Sys2Proof.Machine.execLi t f v s
  | .ld t f => Sys2Proof.Machine.execLd t f s
  | .st t f ext => Sys2Proof.Machine.execSt t f ext s
  | .loadDataReturn t tag ext => Sys2Proof.Machine.execLoadDataReturn t tag ext s
  | .br t f => Sys2Proof.Machine.execBr t f s
  | .jal t f => Sys2Proof.Machine.execJal t f s
  | .jalr t f => Sys2Proof.Machine.execJalr t f s
  | .tcr t f => Sys2Proof.Machine.execTcr t f s
  | .tcw t f => Sys2Proof.Machine.execTcw t f s
  | .tileFaulted t => Sys2Proof.Machine.execTileFaulted t s
  | .vadd t f => Sys2Proof.Machine.execVadd t f s
  | .vsub t f => Sys2Proof.Machine.execVsub t f s
  | .vmul t f => Sys2Proof.Machine.execVmul t f s
  | .vfma t f => Sys2Proof.Machine.execVfma t f s
  | .vmin t f => Sys2Proof.Machine.execVmin t f s
  | .vmax t f => Sys2Proof.Machine.execVmax t f s
  | .vabs t f => Sys2Proof.Machine.execVabs t f s
  | .vneg t f => Sys2Proof.Machine.execVneg t f s
  | .vand t f => Sys2Proof.Machine.execVand t f s
  | .vor t f => Sys2Proof.Machine.execVor t f s
  | .vxor t f => Sys2Proof.Machine.execVxor t f s
  | .vshl t f => Sys2Proof.Machine.execVshl t f s
  | .vshr t f => Sys2Proof.Machine.execVshr t f s
  | .vcmp t f => Sys2Proof.Machine.execVcmp t f s
  | .vcvt t f => Sys2Proof.Machine.execVcvt t f s
  | .vred t f => Sys2Proof.Machine.execVred t f s
  | .vexp2 t f => Sys2Proof.Machine.execVexp2 t f s
  | .vrcp t f => Sys2Proof.Machine.execVrcp t f s
  | .vrsq t f => Sys2Proof.Machine.execVrsq t f s
  | .vld t f => Sys2Proof.Machine.execVld t f s
  | .vst t f ext => Sys2Proof.Machine.execVst t f ext s
  | .vgather t f => Sys2Proof.Machine.execVgather t f s
  | .vscatter t f => Sys2Proof.Machine.execVscatter t f s
  | .vsplat t f => Sys2Proof.Machine.execVsplat t f s
  | .vget t f => Sys2Proof.Machine.execVget t f s
  | .vmov t f => Sys2Proof.Machine.execVmov t f s
  | .plogic t f => Sys2Proof.Machine.execPlogic t f s
  | .mma t f => Sys2Proof.Machine.execMma t f s
  | .mmaEnter t => Sys2Proof.Machine.execMmaEnter t s
  | .mmaFinal t => Sys2Proof.Machine.execMmaFinal t s
  | .mmaVerdict t pass => Sys2Proof.Machine.execMmaVerdict t pass s
  | .tileRetire t => Sys2Proof.Machine.execTileRetire t s
  | .drain t f => Sys2Proof.Machine.execDrain t f s
  | .drainStart t => Sys2Proof.Machine.execDrainStart t s
  | .drainRelease t => Sys2Proof.Machine.execDrainRelease t s
  | .drainWriteDone t => Sys2Proof.Machine.execDrainWriteDone t s
  | .aroll t a => Sys2Proof.Machine.execAroll t a s
  | .injOnce t => Sys2Proof.Machine.execInjOnce t s
  | .svcMmaTest m t gate inj => Sys2Proof.Machine.execSvcMmaTest m t gate inj s
  | .svcMmaStats m t => Sys2Proof.Machine.execSvcMmaStats m t s
  | .svcTileMap m span => Sys2Proof.Machine.execSvcTileMap m span s
  | .tileStart t dis => Sys2Proof.Machine.execTileStart t dis s
  | .tileReset t dis => Sys2Proof.Machine.execTileReset t dis s
  | .tileResetDone t => Sys2Proof.Machine.execTileResetDone t s
  | .tilePreempt t dis => Sys2Proof.Machine.execTilePreempt t dis s
  | .preemptSaveDone t => Sys2Proof.Machine.execPreemptSaveDone t s
  | .tileRestore t dis => Sys2Proof.Machine.execTileRestore t dis s
  | .restoreDone t => Sys2Proof.Machine.execRestoreDone t s
  | .tileAbort t dis => Sys2Proof.Machine.execTileAbort t dis s
  | .tileDisable t dis => Sys2Proof.Machine.execTileDisable t dis s
  | .imemLoad t dst blocks => Sys2Proof.Machine.execImemLoad t dst blocks s
  | .imemLoadDone t ext => Sys2Proof.Machine.execImemLoadDone t ext s
  | .svcTileStatus m t => Sys2Proof.Machine.execSvcTileStatus m t s
  | .svcTilePreempt m t restore => Sys2Proof.Machine.execSvcTilePreempt m t restore s
  | .svcTileDisable m t on => Sys2Proof.Machine.execSvcTileDisable m t on s
  | .svcTileReset m t => Sys2Proof.Machine.execSvcTileReset m t s
  | .mov t f => Sys2Proof.Machine.execMov t f s
  | .movRetire t tag cuts ext => Sys2Proof.Machine.execMovRetire t tag cuts ext s
  | .writeResponse t tag status => Sys2Proof.Machine.execWriteResponse t tag status s
  | .fence t f => Sys2Proof.Machine.execFence t f s
  | .fenceComplete t => Sys2Proof.Machine.execFenceComplete t s
  | .ldr t f => Sys2Proof.Machine.execLdr t f s
  | .stc t f => Sys2Proof.Machine.execStc t f s
  | .stcResult t ext => Sys2Proof.Machine.execStcResult t ext s
  | .ecut t pred rd => Sys2Proof.Machine.execEcut t pred rd s
  | .epochAutoClose t => Sys2Proof.Machine.execEpochAutoClose t s
  | .sinit t f => Sys2Proof.Machine.execSinit t f s
  | .sarrive t f => Sys2Proof.Machine.execSarrive t f s
  | .swaitg t f => Sys2Proof.Machine.execSwaitg t f s
  | .sbar t f => Sys2Proof.Machine.execSbar t f s
  | .sadd t f => Sys2Proof.Machine.execSadd t f s
  | .swaitv t f => Sys2Proof.Machine.execSwaitv t f s
  | .sread t f => Sys2Proof.Machine.execSread t f s
  | .stayCounterRequest r => Sys2Proof.Machine.execStayCounterRequest r s
  | .stayAck t tag kind val status => Sys2Proof.Machine.execStayAck t tag kind val status s
  | .stayRelease t tag val status => Sys2Proof.Machine.execStayRelease t tag val status s
  | .stayWaitRetry t tag => Sys2Proof.Machine.execStayWaitRetry t tag s
  | .stayWaitProbe p => Sys2Proof.Machine.execStayWaitProbe p s
  | .stayWaitTimeout t tag => Sys2Proof.Machine.execStayWaitTimeout t tag s
  | .svcStayAlloc m n c sc kc => Sys2Proof.Machine.execSvcStayAlloc m n c sc kc s
  | .collRegister n w ext => Sys2Proof.Machine.execCollRegister n w ext s
  | .collRelease n w => Sys2Proof.Machine.execCollRelease n w s
  | .collActiveSet n w ext => Sys2Proof.Machine.execCollActiveSet n w ext s
  | .collActiveClear n w ext => Sys2Proof.Machine.execCollActiveClear n w ext s
  | .collAbort n w ext => Sys2Proof.Machine.execCollAbort n w ext s
  | .epochTaggedWrite pier dest tag a data mask pz ext => Sys2Proof.Machine.execEpochTaggedWrite pier dest tag a data mask pz ext s
  | .epochArrivalReport pier tag ext => Sys2Proof.Machine.execEpochArrivalReport pier tag ext s
  | .epochConfirmReceived tag n ext => Sys2Proof.Machine.execEpochConfirmReceived tag n ext s
  | .epochRevokeReceived tag n => Sys2Proof.Machine.execEpochRevokeReceived tag n s
  | .epochGateTimeout tag => Sys2Proof.Machine.execEpochGateTimeout tag s
  | .latDoorbell pier q w => Sys2Proof.Machine.execLatDoorbell pier q w s
  | .latSeqReread pier q ext => Sys2Proof.Machine.execLatSeqReread pier q ext s
  | .reduce pier q ext => Sys2Proof.Machine.execReduce pier q ext s
  | .iscatter pier q ext => Sys2Proof.Machine.execIscatter pier q ext s
  | .igather pier q ext => Sys2Proof.Machine.execIgather pier q ext s
  | .latFrame pier port m coll step off data poison ext => Sys2Proof.Machine.execLatFrame pier port m coll step off data poison ext s
  | .latRowArrival pier r ext => Sys2Proof.Machine.execLatRowArrival pier r ext s
  | .latDescComplete pier q status ext => Sys2Proof.Machine.execLatDescComplete pier q status ext s
  | .latPortTimeout pier q port => Sys2Proof.Machine.execLatPortTimeout pier q port s
  | .latQDisable pier q w => Sys2Proof.Machine.execLatQDisable pier q w s
  | .svcCollRegister m n id memb buf win ext => Sys2Proof.Machine.execSvcCollRegister m n id memb buf win ext s
  | .svcCollRelease m n => Sys2Proof.Machine.execSvcCollRelease m n s
  | .svcCollAbort m n => Sys2Proof.Machine.execSvcCollAbort m n s
  | .svcCollPhase m n on => Sys2Proof.Machine.execSvcCollPhase m n on s
  | .svcRevokeLog m n => Sys2Proof.Machine.execSvcRevokeLog m n s
  | .svcEpochStat m p => Sys2Proof.Machine.execSvcEpochStat m p s
  | .svcLatDisable m p q abort => Sys2Proof.Machine.execSvcLatDisable m p q abort s
  | .svcLatStats m p q => Sys2Proof.Machine.execSvcLatStats m p q s
  | .accessLinkTimeout t tag => Sys2Proof.Machine.execAccessLinkTimeout t tag s
  | .holdLimitDiscard t tag => Sys2Proof.Machine.execHoldLimitDiscard t tag s
  | .holdSend m credits => Sys2Proof.Machine.execHoldSend m credits s
  | .holdReceived m => Sys2Proof.Machine.execHoldReceived m s
  | .pdDrainTimeout d => Sys2Proof.Machine.execPdDrainTimeout d s
  | .svcRsvGran m c g => Sys2Proof.Machine.execSvcRsvGran m c g s
  | .svcOrdStats m t => Sys2Proof.Machine.execSvcOrdStats m t s
  | .svcLinkStatus m kind die port => Sys2Proof.Machine.execSvcLinkStatus m kind die port s
  | .rds a line => Sys2Proof.Machine.execRds a line s
  | .rdu a line => Sys2Proof.Machine.execRdu a line s
  | .upg a line => Sys2Proof.Machine.execUpg a line s
  | .rdo a line => Sys2Proof.Machine.execRdo a line s
  | .wru a line v mask pz => Sys2Proof.Machine.execWru a line v mask pz s
  | .wb a line v => Sys2Proof.Machine.execWb a line v s
  | .evc a line => Sys2Proof.Machine.execEvc a line s
  | .compack a line => Sys2Proof.Machine.execCompack a line s
  | .snps a line => Sys2Proof.Machine.execSnps a line s
  | .snpu a line => Sys2Proof.Machine.execSnpu a line s
  | .snpi a line => Sys2Proof.Machine.execSnpi a line s
  | .snpx a line => Sys2Proof.Machine.execSnpx a line s
  | .snpo a line => Sys2Proof.Machine.execSnpo a line s
  | .data a line => Sys2Proof.Machine.execData a line s
  | .grant a line => Sys2Proof.Machine.execGrant a line s
  | .comp a line => Sys2Proof.Machine.execComp a line s
  | .nack a line => Sys2Proof.Machine.execNack a line s
  | .nackRetry a line => Sys2Proof.Machine.execNackRetry a line s
  | .fwddata a line => Sys2Proof.Machine.execFwddata a line s
  | .rspi a line fwd v => Sys2Proof.Machine.execRspi a line fwd v s
  | .rsps a line fwd v => Sys2Proof.Machine.execRsps a line fwd v s
  | .rspo a line fwd v => Sys2Proof.Machine.execRspo a line fwd v s
  | .rspdata a line v => Sys2Proof.Machine.execRspdata a line v s
  | .wbAccepted span line => Sys2Proof.Machine.execWbAccepted span line s
  | .hostSnoop line inv => Sys2Proof.Machine.execHostSnoop line inv s
  | .hostSnoopTimeout line => Sys2Proof.Machine.execHostSnoopTimeout line s
  | .injCe home => Sys2Proof.Machine.execInjCe home s
  | .injUe home => Sys2Proof.Machine.execInjUe home s
  | .svcCohStats m h a => Sys2Proof.Machine.execSvcCohStats m h a s
  | .svcCohTest m h ce ue => Sys2Proof.Machine.execSvcCohTest m h ce ue s
  | .vebWriteback span => Sys2Proof.Machine.execVebWriteback span s
  | .clean span w => Sys2Proof.Machine.execClean span w s
  | .inval span w => Sys2Proof.Machine.execInval span w s
  | .cleanInval span w => Sys2Proof.Machine.execCleanInval span w s
  | .cmaintAbort span => Sys2Proof.Machine.execCmaintAbort span s
  | .cmaintDone span status => Sys2Proof.Machine.execCmaintDone span status s
  | .cacheDisable span => Sys2Proof.Machine.execCacheDisable span s
  | .cacheDisableDone span => Sys2Proof.Machine.execCacheDisableDone span s
  | .cacheEnable span force => Sys2Proof.Machine.execCacheEnable span force s
  | .skeinWaysWrite span n => Sys2Proof.Machine.execSkeinWaysWrite span n s
  | .svcCacheMaint m span ctl addr len status => Sys2Proof.Machine.execSvcCacheMaint m span ctl addr len status s
  | .svcSpanCacheDisable m span status => Sys2Proof.Machine.execSvcSpanCacheDisable m span status s
  | .svcSpanCacheEnable m span => Sys2Proof.Machine.execSvcSpanCacheEnable m span s
  | .svcCacheStats m span => Sys2Proof.Machine.execSvcCacheStats m span s
  | .hbmAccess line write v mask pz errs => Sys2Proof.Machine.execHbmAccess line write v mask pz errs s
  | .scrubRead sct err => Sys2Proof.Machine.execScrubRead sct err s
  | .scrubPoisonReport sct ext => Sys2Proof.Machine.execScrubPoisonReport sct ext s
  | .hbmTempReading stack temp => Sys2Proof.Machine.execHbmTempReading stack temp s
  | .hbmCoolTimeout stack => Sys2Proof.Machine.execHbmCoolTimeout stack s
  | .thrCurveWrite n w => Sys2Proof.Machine.execThrCurveWrite n w s
  | .fclassWrite n w => Sys2Proof.Machine.execFclassWrite n w s
  | .channelRetire w => Sys2Proof.Machine.execChannelRetire w s
  | .regionReform k => Sys2Proof.Machine.execRegionReform k s
  | .regionReformDone k => Sys2Proof.Machine.execRegionReformDone k s
  | .svcHbmThrottle m n w hyst => Sys2Proof.Machine.execSvcHbmThrottle m n w hyst s
  | .svcHbmScrub m w => Sys2Proof.Machine.execSvcHbmScrub m w s
  | .svcHbmStats m st k => Sys2Proof.Machine.execSvcHbmStats m st k s
  | .ageingSweep => Sys2Proof.Machine.execAgeingSweep s
  | .trDoorbell span w => Sys2Proof.Machine.execTrDoorbell span w s
  | .trestleSeqReread span => Sys2Proof.Machine.execTrestleSeqReread span s
  | .trestleLayerFetch span => Sys2Proof.Machine.execTrestleLayerFetch span s
  | .trestleLayerReady span ext => Sys2Proof.Machine.execTrestleLayerReady span ext s
  | .trestleMiss span n => Sys2Proof.Machine.execTrestleMiss span n s
  | .trestleLineRetry span n off again rep => Sys2Proof.Machine.execTrestleLineRetry span n off again rep s
  | .trestleGo span w => Sys2Proof.Machine.execTrestleGo span w s
  | .trestleDisable span w => Sys2Proof.Machine.execTrestleDisable span w s
  | .svcFarPool m w => Sys2Proof.Machine.execSvcFarPool m w s
  | .svcPoolSet m c res lim => Sys2Proof.Machine.execSvcPoolSet m c res lim s
  | .svcPoolStats m c => Sys2Proof.Machine.execSvcPoolStats m c s
  | .svcPlaceTune m w => Sys2Proof.Machine.execSvcPlaceTune m w s
  | .svcRawReserve m f n take => Sys2Proof.Machine.execSvcRawReserve m f n take s
  | .svcObjRepair m id src ext => Sys2Proof.Machine.execSvcObjRepair m id src ext s
  | .svcTrestleCfg m span win sync ways => Sys2Proof.Machine.execSvcTrestleCfg m span win sync ways s
  | .svcTrestlePost m span ring d => Sys2Proof.Machine.execSvcTrestlePost m span ring d s
  | .svcTrestleDisable m span abort => Sys2Proof.Machine.execSvcTrestleDisable m span abort s
  | .svcTrestleStats m span => Sys2Proof.Machine.execSvcTrestleStats m span s
  | .hwinProgram v => Sys2Proof.Machine.execHwinProgram v s
  | .ringEnable r w => Sys2Proof.Machine.execRingEnable r w s
  | .ringEnClear r w => Sys2Proof.Machine.execRingEnClear r w s
  | .ringDoorbell r w => Sys2Proof.Machine.execRingDoorbell r w s
  | .ringSlotRead r ext => Sys2Proof.Machine.execRingSlotRead r ext s
  | .ringSlotReread r ext => Sys2Proof.Machine.execRingSlotReread r ext s
  | .dispatchStart ext => Sys2Proof.Machine.execDispatchStart ext s
  | .marker r => Sys2Proof.Machine.execMarker r s
  | .dispatchHeadStarve r => Sys2Proof.Machine.execDispatchHeadStarve r s
  | .dispatchComplete r num => Sys2Proof.Machine.execDispatchComplete r num s
  | .ringAbort r w => Sys2Proof.Machine.execRingAbort r w s
  | .ringDisable r w => Sys2Proof.Machine.execRingDisable r w s
  | .hostLinkLoss => Sys2Proof.Machine.execHostLinkLoss s
  | .hostLinkReset => Sys2Proof.Machine.execHostLinkReset s
  | .clcEpReset w => Sys2Proof.Machine.execClcEpReset w s
  | .parkDrainTimeout => Sys2Proof.Machine.execParkDrainTimeout s
  | .parkEnter => Sys2Proof.Machine.execParkEnter s
  | .svcRingCreate m r base cpl ctl => Sys2Proof.Machine.execSvcRingCreate m r base cpl ctl s
  | .svcRingDestroy m r => Sys2Proof.Machine.execSvcRingDestroy m r s
  | .svcDispatchAbort m r seq => Sys2Proof.Machine.execSvcDispatchAbort m r seq s
  | .svcRingDisable m r abort => Sys2Proof.Machine.execSvcRingDisable m r abort s
  | .svcRingStatus m r => Sys2Proof.Machine.execSvcRingStatus m r s
  | .svcClcCfg m mode drain => Sys2Proof.Machine.execSvcClcCfg m mode drain s
  | .svcClcReset m => Sys2Proof.Machine.execSvcClcReset m s
  | .svcReattach m epoch => Sys2Proof.Machine.execSvcReattach m epoch s
  | .svcClcStatus m => Sys2Proof.Machine.execSvcClcStatus m s
  | .coreReset c w => Sys2Proof.Machine.execCoreReset c w s
  | .coreHold c w => Sys2Proof.Machine.execCoreHold c w s
  | .hartHeartbeatTimeout h => Sys2Proof.Machine.execHartHeartbeatTimeout h s
  | .lockstepMismatch => Sys2Proof.Machine.execLockstepMismatch s
  | .hartReloadDone h => Sys2Proof.Machine.execHartReloadDone h s
  | .mboxCallComplete m => Sys2Proof.Machine.execMboxCallComplete m s
  | .mboxCallTimeout m => Sys2Proof.Machine.execMboxCallTimeout m s
  | .qsExclWrite span w => Sys2Proof.Machine.execQsExclWrite span w s
  | .svcCoreStatus m c => Sys2Proof.Machine.execSvcCoreStatus m c s
  | .svcCoreReset m c w => Sys2Proof.Machine.execSvcCoreReset m c w s
  | .svcCorePower m off => Sys2Proof.Machine.execSvcCorePower m off s
  | .svcQsExclude m span w => Sys2Proof.Machine.execSvcQsExclude m span w s
  | .cldStateDone die port fa fb flits => Sys2Proof.Machine.execCldStateDone die port fa fb flits s
  | .cldStateTimeout die port flits => Sys2Proof.Machine.execCldStateTimeout die port flits s
  | .cldTrainerrorExpire die port => Sys2Proof.Machine.execCldTrainerrorExpire die port s
  | .cldRetrainRequest die port => Sys2Proof.Machine.execCldRetrainRequest die port s
  | .cldCrcFail die port flits => Sys2Proof.Machine.execCldCrcFail die port flits s
  | .cldProbationEnd die port => Sys2Proof.Machine.execCldProbationEnd die port s
  | .cldReplayWindow die port => Sys2Proof.Machine.execCldReplayWindow die port s
  | .cldL1Entry die port => Sys2Proof.Machine.execCldL1Entry die port s
  | .cldRetrain die port w => Sys2Proof.Machine.execCldRetrain die port w s
  | .clxStateDone l bad p => Sys2Proof.Machine.execClxStateDone l bad p s
  | .clxStateTimeout l => Sys2Proof.Machine.execClxStateTimeout l s
  | .clxTrainerrorExpire l => Sys2Proof.Machine.execClxTrainerrorExpire l s
  | .clxIdleTimeout l => Sys2Proof.Machine.execClxIdleTimeout l s
  | .clxFlitError l again => Sys2Proof.Machine.execClxFlitError l again s
  | .clxLaneWindow l lane n => Sys2Proof.Machine.execClxLaneWindow l lane n s
  | .clxLinkEnable l w => Sys2Proof.Machine.execClxLinkEnable l w s
  | .clxRetrain l w => Sys2Proof.Machine.execClxRetrain l w s
  | .clxLinkRetire l w => Sys2Proof.Machine.execClxLinkRetire l w s
  | .clxLaneRetire l w => Sys2Proof.Machine.execClxLaneRetire l w s
  | .routeWrite m w => Sys2Proof.Machine.execRouteWrite m w s
  | .lostClear n w => Sys2Proof.Machine.execLostClear n w s
  | .upNotice m => Sys2Proof.Machine.execUpNotice m s
  | .stayForward pier cls dest kind hops args => Sys2Proof.Machine.execStayForward pier cls dest kind hops args s
  | .stayForwardTimeout dest => Sys2Proof.Machine.execStayForwardTimeout dest s
  | .svcLinkRoute m dest w hop => Sys2Proof.Machine.execSvcLinkRoute m dest w hop s
  | .svcLinkRetrain m cld k j => Sys2Proof.Machine.execSvcLinkRetrain m cld k j s
  | .svcLinkEnable m l en => Sys2Proof.Machine.execSvcLinkEnable m l en s
  | .svcLinkTest m die port width => Sys2Proof.Machine.execSvcLinkTest m die port width s
  | .powerEstimate raw => Sys2Proof.Machine.execPowerEstimate raw s
  | .guardStep => Sys2Proof.Machine.execGuardStep s
  | .tensionRecalibrate meas => Sys2Proof.Machine.execTensionRecalibrate meas s
  | .tensionControlStep acs kcs => Sys2Proof.Machine.execTensionControlStep acs kcs s
  | .capDeferExpire => Sys2Proof.Machine.execCapDeferExpire s
  | .voltageRampDone u => Sys2Proof.Machine.execVoltageRampDone u s
  | .pllLockDone u => Sys2Proof.Machine.execPllLockDone u s
  | .droopTrip span => Sys2Proof.Machine.execDroopTrip span s
  | .droopQuiet span full => Sys2Proof.Machine.execDroopQuiet span full s
  | .freqChangeAbandon u => Sys2Proof.Machine.execFreqChangeAbandon u s
  | .vrAlertAssert ext => Sys2Proof.Machine.execVrAlertAssert ext s
  | .vrAlertRelease => Sys2Proof.Machine.execVrAlertRelease s
  | .tempSensorRead u temp => Sys2Proof.Machine.execTempSensorRead u temp s
  | .refClockLoss => Sys2Proof.Machine.execRefClockLoss s
  | .refHoldExpire => Sys2Proof.Machine.execRefHoldExpire s
  | .userCapWrite w => Sys2Proof.Machine.execUserCapWrite w s
  | .targetWrite span w => Sys2Proof.Machine.execTargetWrite span w s
  | .vfCurveWrite span n w => Sys2Proof.Machine.execVfCurveWrite span n w s
  | .tileGroupPower span w => Sys2Proof.Machine.execTileGroupPower span w s
  | .coreGroupPower w => Sys2Proof.Machine.execCoreGroupPower w s
  | .pierDomainPower w => Sys2Proof.Machine.execPierDomainPower w s
  | .domainWakeDone d => Sys2Proof.Machine.execDomainWakeDone d s
  | .tileGroupIdleOff span g => Sys2Proof.Machine.execTileGroupIdleOff span g s
  | .svcPwrCap m w => Sys2Proof.Machine.execSvcPwrCap m w s
  | .svcPdSet m span off => Sys2Proof.Machine.execSvcPdSet m span off s
  | .svcPwrStats m span => Sys2Proof.Machine.execSvcPwrStats m span s
  | .retireBucketLeak row unit => Sys2Proof.Machine.execRetireBucketLeak row unit s
  | .retireTblWrite row w => Sys2Proof.Machine.execRetireTblWrite row w s
  | .coreRetire w => Sys2Proof.Machine.execCoreRetire w s
  | .contReq w => Sys2Proof.Machine.execContReq w s
  | .containmentFlush recalled => Sys2Proof.Machine.execContainmentFlush recalled s
  | .hostRecallTimeout => Sys2Proof.Machine.execHostRecallTimeout s
  | .containmentSelftestDone fails => Sys2Proof.Machine.execContainmentSelftestDone fails s
  | .containmentDone => Sys2Proof.Machine.execContainmentDone s
  | .contResume w => Sys2Proof.Machine.execContResume w s
  | .gaugeDue g => Sys2Proof.Machine.execGaugeDue g s
  | .gaugeDeferExpire g => Sys2Proof.Machine.execGaugeDeferExpire g s
  | .gaugeOverdue g => Sys2Proof.Machine.execGaugeOverdue g s
  | .gaugeTestDone g pass low => Sys2Proof.Machine.execGaugeTestDone g pass low s
  | .gaugeReq w => Sys2Proof.Machine.execGaugeReq w s
  | .svcErrLog m n unit => Sys2Proof.Machine.execSvcErrLog m n unit s
  | .svcErrClear m unit w => Sys2Proof.Machine.execSvcErrClear m unit w s
  | .svcRetireTbl m row set => Sys2Proof.Machine.execSvcRetireTbl m row set s
  | .svcGaugeCfg m w => Sys2Proof.Machine.execSvcGaugeCfg m w s
  | .svcGaugeRun m w => Sys2Proof.Machine.execSvcGaugeRun m w s
  | .svcContTest m => Sys2Proof.Machine.execSvcContTest m s
  | .svcRasResume m => Sys2Proof.Machine.execSvcRasResume m s
  | .svcRasStatus m => Sys2Proof.Machine.execSvcRasStatus m s
  | .svcGaugeStatus m => Sys2Proof.Machine.execSvcGaugeStatus m s
  | .settingsStore w => Sys2Proof.Machine.execSettingsStore w s
  | .settingsCommitDone => Sys2Proof.Machine.execSettingsCommitDone s
  | .settingsDefault w => Sys2Proof.Machine.execSettingsDefault w s
  | .bootSelect w => Sys2Proof.Machine.execBootSelect w s
  | .bootConfirm w => Sys2Proof.Machine.execBootConfirm w s
  | .trialExpire => Sys2Proof.Machine.execTrialExpire s
  | .castoff w => Sys2Proof.Machine.execCastoff w s
  | .castoffDrainTimeout => Sys2Proof.Machine.execCastoffDrainTimeout s
  | .castoffDone => Sys2Proof.Machine.execCastoffDone s
  | .bootModReset w => Sys2Proof.Machine.execBootModReset w s
  | .bootRecovery w => Sys2Proof.Machine.execBootRecovery w s
  | .castOnStageDone v puf fails => Sys2Proof.Machine.execCastOnStageDone v puf fails s
  | .castOnTimeout => Sys2Proof.Machine.execCastOnTimeout s
  | .aliasKeyReady => Sys2Proof.Machine.execAliasKeyReady s
  | .svcSettingsStore m => Sys2Proof.Machine.execSvcSettingsStore m s
  | .svcSettingsDefault m => Sys2Proof.Machine.execSvcSettingsDefault m s
  | .svcImageWrite m slot first last set => Sys2Proof.Machine.execSvcImageWrite m slot first last set s
  | .svcImageSelect m slot => Sys2Proof.Machine.execSvcImageSelect m slot s
  | .svcImageConfirm m => Sys2Proof.Machine.execSvcImageConfirm m s
  | .svcBootStatus m => Sys2Proof.Machine.execSvcBootStatus m s
  | .svcModReset m rcvy => Sys2Proof.Machine.execSvcModReset m rcvy s
  | .svcCastoff m => Sys2Proof.Machine.execSvcCastoff m s
  | .svcIdStatus m => Sys2Proof.Machine.execSvcIdStatus m s
  | .svcBoardStatus m => Sys2Proof.Machine.execSvcBoardStatus m s
  | .mctpControlMsg cmd eid => Sys2Proof.Machine.execMctpControlMsg cmd eid s
  | .mctpVendorMsg code => Sys2Proof.Machine.execMctpVendorMsg code s
  | .getVersion => Sys2Proof.Machine.execGetVersion s
  | .getCapabilities => Sys2Proof.Machine.execGetCapabilities s
  | .negotiateAlgorithms asym hash => Sys2Proof.Machine.execNegotiateAlgorithms asym hash s
  | .getDigests => Sys2Proof.Machine.execGetDigests s
  | .getCertificate slot => Sys2Proof.Machine.execGetCertificate slot s
  | .challenge slot => Sys2Proof.Machine.execChallenge slot s
  | .getMeasurements idx sign => Sys2Proof.Machine.execGetMeasurements idx sign s
  | .refClockReturn => Sys2Proof.Machine.execRefClockReturn s
  | .refClockStable => Sys2Proof.Machine.execRefClockStable s
  | .pwrGoodResetDelayExpire => Sys2Proof.Machine.execPwrGoodResetDelayExpire s
  | .pwrEnLowHoldExpire => Sys2Proof.Machine.execPwrEnLowHoldExpire s
  | .hostLinkTrained cxl lanes => Sys2Proof.Machine.execHostLinkTrained cxl lanes s
  | .hostResponseAtFarHome line wr data pz err => Sys2Proof.Machine.execHostResponseAtFarHome line wr data pz err s
  | .winHoldExpire line => Sys2Proof.Machine.execWinHoldExpire line s
  | .tileAbortDone t => Sys2Proof.Machine.execTileAbortDone t s
  | .coreResetDone c => Sys2Proof.Machine.execCoreResetDone c s

end Sys2Proof.Machine
end

