-- ==== Sys2Proof/Machine/Tick.lean ====
section
/-!
DEFINITION. Machine/Tick.lean: the free-running counters (R23, R113, R286, R310, R425) and what homes and KMH2 do by themselves over one FC cycle, which is what a step does
when no command waits.
-/

namespace Sys2Proof.Machine

/-- The AC counter of a Span over one FC cycle: its edges come at EFF_MHZ against the 1,600 MHz of FC. At
each the tiles of the Span whose MMA waits count it in BANK_STALL (R113). -/
def tickSpan (s : State) (p : Nat) : State :=
  let s := s.wrapInc .SPAN_FC_CNT [p] ⟨63, 0⟩ 1
  let acc := mget 0 s.clk.acAcc p + s.fld .SPAN_PWR_STAT [p] SPAN_PWR_STAT.EFF_MHZ
  let s := { s with clk := { s.clk with acAcc := mset 0 s.clk.acAcc p (acc % 1600) } }
  if acc < 1600 then s
  else
    let s := s.wrapInc .SPAN_AC_CNT [p] ⟨63, 0⟩ 1
    let s := (s.tiles.filter (fun q => q.1 / 64 == p && bankStalled q.2 (s.rd .SPAN_AC_CNT [p]))).foldl (fun s q =>
      s.wrapInc .TILE_MMA_PERF (tix q.1) TILE_MMA_PERF.BANK_STALL 1) s
    if s.bit .SPAN_PWR_STAT [p] SPAN_PWR_STAT.DROOP_ACT then s.wrapInc .SPAN_DROOP_STAT [p] SPAN_DROOP_STAT.STRETCH_CYC 1
    else s

/-- A microsecond of throttling counted at a stack. -/
def tickHbm (s : State) (st : Nat) : State :=
  if s.fld .HBM_STK_STAT [st] HBM_STK_STAT.SHARE_M1 < 63 then s.wrapInc .HBM_THR_STAT [st] HBM_THR_STAT.THR_US 1 else s

/-- KMH2 retires the cores whose row of the retire table has reached its threshold (R446). -/
def coresRetire (s : State) : State :=
  if hartRuns s 2 then
    s.ras.coreRetiring.foldl retireCore { s with ras := { s.ras with coreRetiring := [] } }
  else s

/-- What the links do by themselves over one FC cycle: buckets that have moved take messages again (R392), Stay messages
whose switch waited leave (R405), and frames leave as their channels get credits (R399). -/
def linksTick (s : State) : State :=
  let s := bundleTick s
  let s := if s.stay.held.isEmpty then s else stayFlush s
  (s.links.vc.map (·.1)).foldl vcGo s

/-- One FC cycle of a module whose clocks run: the counters go on, and a home closes the transactions of the WBs and EvCs
that came in it (R264). -/
def tick (s : State) : State :=
  if !s.up then s
  else
    let s := { s with clk := { s.clk with fc := s.clk.fc + 1 } }
    let s := s.wrapInc .KST_FC_CNT [] ⟨63, 0⟩ 1
    let s := (List.range 8).foldl tickSpan s
    let s := s.mem.vebStall.foldl (fun s p => s.wrapInc .SPAN_CACHE_PERF [p] SPAN_CACHE_PERF.VEB_FULL_STALL 1) s
    let s := coresRetire (closeWbs s)
    let s := linksTick s
    let s := if s.live && hartRuns s 3 && !s.lat.owed.isEmpty then latPay s else s
    let s := (List.range s.asm.piers).foldl (fun s p => s.wrapInc .PIER_FC_CNT [p] ⟨63, 0⟩ 1) s
    if s.clk.fc % fcUs = 0 then (List.range s.asm.stacks).foldl tickHbm s else s

end Sys2Proof.Machine
end

