-- ==== Sys2Proof/Safety.lean ====
section
/-!
DEFINITION. Safety.lean: the terms in which statements speak of a run: what it is to be answered, what a command
leaves alone, and the canonical form of memory.
-/

namespace Sys2Proof.Machine

/-- The command `i` at `s` is answered with a next state of which `P` holds. -/
def Answers (i : Instr) (s : State) (P : State → Prop) : Prop := ∃ u, exec i s = .next u ∧ P u

/-- The command is answered with a next state reached from one of which `P` holds by fetch going on in tile `t`. -/
def AnswersAt (i : Instr) (s : State) (t : Nat) (P : State → Prop) : Prop :=
  ∃ v, exec i s = .next (settle v t) ∧ P v

/-- The command is answered with the state that the operation `g` makes of one of which `P` holds. -/
def AnswersBy (g : State → State) (i : Instr) (s : State) (P : State → Prop) : Prop := ∃ v, exec i s = .next (g v) ∧ P v

/-- A step that neither faults nor is refused. -/
def Safe (s : State) : Prop := ∃ u, step s = .next u

/-- Nothing waits for the clock but the counters: no write back or eviction notice is open at a home (R264), no core is to
be retired (R446), no bucket moves (R392), no Stay message or frame waits to leave (R399, R405), no Lattice completion is
owed (R231), and what waits for an eviction buffer is a Span (R286). -/
def Still (s : State) : Prop :=
  (∀ p ∈ s.mem.txns, p.2.k ≠ .wb ∧ p.2.k ≠ .evc) ∧ s.ras.coreRetiring = [] ∧ s.links.dold = [] ∧ s.stay.held = [] ∧
  s.links.vc = [] ∧ s.lat.owed = [] ∧ ∀ p ∈ s.mem.vebStall, p < 8

/-- Every register outside the addresses `as` is as before. -/
def RegsKept (as : List Nat) (s u : State) : Prop := ∀ a, a ∉ as → mfind u.regs a = mfind s.regs a

/-- Every byte of HBM, of tile memory and of instruction memory reads as before. -/
def MemKept (s u : State) : Prop :=
  (∀ p, hbmByte u p = hbmByte s p) ∧
  (∀ t a, mget 0 (u.tile t).mem a = mget 0 (s.tile t).mem a) ∧
  (∀ t a, mget 0 (u.tile t).imem a = mget 0 (s.tile t).imem a)

/-- What a program of the tile has: its registers, memories, banks and stochastic draws are as before. -/
def Tile.SameData (x y : Tile) : Prop :=
  y.sregs = x.sregs ∧ y.vregs = x.vregs ∧ y.pregs = x.pregs ∧ y.mem = x.mem ∧ y.poison = x.poison ∧
  y.badMem = x.badMem ∧ y.imem = x.imem ∧ y.badImem = x.badImem ∧ y.acc0 = x.acc0 ∧ y.acc1 = x.acc1 ∧
  y.com0 = x.com0 ∧ y.com1 = x.com1 ∧ y.srLeft = x.srLeft

/-- A register in which an exception of tile `t` is recorded (R137), or TILE_EPOCH of a tile (R193, R194). -/
def ExcReg (t a : Nat) : Prop :=
  a = regAddr .TILE_EXC (tix t) ∨ a = regAddr .TILE_EXC_ADDR (tix t) ∨ ∃ k, a = regAddr .TILE_EPOCH (tix k)

/-- What an instruction of tile `t` leaves alone: the other tiles, HBM with its caches, and every part of the module
but the registers, the epochs, what is sent out and the Stay network; and every register but those listed and those
that an exception of a later instruction or the closing of the epoch writes. -/
def TileOnly (t : Nat) (as : List Nat) (s u : State) : Prop :=
  (∀ k, k ≠ t → u.tile k = s.tile k) ∧
  u = { s with
    regs := u.regs, tiles := u.tiles, epochs := u.epochs, out := u.out, stay := u.stay,
    links := { s.links with stayOn := u.links.stayOn } } ∧
  ∀ a, a ∉ as → ¬ ExcReg t a → mfind u.regs a = mfind s.regs a

/-- The flags of the active lanes together. -/
def laneFlags (n bits : Nat) (p : BitVec 512) (g : Nat → Nat × FFlags) : FFlags :=
  (List.range n).foldl (fun a i => if activeAt p bits i then a.or (g i).2 else a) FFlags.none

/-- What a set of format flags adds to TILE_FMT_FLAGS: the sticky bits and the D_ bits (R89). -/
def flagBits (f : FFlags) : Nat := (b2n f.ovf + 2 * b2n f.unf + 4 * b2n f.inv) * 257

/-- The canonical form of a byte memory: addresses strictly rising, no byte equal to what an unlisted one reads. -/
def Memory.wf (m : List (Nat × BitVec 8)) : Bool := mwf 0 m

/-- The tile after its head instruction has left its queue, fetch going on at `target` (none: at the next word). -/
def resumeAt (s : State) (t : Nat) (target : Option Nat) : State :=
  let s := popHead s t .scalar
  let x := s.tile t
  settle (s.setTile t { x with pc := target.getD x.pc, fetchHold := false }) t

/-- What a load through a pointer, `e` of stream `m`, does by the answer of its checks (R155, R189): it leaves its stream and
waits for its data, raises an exception or is held. -/
def LoadLeaves (i : Instr) (s : State) (t m : Nat) (e : QEnt) (r : MemR) (p : BitVec 64) (mask : BitVec 512)
    (val : BitVec 64) : Prop :=
  match r with
  | .done s2 => AnswersAt i s t (fun v => (v.tile t).loads = (s2.tile t).loads ++ [⟨e.tag, e.pc, e.w0, p, mask, val, []⟩] ∧
      v.mem = s2.mem ∧ v.regs = s2.regs ∧ v.out = s2.out)
  | .exc s2 c a => exec i s = .next (faultAt s s2 t m e c a)
  | .wait => exec i s = .next s
  | .nack ps => exec i s = .next (ptrNack s t true ps)

/-- The comparison of BR by FUNC (R156): EQ, NE, LT, GE, LTU, GEU. -/
def branchTaken (func : Nat) (a b : BitVec 64) : Prop :=
  (func = 0 ∧ a = b) ∨ (func = 1 ∧ a ≠ b) ∨ (func = 2 ∧ a.toInt < b.toInt) ∨ (func = 3 ∧ b.toInt ≤ a.toInt) ∨
  (func = 4 ∧ a.toNat < b.toNat) ∨ (func = 5 ∧ b.toNat ≤ a.toNat)

/-- A target that raises FETCH_FAULT (R156). -/
def badTarget (a : BitVec 64) : Prop := a.toNat % 8 ≠ 0 ∨ 0x20000 ≤ a.toNat

/-- The register that TCR reads at an index and the index set of it (R158); TILE_ID is no register. -/
def tcReg (t i : Nat) : Option (RegId × List Nat) :=
  if i < 16 then some (.FMT_DESC, tix t ++ [i])
  else if i < 32 then some (.TILE_AMAX, tix t ++ [i - 16])
  else if i = 0x20 then some (.TILE_FMT_CTL, tix t)
  else if i = 0x21 then some (.TILE_SR_SEED, tix t)
  else if i = 0x22 then some (.TILE_FMT_FLAGS, tix t)
  else if i = 0x23 then some (.TILE_MMA_STAT, tix t)
  else if i = 0x24 then some (.TILE_MMA_PERF, tix t)
  else if i = 0x25 then some (.TILE_MMA_KSTEP, tix t)
  else if i = 0x26 then some (.SPAN_AC_CNT, [t / 64])
  else none

/-- The condition of VCMP on two elements of a slot under FUNC: 0 EQ, 1 NE, 2 LT, 3 LE (R168, R71). -/
def compareElem (d : SlotDesc) (func a b : Nat) : Bool :=
  if d.slot = 14 then
    let x : Int := (BitVec.ofNat 32 a).toInt
    let y : Int := (BitVec.ofNat 32 b).toInt
    (func == 0 && decide (x = y)) || (func == 1 && decide (x ≠ y)) || (func == 2 && decide (x < y)) ||
      (func == 3 && decide (x ≤ y))
  else match floatFmt d.slot d.desc with
    | some ff => cmpF func (ff.decode a) (ff.decode b)
    | none => false

/-- Whether an element of a floating-point slot is a signalling NaN. -/
def signalElem (d : SlotDesc) (a : Nat) : Bool :=
  match floatFmt d.slot d.desc with
  | some ff => (ff.decode a).isSig
  | none => false

/-- The value at place `i` of level `n` of a pairwise tree over its leaves (R172). -/
def treeAt {α : Type} (g : α → α → α) (leaf : Nat → α) : Nat → Nat → α
  | 0, i => leaf i
  | n + 1, i => g (treeAt g leaf n (2 * i)) (treeAt g leaf n (2 * i + 1))

/-- What VRED takes for an inactive element (R172): +0 for ADD; the least value for MAX, the greatest for MIN. -/
def redIdle (fmt func : Nat) : Nat :=
  if func = 0 then 0
  else if fmt = 14 then (if func = 1 then 0x80000000 else 0x7FFFFFFF)
  else if fmt = 1 then (if func = 1 then 0xFF800000 else 0x7F800000)
  else (if func = 1 then 0xFFF0000000000000 else 0x7FF0000000000000)

/-- The byte that runs of bytes leave at an offset, the last one remaining; none where none touches it. -/
def runByte (l : List (Nat × List (BitVec 8))) (a : Nat) : Option (BitVec 8) :=
  (l.filterMap (fun p => if p.1 ≤ a ∧ a < p.1 + p.2.length then p.2[a - p.1]? else none)).getLast?

/-- The tile-memory lines that `n` bytes from offset `a` touch. -/
def touches (a n l : Nat) : Prop := a < 128 * (l + 1) ∧ 128 * l < a + n

/-! The tables of statements: the instructions of one shape with what each computes. -/

/-- The scalar arithmetic instructions with opcode and result (R154). -/
def scalarOps : List ((Nat → InsS → Instr) × Nat × (BitVec 64 → BitVec 64 → BitVec 64)) :=
  [(.add, 0x02, fun a b => a + b), (.sub, 0x03, fun a b => a - b), (.and_, 0x04, fun a b => a &&& b),
   (.or_, 0x05, fun a b => a ||| b), (.xor_, 0x06, fun a b => a ^^^ b),
   (.sll, 0x07, fun a b => a <<< (b.toNat % 64)), (.srl, 0x08, fun a b => a >>> (b.toNat % 64)),
   (.sra, 0x09, fun a b => a.sshiftRight (b.toNat % 64)), (.mul, 0x0A, fun a b => a * b),
   (.slt, 0x0B, fun a b => if a.toInt < b.toInt then 1 else 0),
   (.sltu, 0x0C, fun a b => if a.toNat < b.toNat then 1 else 0),
   (.min_, 0x0D, fun a b => if a.toInt < b.toInt then a else b),
   (.max_, 0x0E, fun a b => if a.toInt < b.toInt then b else a)]

/-- The element-wise vector instructions with their opcodes (R166). -/
def elementOps : List ((Nat → InsV → Instr) × Nat) :=
  [(.vadd, 0x40), (.vsub, 0x41), (.vmul, 0x42), (.vfma, 0x43), (.vmin, 0x44), (.vmax, 0x45), (.vabs, 0x46),
   (.vneg, 0x47), (.vand, 0x48), (.vor, 0x49), (.vxor, 0x4A), (.vshl, 0x4B), (.vshr, 0x4C)]

/-- The slots each accepts: FP64, FP32 and INT32; VFMA no INT32, the bitwise and shift ones INT32 alone (R166). -/
def elementSlots (opc : Nat) : List Nat :=
  if opc = 0x43 then [0, 1] else if 0x48 ≤ opc then [14] else [0, 1, 14]

/-- The INT32 result of an element-wise instruction on two elements (R167): saturating arithmetic with its overflow
flag, or an operation on bit patterns without one. -/
def int32Result (opc a b : Nat) : Nat × FFlags :=
  let x : Int := (BitVec.ofNat 32 a).toInt
  let y : Int := (BitVec.ofNat 32 b).toInt
  let sat (v : Int) : Nat × FFlags :=
    if v < -2147483648 then (0x80000000, ⟨true, false, false⟩)
    else if 2147483647 < v then (0x7FFFFFFF, ⟨true, false, false⟩)
    else ((BitVec.ofInt 32 v).toNat, ⟨false, false, false⟩)
  let bits (v : BitVec 32) : Nat × FFlags := (v.toNat, ⟨false, false, false⟩)
  let p : BitVec 32 := BitVec.ofNat 32 a
  let q : BitVec 32 := BitVec.ofNat 32 b
  match opc with
  | 0x40 => sat (x + y)
  | 0x41 => sat (x - y)
  | 0x42 => sat (x * y)
  | 0x44 => bits (BitVec.ofInt 32 (min x y))
  | 0x45 => bits (BitVec.ofInt 32 (max x y))
  | 0x46 => sat (if x < 0 then -x else x)
  | 0x47 => sat (-x)
  | 0x48 => bits (p &&& q)
  | 0x49 => bits (p ||| q)
  | 0x4A => bits (p ^^^ q)
  | 0x4B => bits (p <<< (b % 32))
  | _ => bits (p.sshiftRight (b % 32))

/-- Two partial results of VRED joined, with the flags of both (R172): FUNC 0 ADD, 1 MAX, else MIN. -/
def redJoin (d : SlotDesc) (func : Nat) (p q : Nat × FFlags) : Nat × FFlags :=
  let opc := if func = 0 then 0x40 else if func = 1 then 0x45 else 0x44
  let r := if d.slot = 14 then int32Result opc p.1 q.1 else ewFloat opc d p.1 q.1 0
  (r.1, (p.2.or q.2).or r.2)

/-- The table functions with opcode and function (R173). -/
def tableOps : List ((Nat → InsV → Instr) × Nat × (SlotDesc → Nat → Nat × FFlags)) :=
  [(.vexp2, 0x50, vexp2), (.vrcp, 0x51, vrcp), (.vrsq, 0x52, vrsq)]

/-- The Stay instructions with their opcodes (R198). -/
def stayOps : List ((Nat → InsStay → Instr) × Nat) :=
  [(.sinit, 0xD0), (.sarrive, 0xD1), (.swaitg, 0xD2), (.sbar, 0xD3), (.sadd, 0xD4), (.swaitv, 0xD5), (.sread, 0xD6)]

/-- Whether a Stay instruction of an opcode waits (R199). -/
def stayWaits (opc : Nat) : Bool := opc == 0xD2 || opc == 0xD3 || opc == 0xD5

/-- Whether it begins with a fence (R199): a signalling one whose FS is not 0. -/
def stayFenced (opc : Nat) (f : InsStay) (e : QEnt) : Prop :=
  f.fs ≠ 0 ∧ (opc = 0xD1 ∨ opc = 0xD4 ∨ (opc = 0xD3 ∧ e.arrived = none))

/-- A Stay message has left on link `l` (R405). -/
def stayGone (s : State) (x : StayMsg) (l : Nat) : State :=
  { s with
    out := s.out ++ [.stay x.cls x.dest l x.hops x.kind x.args]
    links := { s.links with stayOn := mins s.links.stayOn x.dest (l, s.clk.fc) } }

/-- A Stay message to a module can leave on link `l` at once (R405): the module is routed and not lost, no message to it is
held, and no switch of links must wait. -/
def StayOpen (s : State) (m l : Nat) : Prop :=
  stayRouted s m = true ∧ peerLost s m = false ∧ (∀ y ∈ s.stay.held, y.dest ≠ m) ∧ stayLink s m = some l

/-- A registration has been stopped (R215): it reads FAILED, no wait remains at a counter of its window and every other one
does, its running Lattice descriptors end with UNREACHABLE, and what each queue has posted is marked. -/
def CollStopped (s : State) (n : Nat) (u : State) : Prop :=
  let win := s.rd .KST_COLL_WIN [n]
  let cid := s.fld .KST_COLL_ID [n] KST_COLL_ID.COLL_ID
  u.fld .KST_COLL_ID [n] KST_COLL_ID.FAILED = 1 ∧
  (∀ q ∈ u.stay.waits, winCovers win q.home q.idx = false) ∧
  (∀ q ∈ s.stay.waits, winCovers win q.home q.idx = false → q ∈ u.stay.waits) ∧
  (∀ pier q r, (s.latQ pier q).run = some r → latCollId r.words = cid →
    (u.latQ pier q).run = some { r with stat := statFold r.stat 0x03, fin := true }) ∧
  ∀ p ∈ s.lat.qs, (cid, (p.1, p.2.posted)) ∈ u.stay.cuts

/-- The index-driven kinds of the Lattice with their KIND (R229, R230). -/
def rowKinds : List ((Nat → Nat → Ext → Instr) × Nat) := [(.iscatter, 2), (.igather, 3)]

/-- A Stay operation of a tile has ended (R198, R199): RD holds VALUE and STATUS, the status of its fence taking STATUS
when it is not OK, and its record is gone. -/
def StayEnded (x : Tile) (q : StayRec) (val stat : Nat) (y : Tile) : Prop :=
  (∀ n, y.s n = if n = (decStay q.w0).rd.toNat then
    BitVec.ofNat 64 (val % 2 ^ 32 + (if q.fstat ≠ 0 then q.fstat else stat) % 256 * 2 ^ 32) else x.s n) ∧
  y.stays = x.stays.filter (fun p => p.tag != q.tag) ∧ y.mem = x.mem

/-! Coherence. -/

/-- An agent may put a request to the home of a line (R258, R264, R267): it waits for none on that line, neither its
eviction buffer nor a transaction of its own holds it. -/
def ReqReady (s : State) (a line : Nat) : Prop :=
  s.live = true ∧ agentOk s a = true ∧ (a < 8 → vebFind s a line = none) ∧ findReq s a line = none ∧
  ∀ t, mfind s.mem.txns line = some t → t.req = a → t.evict.isSome = true ∨ t.k = .wb ∨ t.k = .evc

/-- An agent issues a request in a state in which it needs it (R258): RdU from I or S, Upg from S or O, the others from I; a
Pier I/O agent takes a line only for read-modify-write work, and at most 64; what the host holds is its own. -/
def MayIssue (s : State) (k : MsgK) (a line : Nat) : Prop :=
  let idle := agentLine s a line = none
  a = 73 ∨ (k = .rds ∧ idle ∧ a < 74) ∨ ((k = .rdo ∨ k = .wru) ∧ idle) ∨
    (k = .rdu ∧ (idle ∨ ∃ c, agentLine s a line = some c ∧ c.st = 1) ∧ (a < 74 ∨ (agentLines s a).length < 64)) ∨
    (k = .upg ∧ ∃ c, agentLine s a line = some c ∧ (c.st = 1 ∨ c.st = 3))

/-- A snoop sent to each of several agents. -/
def snoopAll (s : State) (q : MsgK) (a line : Nat) (l : List Nat) : State :=
  l.foldl (fun s b => sendNet s (msg q b line a noLine)) s

/-- The requests without data of their own, with their kinds (R258). -/
def reqOps : List ((Nat → Nat → Instr) × MsgK) := [(.rds, .rds), (.rdu, .rdu), (.upg, .upg), (.rdo, .rdo)]

/-- The snoops with their kinds (R258). -/
def snoopOps : List ((Nat → Nat → Instr) × MsgK) :=
  [(.snps, .snps), (.snpu, .snpu), (.snpi, .snpi), (.snpx, .snpx), (.snpo, .snpo)]

/-- The responses that carry no data with their kinds (R258). -/
def respOps : List ((Nat → Nat → Bool → BitVec 1024 → Instr) × MsgK) :=
  [(.rspi, .rspi), (.rsps, .rsps), (.rspo, .rspo)]

/-- A transaction after the answer `m` of an agent (R262, R263, R277). -/
def Txn.answered (t : Txn) (s : State) (k : MsgK) (a line : Nat) (m : CohMsg) : Txn :=
  { t with
    wait := t.wait.erase a
    fwd := t.fwd || m.fwd
    after := if (match mfind s.mem.dirs line with | some d => decide (2 ≤ d.st) && d.owner == a | none => false) then m.arg
      else t.after
    back := if k = .rspdata then some m.v else t.back
    wbWait := if m.wbSent = true ∧ a ∉ t.wbGot then some a else t.wbWait }

/-- What the home does with an answer: it waits for the others and for a WB under way, or the transaction goes on (R262,
R263). -/
def afterAnswer (s : State) (line : Nat) (t : Txn) : State :=
  if t.wait = [] ∧ t.wbWait = none then finishTxn (putTxn s line (some t)) line t else putTxn s line (some t)

/-- What an agent of the module holds of a line, its array having no error: a copy in a cache that is looked up. -/
def HoldsLine (s : State) (a line : Nat) (c : CLine) : Prop :=
  agentLine s a line = some c ∧ mfind s.mem.cacheErr (lineKey a line) = none ∧
    (8 ≤ a ∨ s.bit .SPAN_CACHE_CTL [a] SPAN_CACHE_CTL.EN = true)

/-- The answer of a holder in state `st` with data `v` to a snoop `m` (R259, R262): data goes to the requester, under SnpX
back to the home, and the state kept to the home. -/
def snoopAnswer (k : MsgK) (a line : Nat) (m : CohMsg) (st : Nat) (v : LineVal) : List CohMsg :=
  let n := snoopNext k st
  let gives := snoopGives k st
  let g := if k = .snps then 1 else if k = .snpu then (if 3 ≤ st then 4 else 2) else 0
  let kind : MsgK := if k = .snpx ∧ gives then .rspdata else if afterCode n = 0 then .rspi
    else if afterCode n = 1 then .rsps else .rspo
  (if gives ∧ k ≠ .snpx then [msg .fwddata m.arg line g v] else []) ++
    [{ msg kind a line (afterCode n) (if gives then v else noLine) with fwd := decide (gives ∧ k ≠ .snpx) }]

/-! Caches and HBM. -/

/-- The maintenance operations with their OP (R287). -/
def maintOps : List ((Nat → BitVec 64 → Instr) × Nat) := [(.clean, 1), (.inval, 2), (.cleanInval, 3)]

/-- The word of SPAN_CMAINT_CTL that such a command writes: OP, GO and no ABORT. -/
def maintWord (op : Nat) (w : BitVec 64) : Nat :=
  fput (fput (fput w.toNat SPAN_CMAINT_CTL.OP op) SPAN_CMAINT_CTL.GO 1) SPAN_CMAINT_CTL.ABORT 0

/-- The codeword that holds a sector under its frame's class (R304, R305). -/
def codewordOf (s : State) (sct : Nat) : List Nat :=
  if frameC s (frameOf s (sct * 32)) then [sct / 2 * 2, sct / 2 * 2 + 1] else [sct]

/-- The ages after a sweep (R322): a page whose activity bit is set has age 0, another one is a sweep older. -/
def agedPage (acts : List Nat) (s : State) (p : Nat) : State :=
  let e := ptEntry s p
  let age := if acts.contains (pageAct p e) then 0 else min 255 (peAge e + 1)
  let s := if age = peAge e then s else setEntry s p (entPut e 27 20 age)
  { s with mem := { s.mem with act := sdel s.mem.act (pageAct p e) } }

/-- A counter field that holds `v` and counts `n` more stops at its largest value. -/
def satAdd (f : Fld) (v n : Nat) : Nat := min (2 ^ (f.hi + 1 - f.lo) - 1) (v + n)

/-- The next slot of a Trestle ring is a layer in flight, with a status, or 0 while it is to be fetched (R341, R349). -/
def LayerAdded (x y : TrSpan) (ws : List (BitVec 64)) (stat : Nat) : Prop :=
  y = { x with started := x.started + 1, tries := 0, next := x.next + 1,
               run := x.run ++ [⟨x.next, ws, stat, false, false, []⟩] }

/-- A ring, as it was when its slot at HEAD was read, after that slot. -/
def slotPassed (s : State) (x : Ring) (r : Nat) : State := s.setRing r { s.ring r with read := x.read + 1, tries := 0 }

/-! Service calls (R28, R382 to R385). -/

/-- The call `c` of mailbox `m` with this code is next: firmware serves the mailbox and the calls before it have begun. -/
def CallReady (s : State) (m code : Nat) (c : Call) : Prop :=
  callOf s m = some c ∧ c.begun = false ∧ c.code = code ∧ callServed s m = true ∧ callTurn s m = true

/-- A call carried out: a status, unless it still waits for one, and its outputs. -/
def callDone (s : State) (m : Nat) (st : Option Nat) (outs : List (BitVec 64)) : State :=
  callSet s m (fun (c : Call) => { c with begun := true, stat := if st.isNone then c.stat else st, outs := outs })

/-- A call of a context mailbox on what its context does not own (R382). -/
def callRefused (s : State) (m : Nat) : State :=
  callSet s m (fun (c : Call) => { c with begun := true, stat := some 0x0E })

/-- The call ends with a status and these outputs over the state `u`. -/
def Returns (i : Instr) (s : State) (m st : Nat) (u : State) (outs : List (BitVec 64)) : Prop :=
  exec i s = .next (callDone u m (some st) outs)

/-- What firmware's write of a register copy leaves; none where the copy is not there or the write is discarded. -/
def regWrote (s : State) (r : RegId) (ix : List Nat) (w : Nat) : Option State :=
  if regThere s r ix then refusedBy s (regDo s .fw r ix w ⟨[], [], 0⟩) else none

/-- What a call does on each of its tiles in order, with its outputs; none where one of them cannot be served (R103). -/
def tilesDone (g : State → Nat → Option (State × List (BitVec 64))) :
    List Nat → State → Option (State × List (BitVec 64))
  | [], s => some (s, [])
  | t :: r, s => (g s t).bind (fun p => (tilesDone g r p.1).map (fun q => (q.1, p.2 ++ q.2)))

/-- What a call row does whatever the call (R382, R384): nothing before its turn, PERMISSION where the context of the
mailbox does not own what it names. -/
def CallGate (i : Instr) (s : State) (m code : Nat) (own : Bool) : Prop :=
  ((∀ c, ¬ CallReady s m code c) → exec i s = .next s) ∧
  (∀ c, CallReady s m code c → m < 256 → own = false → exec i s = .next (callRefused s m))

end Sys2Proof.Machine
end

