-- ==== Sys2Proof/Certificates/Slice0/Obligations.lean ====
section
/-!
DEFINITION. Obligations.lean: the statements about the model.
-/

open Sys2Proof Sys2Proof.Machine

/-! The step. -/

/-- O1. The step takes the command at the front of the queue, and exec sees the rest of the queue. With none waiting one FC
cycle goes by (the model's choice, log 9; R23, R24): KST_FC_CNT counts it, which the `time` CSR shows above its low four
bits; nothing happens in a module that is not up, and nothing but the counters changes in one in which nothing else waits
for the clock. -/
def Obligations.StepTakesFrontCommand : Prop :=
  (∀ (s : State) (i : Instr) (r : List Instr), s.pending = i :: r → step s = exec i { s with pending := r }) ∧
  (∀ s : State, s.pending = [] → s.up = false → step s = .next s) ∧
  (∀ s : State, s.pending = [] → s.up = true → Still s → ∃ u, step s = .next u ∧ u.clk.fc = s.clk.fc + 1 ∧
    u.pending = [] ∧ u.rd .KST_FC_CNT [] = (s.rd .KST_FC_CNT [] + 1) % 2 ^ 64 ∧
    u.timeCsr = (s.rd .KST_FC_CNT [] + 1) % 2 ^ 64 / 16 ∧ u = { s with regs := u.regs, clk := u.clk })

/-- O2. Every command, with any operands, in any state, is answered with a next state: nothing faults or is
refused. -/
def Obligations.EveryCommandIsAnswered : Prop := ∀ (i : Instr) (s : State), Answers i s (fun _ => True)

/-! The tile: scalar and control instructions. -/

/-- O3. R153, R154: each scalar arithmetic instruction at the head of its stream writes its result, of RS1 and the second
operand, to RD when bit 0 of its predicate is 1, and nothing otherwise; LI writes its second word so; NOP writes nothing. No
other register, memory or flag changes. -/
def Obligations.ScalarResults : Prop :=
  (∀ p ∈ scalarOps, ∀ (s : State) (t : Nat) (f : InsS) (e : QEnt),
    readyHead s t .scalar (encS p.2.1 f) 0 = some e →
    Answers (p.1 t f) s (fun u =>
      (∀ r, (u.tile t).s r =
        if (s.tile t).predOn f.pred.toNat = true ∧ r = f.rd.toNat then
          p.2.2 ((s.tile t).s f.rs1.toNat)
            (if f.i = 1 then f.imm.signExtend 64 else (s.tile t).s f.rs2.toNat)
        else (s.tile t).s r) ∧
      Tile.SameData { s.tile t with sregs := (u.tile t).sregs } (u.tile t) ∧ TileOnly t [] s u)) ∧
  (∀ (s : State) (t : Nat) (f : InsS) (e : QEnt), readyHead s t .scalar (encS 0x00 f) 0 = some e →
    Answers (.nop t f) s (fun u => Tile.SameData (s.tile t) (u.tile t) ∧ TileOnly t [] s u)) ∧
  (∀ (s : State) (t : Nat) (f : InsS) (v : BitVec 64) (e : QEnt), readyHead s t .scalar (encLi f) v = some e →
    Answers (.li t f v) s (fun u =>
      (∀ r, (u.tile t).s r =
        if (s.tile t).predOn f.pred.toNat = true ∧ r = f.rd.toNat then v else (s.tile t).s r) ∧
      Tile.SameData { s.tile t with sregs := (u.tile t).sregs } (u.tile t) ∧ TileOnly t [] s u))

/-- O4. R154, R156: BR with its predicate bit 1 and its comparison true goes on at pc + IMM32, or raises FETCH_FAULT
(0x08) where that is no word of instruction memory; otherwise it goes on at the next word. JAL and JALR with their
predicate bit 1 write pc + 8 to RD and go on at pc + IMM32 or s[RS1] + IMM32, or fault without an effect; with it 0 they
write nothing. An exception
waits until the earlier instructions of its stream have completed. -/
def Obligations.BranchesAndJumps : Prop :=
  ∀ (s : State) (t : Nat) (f : InsS) (e : QEnt),
    let x := s.tile t
    let pcRel := BitVec.ofNat 64 e.pc + f.imm.signExtend 64
    let regRel := x.s f.rs1.toNat + f.imm.signExtend 64
    let linked := s.setTile t (x.setS f.rd.toNat (BitVec.ofNat 64 (e.pc + 8)))
    (readyHead s t .scalar (encS 0x12 f) 0 = some e →
      (x.predOn f.pred.toNat = true → branchTaken f.func.toNat (x.s f.rs1.toNat) (x.s f.rs2.toNat) →
        f.func.toNat ≤ 5 → ¬ badTarget pcRel → exec (.br t f) s = .next (resumeAt s t (some pcRel.toNat))) ∧
      (x.predOn f.pred.toNat = true → branchTaken f.func.toNat (x.s f.rs1.toNat) (x.s f.rs2.toNat) →
        f.func.toNat ≤ 5 → badTarget pcRel → exec (.br t f) s = .next (faultAt s s t 0 e 0x08 0)) ∧
      (f.func.toNat ≤ 5 → (x.predOn f.pred.toNat = false ∨
          ¬ branchTaken f.func.toNat (x.s f.rs1.toNat) (x.s f.rs2.toNat)) →
        exec (.br t f) s = .next (resumeAt s t none))) ∧
    (readyHead s t .scalar (encS 0x13 f) 0 = some e →
      (x.predOn f.pred.toNat = true → ¬ badTarget pcRel →
        exec (.jal t f) s = .next (resumeAt linked t (some pcRel.toNat))) ∧
      (x.predOn f.pred.toNat = true → badTarget pcRel →
        exec (.jal t f) s = .next (faultAt s s t 0 e 0x08 0)) ∧
      (x.predOn f.pred.toNat = false → exec (.jal t f) s = .next (resumeAt s t none))) ∧
    (readyHead s t .scalar (encS 0x14 f) 0 = some e →
      (x.predOn f.pred.toNat = true → ¬ badTarget regRel →
        exec (.jalr t f) s = .next (resumeAt linked t (some regRel.toNat))) ∧
      (x.predOn f.pred.toNat = true → badTarget regRel →
        exec (.jalr t f) s = .next (faultAt s s t 0 e 0x08 0)) ∧
      (x.predOn f.pred.toNat = false → exec (.jalr t f) s = .next (resumeAt s t none)))

/-- O5. R158, R159: TCR with its predicate bit 1 writes to RD the tile-control register its index names, or the tile's
number at 0x027; TILE_MMA_STAT shows at 0x023 what is in the array as it stands (R126); any other index raises ILLEGAL_OPERAND (0x04), as a TCW to an index that is not writable or with ROLL
does. A TCW to TILE_SR_SEED loads it, zero loading the reset value (R83). An exception
waits until the earlier instructions of its stream have completed. -/
def Obligations.TileControlRegisters : Prop :=
  ∀ (s : State) (t : Nat) (f : InsS) (e : QEnt),
    let x := s.tile t
    let i := f.imm.toNat % 4096
    let v := x.s f.rs1.toNat
    (x.predOn f.pred.toNat = false →
      (readyHead s t .scalar (encS 0x15 f) 0 = some e →
        Answers (.tcr t f) s (fun u => Tile.SameData x (u.tile t) ∧ TileOnly t [] s u)) ∧
      (readyHead s t .scalar (encS 0x16 f) 0 = some e →
        Answers (.tcw t f) s (fun u => Tile.SameData x (u.tile t) ∧ TileOnly t [] s u))) ∧
    (x.predOn f.pred.toNat = true →
    (readyHead s t .scalar (encS 0x15 f) 0 = some e →
      (∀ r ix, tcReg t i = some (r, ix) → Answers (.tcr t f) s (fun u =>
        (∀ n, (u.tile t).s n =
          if n = f.rd.toNat then BitVec.ofNat 64 (if i = 0x23 then mmaStatWord s t else s.rd r ix) else x.s n) ∧
        Tile.SameData { x with sregs := (u.tile t).sregs } (u.tile t) ∧ TileOnly t [] s u)) ∧
      (i = 0x27 → Answers (.tcr t f) s (fun u =>
        (∀ n, (u.tile t).s n = if n = f.rd.toNat then BitVec.ofNat 64 t else x.s n) ∧
        Tile.SameData { x with sregs := (u.tile t).sregs } (u.tile t) ∧ TileOnly t [] s u)) ∧
      (0x27 < i → exec (.tcr t f) s = .next (faultAt s s t 0 e 0x04 0))) ∧
    (readyHead s t .scalar (encS 0x16 f) 0 = some e →
      (0x22 < i → exec (.tcw t f) s = .next (faultAt s s t 0 e 0x04 0)) ∧
      (16 ≤ i → i < 32 → v.getLsbD 63 = true → exec (.tcw t f) s = .next (faultAt s s t 0 e 0x04 0)) ∧
      (∀ w, i < 16 → fmtDescWrite i (s.rd .FMT_DESC (tix t ++ [i])) v.toNat = some w →
        Answers (.tcw t f) s (fun u => u.rd .FMT_DESC (tix t ++ [i]) = w % 2 ^ 64 ∧
          Tile.SameData x (u.tile t) ∧ TileOnly t [regAddr .FMT_DESC (tix t ++ [i])] s u)) ∧
      (i < 16 → fmtDescWrite i (s.rd .FMT_DESC (tix t ++ [i])) v.toNat = none →
        exec (.tcw t f) s = .next (settle (discardReg (popHead s t .scalar) .FMT_DESC (tix t ++ [i])) t)) ∧
      (16 ≤ i → i < 32 → v.getLsbD 63 = false → exec (.tcw t f) s =
        .next (settle ((popHead s t .scalar).plain .TILE_AMAX (tix t ++ [i - 16]) v.toNat) t)) ∧
      (i = 0x22 → exec (.tcw t f) s = .next (settle ((popHead s t .scalar).plain .TILE_FMT_FLAGS (tix t) v.toNat) t)) ∧
      (i = 0x21 → Answers (.tcw t f) s (fun u =>
        u.rd .TILE_SR_SEED (tix t) = (if v = 0 then 0x9E3779B97F4A7C15 else v.toNat) ∧
        Tile.SameData { x with srLeft := 0 } (u.tile t) ∧ TileOnly t [regAddr .TILE_SR_SEED (tix t)] s u)) ∧
      (i = 0x20 → Answers (.tcw t f) s (fun u =>
        (∀ g ∈ (regInfo .TILE_FMT_CTL).flds, g.ty = .rw →
          u.fld .TILE_FMT_CTL (tix t) ⟨g.hi, g.lo⟩ = fget v.toNat ⟨g.hi, g.lo⟩) ∧
        Tile.SameData x (u.tile t) ∧ TileOnly t [regAddr .TILE_FMT_CTL (tix t)] s u))))

/-! The tile: vector instructions. -/

/-- O6. R136, R166, R167: an element-wise instruction of a slot it accepts writes to each active element of VD its
result and to each inactive one 0 under PZ, else nothing; the flags of its active elements are set in TILE_FMT_FLAGS,
and nothing else changes. INT32 results are those of the rule; a slot it does not accept raises ILLEGAL_FORMAT (0x02). An exception
waits until the earlier instructions of its stream have completed. -/
def Obligations.ElementwiseResults : Prop :=
  ∀ p ∈ elementOps, ∀ (s : State) (t : Nat) (f : InsV) (e : QEnt),
    let x := s.tile t
    let fmt := f.fmt.toNat
    let w := if fmt = 0 then 64 else 32
    let a (i : Nat) := vbits (x.v f.vs1.toNat) (w * i) w
    let b (i : Nat) := if f.bs = 1 then (x.s f.ss.toNat).toNat % 2 ^ w else vbits (x.v f.vs2.toNat) (w * i) w
    let g (i : Nat) := if fmt = 14 then int32Result p.2 (a i) (b i)
      else ewFloat p.2 (s.slot t fmt) (a i) (b i) (vbits (x.v f.vs3.toNat) (w * i) w)
    readyHead s t .vector (encV p.2 f) 0 = some e →
    (fmt ∉ elementSlots p.2 → exec (p.1 t f) s = .next (faultAt s s t 1 e 0x02 0)) ∧
    (fmt ∈ elementSlots p.2 → Answers (p.1 t f) s (fun u =>
      (∀ r, r ≠ f.vd.toNat → (u.tile t).v r = x.v r) ∧
      (∀ i, i < 4096 / w → vbits ((u.tile t).v f.vd.toNat) (w * i) w =
        if (x.p f.pred.toNat).getLsbD (w * i / 8) then (g i).1 % 2 ^ w
        else if f.pz = 1 then 0 else vbits (x.v f.vd.toNat) (w * i) w) ∧
      u.rd .TILE_FMT_FLAGS (tix t) =
        s.rd .TILE_FMT_FLAGS (tix t) ||| flagBits (laneFlags (4096 / w) w (x.p f.pred.toNat) g) ∧
      Tile.SameData { x with vregs := (u.tile t).vregs } (u.tile t) ∧
      TileOnly t [regAddr .TILE_FMT_FLAGS (tix t)] s u))

/-- O7. R168, R176, R129: VCMP of a slot it accepts writes its condition to every byte bit of each active element of
p[PD], and 0 to those of an inactive one under PZ; a signalling NaN among the active elements sets FMT_INV (R71). PLOGIC
writes its operation of two predicates to p[PD]. A PD of 0 discards both. Nothing else changes. An exception
waits until the earlier instructions of its stream have completed. -/
def Obligations.PredicateResults : Prop :=
  ∀ (s : State) (t : Nat) (f : InsV) (e : QEnt),
    let x := s.tile t
    let fmt := f.fmt.toNat
    let w := if fmt = 0 then 64 else 32
    let a (i : Nat) := vbits (x.v f.vs1.toNat) (w * i) w
    let b (i : Nat) := if f.bs = 1 then (x.s f.ss.toNat).toNat % 2 ^ w else vbits (x.v f.vs2.toNat) (w * i) w
    (readyHead s t .vector (encV 0x4D f) 0 = some e →
      (fmt ∉ [0, 1, 14] → exec (.vcmp t f) s = .next (faultAt s s t 1 e 0x02 0)) ∧
      (fmt ∈ [0, 1, 14] → f.func.toNat ≤ 3 → Answers (.vcmp t f) s (fun u =>
        (∀ r, r ≠ f.pd.toNat → (u.tile t).p r = x.p r) ∧
        (f.pd = 0 → (u.tile t).p 0 = BitVec.allOnes 512) ∧
        (f.pd ≠ 0 → ∀ i, i < 4096 / w → ∀ j, j < w / 8 → ((u.tile t).p f.pd.toNat).getLsbD (w / 8 * i + j) =
          if (x.p f.pred.toNat).getLsbD (w * i / 8) then compareElem (s.slot t fmt) f.func.toNat (a i) (b i)
          else if f.pz = 1 then false else (x.p f.pd.toNat).getLsbD (w / 8 * i + j)) ∧
        u.rd .TILE_FMT_FLAGS (tix t) = s.rd .TILE_FMT_FLAGS (tix t) |||
          flagBits ⟨false, false, (List.range (4096 / w)).any (fun i => (x.p f.pred.toNat).getLsbD (w * i / 8) &&
            (signalElem (s.slot t fmt) (a i) || signalElem (s.slot t fmt) (b i)))⟩ ∧
        Tile.SameData { x with pregs := (u.tile t).pregs } (u.tile t) ∧
        TileOnly t [regAddr .TILE_FMT_FLAGS (tix t)] s u))) ∧
    (readyHead s t .vector (encV 0x5A f) 0 = some e → f.func.toNat ≤ 7 →
      Answers (.plogic t f) s (fun u =>
        (∀ r, (u.tile t).p r = if r = f.pd.toNat ∧ r ≠ 0 then
            plogicOp f.func.toNat (x.p (f.imm.toNat % 8)) (x.p (f.imm.toNat / 8 % 8)) else x.p r) ∧
        Tile.SameData { x with pregs := (u.tile t).pregs } (u.tile t) ∧ TileOnly t [] s u))

/-- O8. R173, R136: VEXP2, VRCP and VRSQ take FP32 alone; each active element of VD takes the function of its
element, an inactive one 0 under PZ, and the flags of the active ones are set. An exception
waits until the earlier instructions of its stream have completed. -/
def Obligations.TableFunctionResults : Prop :=
  ∀ p ∈ tableOps, ∀ (s : State) (t : Nat) (f : InsV) (e : QEnt),
    let x := s.tile t
    let g (i : Nat) := p.2.2 (s.slot t 1) (vbits (x.v f.vs1.toNat) (32 * i) 32)
    readyHead s t .vector (encV p.2.1 f) 0 = some e →
    (f.fmt ≠ 1 → exec (p.1 t f) s = .next (faultAt s s t 1 e 0x02 0)) ∧
    (f.fmt = 1 → Answers (p.1 t f) s (fun u =>
      (∀ r, r ≠ f.vd.toNat → (u.tile t).v r = x.v r) ∧
      (∀ i, i < 128 → vbits ((u.tile t).v f.vd.toNat) (32 * i) 32 =
        if (x.p f.pred.toNat).getLsbD (4 * i) then (g i).1 % 2 ^ 32
        else if f.pz = 1 then 0 else vbits (x.v f.vd.toNat) (32 * i) 32) ∧
      u.rd .TILE_FMT_FLAGS (tix t) =
        s.rd .TILE_FMT_FLAGS (tix t) ||| flagBits (laneFlags 128 32 (x.p f.pred.toNat) g) ∧
      Tile.SameData { x with vregs := (u.tile t).vregs } (u.tile t) ∧
      TileOnly t [regAddr .TILE_FMT_FLAGS (tix t)] s u))

/-- O9. R172, R176: VSPLAT writes the low bits of s[SS] to every active element; VMOV moves the active bytes; VGET
writes element IMM12 to s[SS], sign-extended for INT32, or 0 for an inactive one under PZ; VRED writes the pairwise tree of
its operation over the elements, an inactive one counting as what leaves the rest alone, to element 0 alone, with the flags
of the whole tree. TP5, or slot 15 without a user format, raises ILLEGAL_FORMAT (0x02) in VSPLAT and VGET (R77), a slot
other than FP64, FP32 and INT32 in VRED; an index beyond the elements raises ILLEGAL_OPERAND (0x04). An exception
waits until the earlier instructions of its stream have completed. -/
def Obligations.VectorMovesAndReduction : Prop :=
  ∀ (s : State) (t : Nat) (f : InsV) (e : QEnt),
    let x := s.tile t
    let fmt := f.fmt.toNat
    let w := elemBits fmt
    let act (i : Nat) := (x.p f.pred.toNat).getLsbD (w * i / 8)
    let bad := fmt = 12 ∨ (fmt = 15 ∧ (s.slot t 15).userValid = false)
    (readyHead s t .vector (encV 0x57 f) 0 = some e →
      (bad → exec (.vsplat t f) s = .next (faultAt s s t 1 e 0x02 0)) ∧
      (¬ bad → Answers (.vsplat t f) s (fun u =>
        (∀ r, r ≠ f.vd.toNat → (u.tile t).v r = x.v r) ∧
        (∀ i, i < 4096 / w → vbits ((u.tile t).v f.vd.toNat) (w * i) w =
          if act i then (x.s f.ss.toNat).toNat % 2 ^ w
          else if f.pz = 1 then 0 else vbits (x.v f.vd.toNat) (w * i) w) ∧
        Tile.SameData { x with vregs := (u.tile t).vregs } (u.tile t) ∧ TileOnly t [] s u))) ∧
    (readyHead s t .vector (encV 0x59 f) 0 = some e → Answers (.vmov t f) s (fun u =>
      (∀ r, r ≠ f.vd.toNat → (u.tile t).v r = x.v r) ∧
      (∀ i, i < 512 → vbits ((u.tile t).v f.vd.toNat) (8 * i) 8 =
        if (x.p f.pred.toNat).getLsbD i then vbits (x.v f.vs1.toNat) (8 * i) 8
        else if f.pz = 1 then 0 else vbits (x.v f.vd.toNat) (8 * i) 8) ∧
      Tile.SameData { x with vregs := (u.tile t).vregs } (u.tile t) ∧ TileOnly t [] s u)) ∧
    (readyHead s t .vector (encV 0x58 f) 0 = some e →
      (bad → exec (.vget t f) s = .next (faultAt s s t 1 e 0x02 0)) ∧
      (¬ bad → 4096 / w ≤ f.imm.toNat → exec (.vget t f) s = .next (faultAt s s t 1 e 0x04 0)) ∧
      (¬ bad → f.imm.toNat < 4096 / w → Answers (.vget t f) s (fun u =>
        (∀ r, (u.tile t).s r =
          if r ≠ f.ss.toNat then x.s r
          else if act f.imm.toNat then
            (if fmt = 14 then (BitVec.ofNat 32 (vbits (x.v f.vs1.toNat) (w * f.imm.toNat) w)).signExtend 64
             else BitVec.ofNat 64 (vbits (x.v f.vs1.toNat) (w * f.imm.toNat) w))
          else if f.pz = 1 then 0 else x.s r) ∧
        Tile.SameData { x with sregs := (u.tile t).sregs } (u.tile t) ∧ TileOnly t [] s u))) ∧
    (readyHead s t .vector (encV 0x4F f) 0 = some e →
      let leaf (i : Nat) : Nat × FFlags :=
        (if act i then vbits (x.v f.vs1.toNat) (w * i) w else redIdle fmt f.func.toNat, FFlags.none)
      let red := treeAt (redJoin (s.slot t fmt) f.func.toNat) leaf (if fmt = 0 then 6 else 7) 0
      (fmt ∉ [0, 1, 14] → exec (.vred t f) s = .next (faultAt s s t 1 e 0x02 0)) ∧
      (fmt ∈ [0, 1, 14] → Answers (.vred t f) s (fun u =>
        (∀ r, r ≠ f.vd.toNat → (u.tile t).v r = x.v r) ∧
        (∀ i, 0 < i → i < 4096 / w → vbits ((u.tile t).v f.vd.toNat) (w * i) w = vbits (x.v f.vd.toNat) (w * i) w) ∧
        vbits ((u.tile t).v f.vd.toNat) 0 w = red.1 % 2 ^ w ∧
        u.rd .TILE_FMT_FLAGS (tix t) = s.rd .TILE_FMT_FLAGS (tix t) ||| flagBits red.2 ∧
        Tile.SameData { x with vregs := (u.tile t).vregs } (u.tile t) ∧
        TileOnly t [regAddr .TILE_FMT_FLAGS (tix t)] s u)))

/-- O10. R77, R169 to R171: VCVT reads the elements of the source part whose destination byte is active, converts them
together, and writes the destination part, its scale bytes to VS3 where the destination slot has blocks, the flags and the
generator; no byte outside the part changes. Where the slots are neither TP5 nor have blocks and rounding is not stochastic,
each active element takes the conversion of its source element and an inactive one 0 under PZ. BIN, or slot 15 without a
user format, raises ILLEGAL_FORMAT (0x02); a part beyond byte 511 raises ILLEGAL_OPERAND (0x04). An exception
waits until the earlier instructions of its stream have completed. -/
def Obligations.ConversionResults : Prop :=
  ∀ (s : State) (t : Nat) (f : InsV) (e : QEnt),
    let x := s.tile t
    let fa := f.fmt.toNat
    let fb := f.fmt2.toNat
    let da := s.slot t fa
    let db := s.slot t fb
    let bad := fa = 13 ∨ fb = 13 ∨ (fa = 15 ∧ da.userValid = false) ∨ (fb = 15 ∧ db.userValid = false)
    let n := cvtCount fa fb da.block db.block
    let ba := elemBytes fa n
    let wb := elemBits fb
    let bb := elemBytes fb n
    let sp := f.imm.toNat % 32
    let dp := f.imm.toNat / 32 % 32
    let src := vbits (x.v f.vs1.toNat) (8 * ba * sp) (8 * ba)
    let sc := n / da.block
    let scales := vbits (x.v f.vs3.toNat) (8 * sc * sp) (8 * sc)
    let on (k : Nat) : Bool := (x.p f.pred.toNat).getLsbD (bb * dp + k)
    let elem (i : Nat) : FVal × Bool := cvtSource da src (if da.block = 0 then 0 else scales) n i
    let act := (List.range n).map (fun i => if on (partByteOf fb i) then some (elem i) else none)
    let out := cvtAll db (act.map (fun r => r.map (·.1))) (s.gen t)
    let dest := cvtDest fb (vbits (x.v f.vd.toNat) (8 * bb * dp) (8 * bb)) (out.1 ++ cvtPad fb n on) (f.pz == 1)
    let nb := if db.block = 0 then 0 else n / db.block
    let inv := act.any (fun r => match r with | some p => p.2 | none => false)
    let vd' := vput (x.v f.vd.toNat) (8 * bb * dp) (8 * bb) dest.1
    readyHead s t .vector (encV 0x4E f) 0 = some e →
    (bad → exec (.vcvt t f) s = .next (faultAt s s t 1 e 0x02 0)) ∧
    (¬ bad → (512 < (sp + 1) * ba ∨ 512 < (dp + 1) * bb) →
      exec (.vcvt t f) s = .next (faultAt s s t 1 e 0x04 0)) ∧
    (¬ bad → (sp + 1) * ba ≤ 512 → (dp + 1) * bb ≤ 512 →
      Answers (.vcvt t f) s (fun u =>
        (∀ r, (u.tile t).v r =
          if r = f.vs3.toNat ∧ nb ≠ 0 then
            vput (if r = f.vd.toNat then vd' else x.v r) (8 * nb * dp) (8 * nb)
              (out.2.1.foldr (fun b acc => b + 256 * acc) 0)
          else if r = f.vd.toNat then vd' else x.v r) ∧
        u.rd .TILE_SR_SEED (tix t) = out.2.2.2.seed.toNat ∧ (u.tile t).srLeft = out.2.2.2.left ∧
        u.rd .TILE_FMT_FLAGS (tix t) =
          s.rd .TILE_FMT_FLAGS (tix t) ||| flagBits (out.2.2.1.or ⟨false, false, inv || dest.2⟩) ∧
        (fa ≠ 12 → fb ≠ 12 → da.block = 0 → db.block = 0 → db.stoch = false →
          (∀ i, i < n → ∀ g, vbits ((u.tile t).v f.vd.toNat) (8 * bb * dp + wb * i) wb =
            if on (wb * i / 8) then (convertTo db (readElem da.slot da.desc src i).1 g).code % 2 ^ wb
            else if f.pz = 1 then 0 else vbits (x.v f.vd.toNat) (8 * bb * dp + wb * i) wb) ∧
          (∀ i, i < 512 → (i < bb * dp ∨ bb * (dp + 1) ≤ i) →
            vbits ((u.tile t).v f.vd.toNat) (8 * i) 8 = vbits (x.v f.vd.toNat) (8 * i) 8)) ∧
        Tile.SameData { x with vregs := (u.tile t).vregs, srLeft := (u.tile t).srLeft } (u.tile t) ∧
        TileOnly t [regAddr .TILE_FMT_FLAGS (tix t), regAddr .TILE_SR_SEED (tix t)] s u))

/-- O11. R175: VGATHER loads each active element from tile memory at s[SS] + idx[i] * w, and VSCATTER stores each there,
the higher index remaining where two overlap; an active element beyond tile memory raises ILLEGAL_OPERAND (0x04) with
the address of the first such element, and a slot without whole bytes ILLEGAL_FORMAT (0x02); a gather of a line with a
parity error raises TMEM_PARITY (0x0A), else of a marked one POISON (0x0B), with the address of the first such element. No
other byte changes. An exception
waits until the earlier instructions of its stream have completed. -/
def Obligations.GatherAndScatter : Prop :=
  ∀ (s : State) (t : Nat) (f : InsV) (e : QEnt) (w : Nat),
    let x := s.tile t
    let n := min 128 (512 / w)
    let act (i : Nat) : Prop := i < n ∧ (x.p f.pred.toNat).getLsbD (w * i) = true
    let idx (i : Nat) : Int := (BitVec.ofNat 32 (vbits (x.v f.vs1.toNat) (32 * i) 32)).toInt
    let addr (i : Nat) : Nat := (x.s f.ss.toNat + BitVec.ofInt 64 (idx i * w)).toNat
    (readyHead s t .vector (encV 0x55 f) 0 = some e →
      (f.fmt.toNat ∈ [7, 8, 9, 11, 12, 15] → exec (.vgather t f) s = .next (faultAt s s t 1 e 0x02 0)) ∧
      (gatherWidth f.fmt.toNat = some w → ∀ i, act i → 0x100000 < addr i + w →
        (∀ j, act j → j < i → addr j + w ≤ 0x100000) →
        exec (.vgather t f) s = .next (faultAt s s t 1 e 0x04 (addr i))) ∧
      (gatherWidth f.fmt.toNat = some w → (∀ i, act i → addr i + w ≤ 0x100000) →
        ∀ i, act i → (∃ l, touches (addr i) w l ∧ l ∈ x.badMem) →
        (∀ j, act j → j < i → ∀ l, touches (addr j) w l → l ∉ x.badMem) →
        exec (.vgather t f) s = .next (faultAt s s t 1 e 0x0A (addr i))) ∧
      (gatherWidth f.fmt.toNat = some w → (∀ i, act i → addr i + w ≤ 0x100000) →
        (∀ i, act i → ∀ l, touches (addr i) w l → l ∉ x.badMem) →
        ∀ i, act i → (∃ l, touches (addr i) w l ∧ l ∈ x.poison) →
        (∀ j, act j → j < i → ∀ l, touches (addr j) w l → l ∉ x.poison) →
        exec (.vgather t f) s = .next (faultAt s s t 1 e 0x0B (addr i))) ∧
      (gatherWidth f.fmt.toNat = some w → (∀ i, act i → addr i + w ≤ 0x100000) →
        (∀ i, act i → ∀ l, touches (addr i) w l → l ∉ x.poison ∧ l ∉ x.badMem) →
        Answers (.vgather t f) s (fun u =>
          (∀ r, r ≠ f.vd.toNat → (u.tile t).v r = x.v r) ∧
          (∀ i, i < n → vbits ((u.tile t).v f.vd.toNat) (8 * w * i) (8 * w) =
            if (x.p f.pred.toNat).getLsbD (w * i) then leNat (mread x.mem (addr i) w)
            else if f.pz = 1 then 0 else vbits (x.v f.vd.toNat) (8 * w * i) (8 * w)) ∧
          Tile.SameData { x with vregs := (u.tile t).vregs } (u.tile t) ∧ TileOnly t [] s u))) ∧
    (readyHead s t .vector (encV 0x56 f) 0 = some e →
      (f.fmt.toNat ∈ [7, 8, 9, 11, 12, 15] → exec (.vscatter t f) s = .next (faultAt s s t 1 e 0x02 0)) ∧
      (gatherWidth f.fmt.toNat = some w → ∀ i, act i → 0x100000 < addr i + w →
        (∀ j, act j → j < i → addr j + w ≤ 0x100000) →
        exec (.vscatter t f) s = .next (faultAt s s t 1 e 0x04 (addr i))) ∧
      (gatherWidth f.fmt.toNat = some w → (∀ i, act i → addr i + w ≤ 0x100000) →
        Answers (.vscatter t f) s (fun u =>
          (∀ i, act i → ∀ j, j < w →
            (∀ k, act k → i < k → ¬ (addr k ≤ addr i + j ∧ addr i + j < addr k + w)) →
            mget 0 (u.tile t).mem (addr i + j) = BitVec.ofNat 8 (vbits (x.v f.vs2.toNat) (8 * w * i + 8 * j) 8)) ∧
          (∀ a, (∀ i, act i → ¬ (addr i ≤ a ∧ a < addr i + w)) → mget 0 (u.tile t).mem a = mget 0 x.mem a) ∧
          Tile.SameData { x with mem := (u.tile t).mem } (u.tile t) ∧ TileOnly t [] s u)))

/-! The tile: the matrix array. -/

/-- O12. R79, R101, R112, R126, R138, R160, R163, R164: an MMA or a DRAIN whose checks pass leaves its queue for the array
or the drain queue, with its descriptors and the FMT_DESC entries of its slots as they stand, and changes no bank, register
or byte of memory but TILE_MMA_STAT.SHAPE; one whose checks fail raises its exception, with the address it names. A ZERO MMA
gives its bank shape and class for later instructions. Neither issues while a retry runs or the pending list would
overflow, nor a DRAIN while two have not released their bank (the model's choices, log 141 and 142). AROLL rolls its AMAX
register. An exception waits until the earlier instructions of its stream have completed. -/
def Obligations.MatrixInstructionsIssue : Prop :=
  ∀ (s : State) (t : Nat) (e : QEnt),
    let x := s.tile t
    (∀ f : InsMma,
      (matrixHeld x = true → exec (.mma t f) s = .next s) ∧
      (matrixHeld x = false → readyHead s t .matrix (encMma f).1 (encMma f).2 = some e →
      (∀ c, mmaCause s t f (x.s f.sa.toNat) (x.s f.sb.toNat) = some c →
        exec (.mma t f) s = .next (faultAt s s t 2 e c.1 c.2)) ∧
      (mmaCause s t f (x.s f.sa.toNat) (x.s f.sb.toNat) = none →
        AnswersAt (.mma t f) s t (fun v => let y := v.tile t
          (∃ r : MmaRec, y.mmas = x.mmas ++ [r] ∧ r.tag = e.tag ∧ r.st = 0 ∧ r.da = x.s f.sa.toNat ∧
            r.db = x.s f.sb.toNat ∧ r.w0 = (encMma f).1 ∧ r.w1 = (encMma f).2 ∧ r.inj = x.inj ∧ r.retry = false ∧
            r.fda = BitVec.ofNat 64 (s.slot t f.fa.toNat).desc ∧ r.fdb = BitVec.ofNat 64 (s.slot t f.fb.toNat).desc) ∧
          y.inj = false ∧ y.drains = x.drains ∧
          (f.bank = 0 → (y.ishape1 = x.ishape1 ∧ y.iint1 = x.iint1 ∧
            y.ishape0 = (if f.zero = 0 then x.ishape0 else f.shape.toNat) ∧
            y.iint0 = (if f.zero = 0 then x.iint0 else slotIsInt f.fa.toNat))) ∧
          (f.bank = 1 → (y.ishape0 = x.ishape0 ∧ y.iint0 = x.iint0 ∧
            y.ishape1 = (if f.zero = 0 then x.ishape1 else f.shape.toNat) ∧
            y.iint1 = (if f.zero = 0 then x.iint1 else slotIsInt f.fa.toNat))) ∧
          v.fld .TILE_MMA_STAT (tix t) TILE_MMA_STAT.SHAPE = f.shape.toNat ∧
          Tile.SameData x y ∧ TileOnly t [regAddr .TILE_MMA_STAT (tix t)] s v)))) ∧
    (∀ f : InsDrain,
      (matrixHeld x = true ∨ 2 ≤ drainsOut x → exec (.drain t f) s = .next s) ∧
      (matrixHeld x = false → drainsOut x < 2 → readyHead s t .matrix (encDrain f).1 (encDrain f).2 = some e →
      (∀ c, drainCause s t f (x.s f.sd.toNat) = some c →
        exec (.drain t f) s = .next (faultAt s s t 2 e c.1 c.2)) ∧
      (drainCause s t f (x.s f.sd.toNat) = none →
        AnswersAt (.drain t f) s t (fun v => let y := v.tile t
          (∃ d : DrainRec, y.drains = x.drains ++ [d] ∧ d.tag = e.tag ∧ d.st = 0 ∧ d.dd = x.s f.sd.toNat ∧
            d.w0 = (encDrain f).1 ∧ d.w1 = (encDrain f).2 ∧ d.desc = (s.slot t f.dslot.toNat).desc ∧ d.data = []) ∧
          y.mmas = x.mmas ∧ Tile.SameData x y ∧ TileOnly t [] s v)))) ∧
    (∀ a : BitVec 4, readyHead s t .matrix (encAroll a) 0 = some e →
      let roll := amaxRoll (s.rd .TILE_AMAX (tix t ++ [a.toNat])) (fun d => s.rd .FMT_DESC (tix t ++ [d]))
      (x.retryBank.isSome = true → exec (.aroll t a) s = .next s) ∧
      (x.retryBank = none → AnswersAt (.aroll t a) s t (fun v =>
        v.rd .TILE_AMAX (tix t ++ [a.toNat]) = roll.1 % 2 ^ 64 ∧
        v.rd .TILE_FMT_FLAGS (tix t) =
          s.rd .TILE_FMT_FLAGS (tix t) ||| (if roll.2 then flagBits ⟨false, false, true⟩ else 0) ∧
        Tile.SameData x (v.tile t) ∧
        TileOnly t [regAddr .TILE_AMAX (tix t ++ [a.toNat]), regAddr .TILE_FMT_FLAGS (tix t)] s v)))

/-- O13. R85, R91, R110, R111, R113, R126, R164, R508: the first issued MMA that the interlocks let enter enters, with the
generator kept for a retry and its active and stalled cycles counted (a number of stalled ones is free, log 134); the
oldest in the array is added into its bank when it is final; a drain starts once its bank is final and converts it,
advancing the generator, releases the bank after its last read and writes its bytes to tile memory at the end: a line
written whole loses its marks, and its flags and maximum are made once no verdict is awaited. No other byte of tile memory,
no other register and no committed image changes; while no array runs, none of them occurs. -/
def Obligations.MatrixArrayEvents : Prop :=
  ∀ (s : State) (t : Nat),
    let x := s.tile t
    (arrayRuns s t = false → ∀ i ∈ [Instr.mmaEnter t, .mmaFinal t, .drainStart t, .drainRelease t, .drainWriteDone t],
      exec i s = .next s) ∧
    (arrayRuns s t = true →
    (∀ r, canEnter x = some r → Answers (.mmaEnter t) s (fun u =>
      (u.tile t).mmas = x.mmas.map (fun q => if q.tag = r.tag then
        { q with st := 1, srSeed := BitVec.ofNat 64 (s.rd .TILE_SR_SEED (tix t)), srLeft := x.srLeft,
                 enterBy := s.rd .SPAN_AC_CNT [t / 64] + q.cycles } else { q with enterBy := 0 }) ∧
      u.fld .TILE_MMA_KSTEP (tix t) TILE_MMA_KSTEP.ACTIVE =
        (s.fld .TILE_MMA_KSTEP (tix t) TILE_MMA_KSTEP.ACTIVE + r.active) %
          2 ^ (TILE_MMA_KSTEP.ACTIVE.hi + 1 - TILE_MMA_KSTEP.ACTIVE.lo) ∧
      (∃ lost, u.fld .TILE_MMA_PERF (tix t) TILE_MMA_PERF.FEED_STALL =
        (s.fld .TILE_MMA_PERF (tix t) TILE_MMA_PERF.FEED_STALL + r.portStall + lost) %
          2 ^ (TILE_MMA_PERF.FEED_STALL.hi + 1 - TILE_MMA_PERF.FEED_STALL.lo)) ∧
      Tile.SameData x (u.tile t) ∧ (u.tile t).drains = x.drains ∧
      TileOnly t [regAddr .TILE_MMA_PERF (tix t), regAddr .TILE_MMA_KSTEP (tix t)]
        { s with freeCtr := s.freeCtr + 1 } u)) ∧
    (∀ r, x.mmas.find? (fun q => decide (q.st < 2)) = some r → r.st = 1 → Answers (.mmaFinal t) s (fun u =>
      (u.tile t).bank r.bank = mmaApply x r (x.bank r.bank) ∧
      (u.tile t).mmas = x.mmas.map (fun q => if q.tag = r.tag then
        { q with st := 2, inv := mmaReadsInv x r, res := mmaApply x r (x.bank r.bank) } else q) ∧
      (∀ b, b < 2 → b ≠ r.bank → (u.tile t).bank b = x.bank b) ∧
      Tile.SameData { x with acc0 := (u.tile t).acc0, acc1 := (u.tile t).acc1 } (u.tile t) ∧ TileOnly t [] s u)) ∧
    (∀ d, canStartDrain s t = some d → Answers (.drainStart t) s (fun u =>
      let w := drainWork s t d
      (u.tile t).drains = x.drains.map (fun q => if q.tag = d.tag then
        { q with st := 1, data := w.1, flags := w.2.1.num, top := w.2.2.1, nan := w.2.2.2.1,
                 deps := (x.mmas.filter (fun r => decide (r.tag < d.tag) && r.bank == d.bank)).map (·.tag) } else q) ∧
      u.rd .TILE_SR_SEED (tix t) = w.2.2.2.2.seed.toNat ∧
      Tile.SameData { x with srLeft := w.2.2.2.2.left } (u.tile t) ∧ (u.tile t).mmas = x.mmas ∧
      TileOnly t [regAddr .TILE_SR_SEED (tix t)] s u)) ∧
    (∀ d, x.drains.find? (fun d => d.st == 1) = some d → Answers (.drainRelease t) s (fun u =>
      (u.tile t).drains = x.drains.map (fun q => if q.tag = d.tag then { q with st := 2 } else q) ∧
      (u.tile t).mmas = x.mmas ∧ Tile.SameData x (u.tile t) ∧ TileOnly t [] s u)) ∧
    (∀ d, x.drains.find? (fun d => d.st == 2) = some d → AnswersAt (.drainWriteDone t) s t (fun v =>
      let y := v.tile t
      let whole (l : Nat) : Prop := ∃ p ∈ d.data, p.1 ≤ 128 * l ∧ 128 * (l + 1) ≤ p.1 + p.2.length
      (∀ a, mget 0 y.mem a = (runByte d.data a).getD (mget 0 x.mem a)) ∧
      (∀ l, l ∈ y.poison ↔ l ∈ x.poison ∧ ¬ whole l) ∧ (∀ l, l ∈ y.badMem ↔ l ∈ x.badMem ∧ ¬ whole l) ∧
      ((x.drains.map (·.tag)).Nodup → (∀ q ∈ x.drains, q.st = 3 → q.deps ≠ []) →
        (d.deps = [] → v.regs = (releaseDrain s t d).regs ∧ y.drains = x.drains.filter (fun q => q.tag != d.tag)) ∧
        (d.deps ≠ [] → v.regs = s.regs ∧ y.drains = x.drains.map (fun q =>
          if q.tag = d.tag then { q with st := 3, data := [], again := false } else q))) ∧
      y.mmas = x.mmas ∧ Tile.SameData { x with mem := y.mem, poison := y.poison, badMem := y.badMem } y)))

/-- O14. R95, R112, R163: the MMA of two INT8 operands without blocks adds to each cell of its region, modulo 2^32, the
sum of the products of the signed bytes its descriptors address, starting from 0 when ZERO is 1; the other cells stay, or
are 0 when ZERO is 1. -/
def Obligations.Int8MmaResult : Prop :=
  ∀ (x : Tile) (r : MmaRec) (b : Bank),
    let o := mmaOps r
    let cols := shapeCols o.shape
    let ba := descBase r.da
    let bb := descBase r.db
    let old (i : Nat) : Nat := if o.zero then 0 else (mget 0 b.cells i).toNat
    o.da.slot = 10 → o.db.slot = 10 → o.n ≤ cols →
    o.da.block = 0 → o.db.block = 0 → (o.zero = true ∨ b.int = true) →
    (∀ m n, m < o.m → n < o.n →
      (mget 0 (mmaApply x r b).cells (m * cols + n)).toNat =
        (((old (m * cols + n) : Int) + ((List.range o.k).map (fun k =>
          (mget 0 x.mem (ba + m * descStride r.da + k)).toInt *
          (mget 0 x.mem (bb + k * descStride r.db + n)).toInt)).sum) % 4294967296).toNat) ∧
    (∀ m n, n < cols → (o.m ≤ m ∨ o.n ≤ n) →
      (mget 0 (mmaApply x r b).cells (m * cols + n)).toNat = old (m * cols + n))

/-- O15. R83, R85, R118, R120, R121, R122: a verdict that passes commits the bank as the oldest MMA left it to its
committed image and takes the MMA from the array, ending a retry; a first one that fails, or that INJ_ONCE makes fail,
counts a mismatch, reloads the bank from its committed image, loads the generator as it stood at the operation's start and
starts the retry: the MMAs of the bank from it on are in the array again and its later drains that have started start anew;
a second one that fails counts a mismatch and asks for the retirement of the tile, and no verdict follows it. -/
def Obligations.MmaVerdicts : Prop :=
  ∀ (s : State) (t : Nat) (r : MmaRec) (rest : List MmaRec) (pass : Bool),
    let x := s.tile t
    let counted (u : State) : Prop := u.fld .TILE_MMA_STAT (tix t) TILE_MMA_STAT.MISMATCH_CNT =
        min (2 ^ (TILE_MMA_STAT.MISMATCH_CNT.hi + 1 - TILE_MMA_STAT.MISMATCH_CNT.lo) - 1)
          (s.fld .TILE_MMA_STAT (tix t) TILE_MMA_STAT.MISMATCH_CNT + 1)
    arrayRuns s t = true → x.mmas = r :: rest →
    (r.st ≠ 2 → exec (.mmaVerdict t pass) s = .next s) ∧
    (r.st = 2 → pass = true → r.inj = false → AnswersAt (.mmaVerdict t pass) s t (fun v =>
      (v.tile t).com r.bank = r.res ∧
      (∀ b, b < 2 → b ≠ r.bank → (v.tile t).com b = x.com b) ∧
      (v.tile t).mmas = x.mmas.filter (fun q => q.tag != r.tag) ∧
      (v.tile t).retryBank = (if r.retry then none else x.retryBank) ∧
      (v.tile t).acc0 = x.acc0 ∧ (v.tile t).acc1 = x.acc1 ∧ (v.tile t).mem = x.mem ∧
      (v.tile t).sregs = x.sregs ∧ (v.tile t).vregs = x.vregs ∧ (v.tile t).pregs = x.pregs)) ∧
    (r.st = 2 → (pass = false ∨ r.inj = true) → r.retry = false → Answers (.mmaVerdict t pass) s (fun u =>
      (u.tile t).bank r.bank = x.com r.bank ∧ (u.tile t).retryBank = some r.bank ∧
      (∀ b, b < 2 → b ≠ r.bank → (u.tile t).bank b = x.bank b) ∧
      (u.tile t).mmas.map (fun q => (q.tag, q.st, q.retry)) = x.mmas.map (fun q =>
        if q.tag = r.tag then (q.tag, 1, true)
        else if q.bank = r.bank ∧ r.tag ≤ q.tag ∧ q.st ≠ 0 then (q.tag, 1, q.retry) else (q.tag, q.st, q.retry)) ∧
      (u.tile t).drains.map (fun d => (d.tag, d.st)) = x.drains.map (fun d =>
        if d.bank = r.bank ∧ r.tag < d.tag ∧ d.st ≠ 0 then (d.tag, 0) else (d.tag, d.st)) ∧
      u.rd .TILE_SR_SEED (tix t) = r.srSeed.toNat ∧ (u.tile t).srLeft = r.srLeft ∧
      (u.tile t).com0 = x.com0 ∧ (u.tile t).com1 = x.com1 ∧ (u.tile t).mem = x.mem ∧ counted u)) ∧
    (r.st = 2 → (pass = false ∨ r.inj = true) → r.retry = true → Answers (.mmaVerdict t pass) s (fun u =>
      (u.tile t).retiring = (if x.retiring = 0 then 1 else x.retiring) ∧
      (u.tile t).mmas = x.mmas.map (fun q => if q.tag = r.tag then { q with st := 3 } else q) ∧
      Tile.SameData x (u.tile t) ∧ counted u))

/-! The tile: loads and stores. -/

/-- O16. R154, R155, R441, R508: LD and ST with FUNC[3] = 0 move 1, 2, 4 or 8 bytes, little-endian, between a register and
tile memory at s[RS1] + IMM32, sign-extended under FUNC[2]; an offset outside raises ILLEGAL_OPERAND (0x04), a misaligned
one MISALIGNED (0x05), a load of a line with a parity error TMEM_PARITY (0x0A), else of a marked line POISON (0x0B). With the
predicate bit 0 nothing happens. No other byte of memory and no other register changes. An exception
waits until the earlier instructions of its stream have completed. -/
def Obligations.ScalarLoadsAndStores : Prop :=
  ∀ (s : State) (t : Nat) (f : InsS) (e : QEnt) (ext : Ext),
    let x := s.tile t
    let s' := popHead s t .scalar
    let p := (x.s f.rs1.toNat + f.imm.signExtend 64).toNat
    let n := 2 ^ (f.func.toNat % 4)
    let on := x.predOn f.pred.toNat = true ∧ f.func.getLsbD 3 = false
    (readyHead s t .scalar (encS 0x10 f) 0 = some e →
      (x.predOn f.pred.toNat = false → Answers (.ld t f) s (fun u =>
        Tile.SameData x (u.tile t) ∧ TileOnly t [] s u)) ∧
      (on → 0x100000 ≤ p → exec (.ld t f) s = .next (faultAt s s' t 0 e 0x04 p)) ∧
      (on → p < 0x100000 → p % n ≠ 0 → exec (.ld t f) s = .next (faultAt s s' t 0 e 0x05 p)) ∧
      (on → p < 0x100000 → p % n = 0 → p / 128 ∈ x.badMem →
        exec (.ld t f) s = .next (faultAt s s' t 0 e 0x0A p)) ∧
      (on → p < 0x100000 → p % n = 0 → p / 128 ∉ x.badMem → p / 128 ∈ x.poison →
        exec (.ld t f) s = .next (faultAt s s' t 0 e 0x0B p)) ∧
      (on → p < 0x100000 → p % n = 0 → p / 128 ∉ x.badMem → p / 128 ∉ x.poison → Answers (.ld t f) s (fun u =>
        (∀ r, (u.tile t).s r =
          if r ≠ f.rd.toNat then x.s r
          else if f.func.getLsbD 2 then (BitVec.ofNat (8 * n) (leNat (mread x.mem p n))).signExtend 64
          else BitVec.ofNat 64 (leNat (mread x.mem p n))) ∧
        Tile.SameData { x with sregs := (u.tile t).sregs } (u.tile t) ∧ TileOnly t [] s u))) ∧
    (readyHead s t .scalar (encS 0x11 f) 0 = some e →
      (x.predOn f.pred.toNat = false → Answers (.st t f ext) s (fun u =>
        Tile.SameData x (u.tile t) ∧ TileOnly t [] s u)) ∧
      (on → 0x100000 ≤ p → exec (.st t f ext) s = .next (faultAt s s' t 0 e 0x04 p)) ∧
      (on → p < 0x100000 → p % n ≠ 0 → exec (.st t f ext) s = .next (faultAt s s' t 0 e 0x05 p)) ∧
      (on → p < 0x100000 → p % n = 0 → Answers (.st t f ext) s (fun u =>
        (∀ a, mget 0 (u.tile t).mem a =
          if p ≤ a ∧ a < p + n then (x.s f.rs2.toNat).extractLsb' (8 * (a - p)) 8 else mget 0 x.mem a) ∧
        Tile.SameData { x with mem := (u.tile t).mem } (u.tile t) ∧ TileOnly t [] s u)))

/-- O17. R174, R441, R508: VLD and VST with FUNC[0] = 0 move the active bytes of 512 between a vector register and tile
memory at s[SS] + IMM12 * 128; inactive bytes of VD are 0 under PZ and else kept, inactive bytes of memory are kept, and a
line written whole loses its marks. An offset of 0xFFE01 or more raises ILLEGAL_OPERAND (0x04), one off a line MISALIGNED
(0x05), a load that meets a parity error TMEM_PARITY (0x0A), else one that meets a marked line POISON (0x0B). An exception
waits until the earlier instructions of its stream have completed. -/
def Obligations.VectorLoadsAndStores : Prop :=
  ∀ (s : State) (t : Nat) (f : InsV) (e : QEnt) (ext : Ext),
    let x := s.tile t
    let s' := popHead s t .vector
    let p := (x.s f.ss.toNat + f.imm.signExtend 64 * 128).toNat
    let m := x.p f.pred.toNat
    f.func.getLsbD 0 = false →
    (readyHead s t .vector (encV 0x53 f) 0 = some e →
      (0xFFE01 ≤ p → exec (.vld t f) s = .next (faultAt s s' t 1 e 0x04 p)) ∧
      (p < 0xFFE01 → p % 128 ≠ 0 → exec (.vld t f) s = .next (faultAt s s' t 1 e 0x05 p)) ∧
      (p < 0xFFE01 → p % 128 = 0 → (∃ l, touches p 512 l ∧ l ∈ x.badMem) →
        exec (.vld t f) s = .next (faultAt s s' t 1 e 0x0A p)) ∧
      (p < 0xFFE01 → p % 128 = 0 → (∀ l, touches p 512 l → l ∉ x.badMem) → (∃ l, touches p 512 l ∧ l ∈ x.poison) →
        exec (.vld t f) s = .next (faultAt s s' t 1 e 0x0B p)) ∧
      (p < 0xFFE01 → p % 128 = 0 → (∀ l, touches p 512 l → l ∉ x.poison ∧ l ∉ x.badMem) → Answers (.vld t f) s (fun u =>
        (∀ r, r ≠ f.vd.toNat → (u.tile t).v r = x.v r) ∧
        (∀ i, i < 512 → vbits ((u.tile t).v f.vd.toNat) (8 * i) 8 =
          if m.getLsbD i then (mget 0 x.mem (p + i)).toNat
          else if f.pz = 1 then 0 else vbits (x.v f.vd.toNat) (8 * i) 8) ∧
        Tile.SameData { x with vregs := (u.tile t).vregs } (u.tile t) ∧ TileOnly t [] s u))) ∧
    (readyHead s t .vector (encV 0x54 f) 0 = some e →
      let whole (l : Nat) : Prop := p / 128 ≤ l ∧ l < p / 128 + 4 ∧ lineMask m (l - p / 128) = BitVec.allOnes 128
      (0xFFE01 ≤ p → exec (.vst t f ext) s = .next (faultAt s s' t 1 e 0x04 p)) ∧
      (p < 0xFFE01 → p % 128 ≠ 0 → exec (.vst t f ext) s = .next (faultAt s s' t 1 e 0x05 p)) ∧
      (p < 0xFFE01 → p % 128 = 0 → Answers (.vst t f ext) s (fun u =>
        (∀ a, mget 0 (u.tile t).mem a =
          if p ≤ a ∧ a < p + 512 ∧ m.getLsbD (a - p) = true then
            BitVec.ofNat 8 (vbits (x.v f.vs1.toNat) (8 * (a - p)) 8)
          else mget 0 x.mem a) ∧
        (∀ l, l ∈ (u.tile t).poison ↔ l ∈ x.poison ∧ ¬ whole l) ∧
        (∀ l, l ∈ (u.tile t).badMem ↔ l ∈ x.badMem ∧ ¬ whole l) ∧
        Tile.SameData { x with mem := (u.tile t).mem, poison := (u.tile t).poison, badMem := (u.tile t).badMem }
          (u.tile t) ∧
        TileOnly t [] s u)))

/-- O18. R155, R174, R185, R189 to R191, R235 to R238, R246: LD and VLD through a pointer, LDR and STC make their checks,
leave their stream and wait for their answer, or raise what the checks find, or are held; ST and VST through a pointer make
their stores, wait or raise what the store raises. An LD, VLD or LDR whose data comes writes its register, an LDR with the
reservation of its granule; one toward a peer has the peer's answer. STC_RESULT stores and answers 0, ending every
reservation on the granule, only while the reservation covers the line, else it stores nothing and answers 1. An exception
waits until the earlier instructions of its stream have completed. -/
def Obligations.PointerAccesses : Prop :=
  ∀ (s : State) (t : Nat) (e : QEnt) (ext : Ext),
    let x := s.tile t
    (∀ f : InsS, let p := x.s f.rs1.toNat + f.imm.signExtend 64
      let n := 2 ^ (f.func.toNat % 4)
      let s' := popHead s t .scalar
      x.predOn f.pred.toNat = true → f.func.getLsbD 3 = true →
      (readyHead s t .scalar (encS 0x10 f) 0 = some e →
        (p.toNat % n ≠ 0 → exec (.ld t f) s = .next (faultAt s s' t 0 e 0x05 p.toNat)) ∧
        (p.toNat % n = 0 → LoadLeaves (.ld t f) s t 0 e (loadCheck s' t e.tag p n) p 0 0)) ∧
      (readyHead s t .scalar (encS 0x11 f) 0 = some e →
        let lm := lineOf (p.toNat % 128) (leBytes n (x.s f.rs2.toNat).toNat)
        (p.toNat % n ≠ 0 → exec (.st t f ext) s = .next (faultAt s s' t 0 e 0x05 p.toNat)) ∧
        (p.toNat % n = 0 → exec (.st t f ext) s =
          match storePtr s' t e.tag p lm.1 lm.2 [(p.toNat % 128, n)] ext with
          | .wait => .next (ptrNack s t true [p])
          | .fail s2 c _ => .next (faultAt s s2 t 0 e c p.toNat)
          | .done s2 => .next (settle s2 t)))) ∧
    (∀ f : InsV, let p := x.s f.ss.toNat + f.imm.signExtend 64 * 128
      let m := x.p f.pred.toNat
      let s' := popHead s t .vector
      f.func.getLsbD 0 = true →
      (readyHead s t .vector (encV 0x53 f) 0 = some e →
        (p.toNat % 128 ≠ 0 → exec (.vld t f) s = .next (faultAt s s' t 1 e 0x05 p.toNat)) ∧
        (p.toNat % 128 = 0 → LoadLeaves (.vld t f) s t 1 e
          (match vecCheck s' t e.tag p m false with
           | .done s1 => .done (vecAsk s1 t p (activeLines m))
           | r => r) p m 0)) ∧
      (readyHead s t .vector (encV 0x54 f) 0 = some e →
        (p.toNat % 128 ≠ 0 → exec (.vst t f ext) s = .next (faultAt s s' t 1 e 0x05 p.toNat)) ∧
        (p.toNat % 128 = 0 → x.ordered = false → exec (.vst t f ext) s =
          match vecCheck s' t e.tag p m true with
          | .done s1 =>
            (match vecStores t e.tag p (x.v f.vs1.toNat) m ext (activeLines m) s1 with
             | .wait => .next (ptrNack s t true ((activeLines m).map (fun i => p + BitVec.ofNat 64 (128 * i))))
             | .fail s2 c _ => .next (faultAt s s2 t 1 e c p.toNat)
             | .done s2 => .next (settle (mergeOuts s2 t e.tag) t))
          | .exc s1 c a => .next (faultAt s s1 t 1 e c a)
          | .wait => .next s
          | .nack ps => .next (ptrNack s t true ps)) ∧
        (p.toNat % 128 = 0 → x.ordered = true → exec (.vst t f ext) s =
          match vecOrdered s' t e p (x.v f.vs1.toNat) m ext with
          | .done s1 => .next (settle s1 t)
          | .exc s1 c a => .next (faultAt s s1 t 1 e c a)
          | .wait => .next s
          | .nack ps => .next (ptrNack s t true ps)))) ∧
    (∀ f : InsRsv, let p := x.s f.ra.toNat + f.imm.signExtend 64
      let s' := popHead s t .move
      (readyHead s t .move (encRsv 0xC2 f) 0 = some e →
        (x.predOn f.pred.toNat = false → Answers (.ldr t f) s (fun u =>
          Tile.SameData x (u.tile t) ∧ TileOnly t [] s u)) ∧
        (x.predOn f.pred.toNat = true →
          match rsvTarget s' t p (rsvBytes f) false with
          | .stop r => LoadLeaves (.ldr t f) s t 3 e r p 0 0
          | .line s1 _ => AnswersAt (.ldr t f) s t (fun v => (v.tile t).resv = [] ∧ v.mem = s1.mem ∧
              (v.tile t).loads = (s1.tile t).loads ++ [⟨e.tag, e.pc, e.w0, p, 0, 0, []⟩]))) ∧
      (readyHead s t .move (encRsv 0xC3 f) 0 = some e →
        (x.predOn f.pred.toNat = false → Answers (.stc t f) s (fun u =>
          Tile.SameData x (u.tile t) ∧ TileOnly t [] s u)) ∧
        (x.predOn f.pred.toNat = true →
          match rsvTarget s' t p (rsvBytes f) true with
          | .stop r => LoadLeaves (.stc t f) s t 3 e r p 0 0
          | .line s1 _ => AnswersAt (.stc t f) s t (fun v => (v.tile t).resv = (s1.tile t).resv ∧ v.mem = s1.mem ∧
              (v.tile t).loads = (s1.tile t).loads ++ [⟨e.tag, e.pc, e.w0, p, 0, x.s f.rb.toNat, []⟩])))) ∧
    (∀ (tag : Nat) (l : LoadRec), s.live = true → t < 512 → (s.tstate t = 1 ∨ s.tstate t = 3) →
      x.loads.find? (fun l => l.tag == tag && opcOf l.w0 != 0xC3) = some l →
      let sx := (decS l.w0).func.getLsbD 2
      let n := 2 ^ ((decS l.w0).func.toNat % 4)
      let rest := (granuleLines s t l.ptr)
      let wide := rsvBytes (decRsv l.w0)
      (loadHeld s t l = true → exec (.loadDataReturn t tag ext) s = .next s) ∧
      (∀ s1 bs, opcOf l.w0 = 0x10 → loadHeld s t l = false → readPtr s t l.ptr n false ext = .got s1 bs false →
        AnswersAt (.loadDataReturn t tag ext) s t (fun v =>
          (v.tile t).s (decS l.w0).rd.toNat = loadValue n sx bs ∧
          (v.tile t).loads = (s1.tile t).loads.filter (fun q => q.tag != l.tag) ∧
          (v.tile t).mem = (s1.tile t).mem ∧ v.mem = s1.mem ∧ v.regs = s1.regs)) ∧
      (∀ m a, opcOf l.w0 = 0x10 → decPtr s l.ptr = .peer m a → ext.status = 0 →
        ext.poison.contains (l.ptr.toNat / 128 * 128) = false →
        AnswersAt (.loadDataReturn t tag ext) s t (fun v =>
          (v.tile t).s (decS l.w0).rd.toNat = loadValue n sx ((List.range n).map (fun i => extByte ext (l.ptr.toNat + i))) ∧
          (v.tile t).loads = x.loads.filter (fun q => q.tag != l.tag) ∧ (v.tile t).mem = x.mem ∧ v.mem = s.mem)) ∧
      (∀ s1 bs, opcOf l.w0 = 0x53 → loadHeld s t l = false → (x.ordered = false ∨ l.asked s = false) →
        vecReads t l.ptr false ext (vecUnits s t l.ptr l.mask) s [] false = (.got s1 [] false, bs) →
        AnswersAt (.loadDataReturn t tag ext) s t (fun v =>
          (∀ i, i < 512 → vbits ((v.tile t).v (decV l.w0).vd.toNat) (8 * i) 8 =
            if l.mask.getLsbD i then (match bs.find? (fun b => b.1 == i) with | some b => b.2.toNat | none => 0)
            else if (decV l.w0).pz = 1 then 0 else vbits ((s1.tile t).v (decV l.w0).vd.toNat) (8 * i) 8) ∧
          (v.tile t).loads = (s1.tile t).loads.filter (fun q => q.tag != l.tag) ∧ v.mem = s1.mem)) ∧
      (∀ s1 s2 s3 s4 ln bs, opcOf l.w0 = 0xC2 → loadHeld s t l = false → movAhead x tag = false →
        rsvTarget s t l.ptr wide false = .line s1 ln → spanExcl s1 (t / 64) ln ext = some s2 →
        spanShare s2 (t / 64) ext (rest.filter (· != ln)) = some s3 →
        readPtr s3 t l.ptr wide false ext = .got s4 bs false →
        AnswersAt (.loadDataReturn t tag ext) s t (fun v =>
          (v.tile t).s (decRsv l.w0).rd.toNat = loadValue wide ((decRsv l.w0).sx == 1) bs ∧
          (v.tile t).resv = ln :: rest.filter (· != ln) ∧
          (v.tile t).loads = (s4.tile t).loads.filter (fun q => q.tag != l.tag) ∧ v.mem = s4.mem))) ∧
    (∀ (l : LoadRec) (s1 : State) (ln : Nat), s.live = true → t < 512 → s.tstate t = 1 →
      x.loads.find? (fun l => opcOf l.w0 == 0xC3) = some l → loadHeld s t l = false → movAhead x l.tag = false →
      rsvTarget s t l.ptr (rsvBytes (decRsv l.w0)) true = .line s1 ln →
      (x.resv.contains ln = false → AnswersAt (.stcResult t ext) s t (fun v =>
        (v.tile t).s (decRsv l.w0).rd.toNat = 1 ∧ (v.tile t).resv = [] ∧ v.mem = s1.mem ∧ v.regs = s1.regs ∧
        (v.tile t).loads = (s1.tile t).loads.filter (fun q => q.tag != l.tag))) ∧
      (∀ s2, x.resv.contains ln = true →
        storePtr s1 t l.tag l.ptr (lineOf (l.ptr.toNat % 128) (leBytes (rsvBytes (decRsv l.w0)) l.val.toNat)).1
          (lineOf (l.ptr.toNat % 128) (leBytes (rsvBytes (decRsv l.w0)) l.val.toNat)).2 [] ext = .done s2 →
        contStarted s2 = false → AnswersAt (.stcResult t ext) s t (fun v =>
          (v.tile t).s (decRsv l.w0).rd.toNat = 0 ∧ (v.tile t).resv = [] ∧ v.mem = (granuleTaken s2 x.resv).mem ∧
          v.regs = s2.regs)))

/-! The move stream, fences and epochs. -/

/-- O19. R137, R180 to R186, R235 to R238: MOV takes a slot of the move engine, waits while all four are taken, and raises
ILLEGAL_OPERAND (0x04) where its length or extents are illegal. MOV_RETIRE waits while the order of accesses holds it, raises
what its tile-memory source shows, and else carries out the rows still to copy, reads before writes, all of them or in ORDERED
mode those of one line; from tile memory to tile memory one row's bytes are copied and no other byte changes. An exception
waits until the earlier instructions of its stream have completed. -/
def Obligations.MoveInstructions : Prop :=
  ∀ (s : State) (t : Nat),
    let x := s.tile t
    (∀ (f : InsMov) (e : QEnt),
      let len := (x.s f.sl.toNat).toNat
      let src := x.s f.ss.toNat
      let dst := x.s f.sd.toNat
      readyHead s t .move (encMov f).1 (encMov f).2 = some e →
      (x.predOn f.pred.toNat = false → Answers (.mov t f) s (fun u =>
        Tile.SameData x (u.tile t) ∧ TileOnly t [] s u)) ∧
      (x.predOn f.pred.toNat = true → (2 ^ 32 ≤ len ∨ (len ≠ 0 ∧ movBad f src dst len = true)) →
        exec (.mov t f) s = .next (faultAt s (popHead s t .move) t 3 e 0x04 0)) ∧
      (x.predOn f.pred.toNat = true → len < 2 ^ 32 → (len = 0 ∨ movBad f src dst len = false) → x.moves.length < 4 →
        AnswersAt (.mov t f) s t (fun v =>
          (v.tile t).moves = x.moves ++ [⟨e.tag, e.pc, (encMov f).1, (encMov f).2, src, dst, len, e.prog, 0⟩] ∧
          Tile.SameData x (v.tile t) ∧ TileOnly t [] s v)) ∧
      (x.predOn f.pred.toNat = true → len < 2 ^ 32 → (len = 0 ∨ movBad f src dst len = false) → 4 ≤ x.moves.length →
        exec (.mov t f) s = .next s)) ∧
    (∀ (tag : Nat) (cuts : List Nat) (ext : Ext) (m : MoveRec),
      s.live = true → t < 512 → s.tstate t = 1 → x.moves.find? (fun m => m.tag == tag) = some m →
      (movFree s t m = false → exec (.movRetire t tag cuts ext) s = .next s) ∧
      (∀ c a, movFree s t m = true → movSrcBad x m = some (c, a) → exec (.movRetire t tag cuts ext) s =
        .next (if streamClear x 3 m.tag then raiseExc (s.setTile t (x.dropFrom m.tag)) t 3 m.tag c m.pc a else s)) ∧
      (∀ s1 rows st s2 w, movFree s t m = true → movSrcBad x m = none →
        mvReadRows t m ext (movRows m (movUpto x m)) s [] m.status = .ok s1 (rows, st) →
        mvWriteRows t m (movDeps s1 t m) cuts ext rows s1 ⟨st, none, [], [], true⟩ = .ok s2 w →
        exec (.movRetire t tag cuts ext) s =
          .next (if movUpto x m < m.total then movPause s2 t m (movUpto x m) w else movEnd s2 t m w)) ∧
      (movFree s t m = true → (decMov m.w0 m.w1).ssp = 0 → (decMov m.w0 m.w1).dsp = 0 → (decMov m.w0 m.w1).rows1 = 0 →
        m.prog = 0 → m.len ≠ 0 → (∀ l, touches m.src.toNat m.len l → l ∉ x.poison ∧ l ∉ x.badMem) →
        Answers (.movRetire t tag cuts ext) s (fun u =>
          (∀ a, mget 0 (u.tile t).mem a =
            if m.dst.toNat ≤ a ∧ a < m.dst.toNat + m.len then mget 0 x.mem (m.src.toNat + (a - m.dst.toNat))
            else mget 0 x.mem a) ∧
          (u.tile t).sregs = x.sregs ∧ (u.tile t).vregs = x.vregs ∧ (u.tile t).pregs = x.pregs)))

/-- O20. R185, R187, R188, R193, R196, R239, R248 to R251: a FENCE holds its stream until all it covers is done, and its
RD takes the status; ECUT closes the open epoch and RD takes its tag, or 0; the automatic close closes it too. A write's
answer takes it from the list of those awaited, its status being one the spec gives; a time limit discards it, counts its
lines and records UNREACHABLE, and a peer that does not answer is lost; a load then raises ACCESS_UNDECODED and a MOV goes on
without the data. HOLD goes to the sender, and a received one starts the timeouts anew. -/
def Obligations.FencesEpochsAndAwaitedWrites : Prop :=
  ∀ (s : State) (t : Nat),
    let x := s.tile t
    (∀ (f : InsFence) (e : QEnt), readyHead s t .move (encFence f) 0 = some e →
      (x.predOn f.pred.toNat = false → Answers (.fence t f) s (fun u =>
        Tile.SameData x (u.tile t) ∧ TileOnly t [] s u)) ∧
      (x.predOn f.pred.toNat = true → AnswersAt (.fence t f) s t (fun v =>
        (v.tile t).fence = some ⟨e.tag, e.pc, e.w0, f.rd.toNat, f.scope.toNat, f.type.toNat, f.smask.toNat, 0⟩ ∧
        streamBusy (v.tile t) .move = true ∧ Tile.SameData x (v.tile t) ∧ TileOnly t [] s v))) ∧
    (∀ r : FenceRec, s.live = true → t < 512 → s.tstate t = 1 → x.fence = some r →
      (fenceClear s t r.tag r.scope r.type r.smask = false → exec (.fenceComplete t) s = .next s) ∧
      (fenceClear s t r.tag r.scope r.type r.smask = true → AnswersAt (.fenceComplete t) s t (fun v =>
        (∀ n, (v.tile t).s n = if n = r.rd then BitVec.ofNat 64 (fenceStatus x r.type r.smask) else x.s n) ∧
        (v.tile t).fence = none ∧ (v.tile t).mem = x.mem ∧ TileOnly t [regAddr .TILE_MOVE_STAT (tix t)] s v))) ∧
    (∀ (pred : BitVec 3) (rd : BitVec 5) (e : QEnt), readyHead s t .move (encEcut pred rd) 0 = some e →
      (x.predOn pred.toNat = false → Answers (.ecut t pred rd) s (fun u =>
        Tile.SameData x (u.tile t) ∧ TileOnly t [] s u)) ∧
      (x.predOn pred.toNat = true → (∃ m ∈ x.moves, m.tag < e.tag) → exec (.ecut t pred rd) s = .next s) ∧
      (x.predOn pred.toNat = true → (∀ m ∈ x.moves, e.tag ≤ m.tag) → AnswersAt (.ecut t pred rd) s t (fun v =>
        (∀ n, (v.tile t).s n = if n = rd.toNat then
            (match s.epochs.find? (fun e => e.tile == t && !e.closed) with
             | some e => BitVec.ofNat 64 (epochTag s e)
             | none => 0) else x.s n) ∧
        (∀ e ∈ v.epochs, e.tile = t → e.closed = true) ∧ TileOnly t [] s v))) ∧
    (s.live = true → t < 512 → Answers (.epochAutoClose t) s (fun u =>
      (∀ e ∈ u.epochs, e.tile = t → e.closed = true) ∧ Tile.SameData x (u.tile t) ∧ TileOnly t [] s u)) ∧
    (∀ (tag status : Nat), s.live = true → t < 512 → (∃ w ∈ x.outs, w.tag = tag) →
      (status ∉ [0, 0x03, 0x0A, 0x0E] → exec (.writeResponse t tag status) s = .next s) ∧
      (status ∈ [0, 0x03, 0x0A, 0x0E] → AnswersBy offSettle (.writeResponse t tag status) s (fun v =>
        (v.tile t).outs = x.outs.filter (fun w => w.tag != tag) ∧ Tile.SameData x (v.tile t) ∧
        v.fld .TILE_MOVE_STAT (tix t) TILE_MOVE_STAT.FIRST_STATUS =
          (if s.fld .TILE_MOVE_STAT (tix t) TILE_MOVE_STAT.FIRST_STATUS ≠ 0 then
            s.fld .TILE_MOVE_STAT (tix t) TILE_MOVE_STAT.FIRST_STATUS else status) ∧
        TileOnly t [regAddr .TILE_MOVE_STAT (tix t)] s v))) ∧
    (∀ (tag : Nat) (w : WriteRec), s.live = true → t < 512 → x.outs.find? (fun w => w.tag == tag) = some w →
      (exec (.accessLinkTimeout t tag) s =
        .next (discardOut (if w.peer then autoFail (markLost s w.target) w.target else s) t w)) ∧
      (w.peer = true → exec (.holdLimitDiscard t tag) s = .next (discardOut s t w)) ∧
      (markLost s w.target).rd .CLX_LOST [w.target / 64] = s.rd .CLX_LOST [w.target / 64] ||| 2 ^ (w.target % 64) ∧
      (∃ v, discardOut s t w = offSettle v ∧ (v.tile t).outs = x.outs.filter (fun o => o.tag != w.tag) ∧
        v.fld .TILE_MOVE_STAT (tix t) TILE_MOVE_STAT.UNREACH = 1 ∧ w.strm ∈ (v.tile t).wfail ∧
        v.fld .KST_ORD_STAT [] KST_ORD_STAT.UNREACH = 1 ∧
        v.fld .KST_ORD_STAT [] KST_ORD_STAT.DISCARD_CNT =
          min (2 ^ (KST_ORD_STAT.DISCARD_CNT.hi + 1 - KST_ORD_STAT.DISCARD_CNT.lo) - 1)
            (s.fld .KST_ORD_STAT [] KST_ORD_STAT.DISCARD_CNT + w.addrs.length))) ∧
    (∀ (n : Nat) (w : Nat × Nat), s.live = true → 512 ≤ t →
      (s.mem.farPend.filter (fun w => !tileUnit w.2))[n]? = some w → AnswersBy offSettle (.accessLinkTimeout t n) s (fun v =>
        v.mem = { s.mem with farPend := s.mem.farPend.erase w } ∧ v.tiles = s.tiles ∧
        v.fld .KST_ORD_STAT [] KST_ORD_STAT.UNREACH = 1 ∧
        v.fld .KST_ORD_STAT [] KST_ORD_STAT.DISCARD_CNT =
          min (2 ^ (KST_ORD_STAT.DISCARD_CNT.hi + 1 - KST_ORD_STAT.DISCARD_CNT.lo) - 1)
            (s.fld .KST_ORD_STAT [] KST_ORD_STAT.DISCARD_CNT + 1))) ∧
    (∀ (tag : Nat) (l : LoadRec), s.live = true → t < 512 → (∀ w ∈ x.outs, w.tag ≠ tag) →
      x.loads.find? (fun l => l.tag == tag && opcOf l.w0 != 0xC3) = some l →
      (∀ m a, decPtr s l.ptr = .peer m a → exec (.accessLinkTimeout t tag) s =
        .next (loadFault s (failRead (autoFail (markLost s m) m) t 0x03) t l 0x06 l.ptr.toNat)) ∧
      (∀ a, decPtr s l.ptr = .local_ a → loadHeld s t l = false → ptrsFar s l.ptrs = true →
        exec (.accessLinkTimeout t tag) s = .next (loadFault s (failRead s t 0x03) t l 0x06 l.ptr.toNat))) ∧
    (∀ (tag : Nat) (r : MoveRec), s.live = true → t < 512 → s.tstate t = 1 → (∀ w ∈ x.outs, w.tag ≠ tag) →
      (∀ l ∈ x.loads, l.tag ≠ tag) → x.moves.find? (fun m => m.tag == tag) = some r → (decMov r.w0 r.w1).ssp = 1 →
      movFree s t r = true →
      (∀ m a, decPtr s r.src = .peer m a → exec (.accessLinkTimeout t tag) s =
        .next (movGo (autoFail (markLost s m) m) t r (movUpto ((autoFail (markLost s m) m).tile t) r) [] ⟨[], [], 0x03⟩)) ∧
      (∀ a, decPtr s r.src = .local_ a → ptrsFar s (r.ptrs false) = true →
        exec (.accessLinkTimeout t tag) s = .next (movGo s t r (movUpto x r) [] ⟨[], [], 0x03⟩))) ∧
    (∀ (m l : Nat) (credits : Bool), s.live = true → m < 32768 →
      ((∃ e ∈ s.gate.eps, tagModule e.tag = m ∧ e.held ≠ []) ∨
        (credits = true ∧ ∃ k ∈ clxLinks s, linkFor s m k = true)) →
      StayOpen s m l → exec (.holdSend m credits) s = .next (stayGone s ⟨2, m, 0xF2, hopMax s, [actId s]⟩ l)) ∧
    (∀ m : Nat, s.live = true → Answers (.holdReceived m) s (fun u => u = { s with tiles := u.tiles } ∧
      ∀ k, (u.tile k).outs = (s.tile k).outs.map (fun w =>
          if w.peer = true ∧ w.target = m ∧ s.clk.fc < w.issued + 2 * fcMs then { w with timer := s.clk.fc } else w) ∧
        Tile.SameData (s.tile k) (u.tile k)))

/-! Stay. -/

/-- O21. R136, R197, R199: a Stay instruction with its predicate bit 1 and a legal reference becomes an operation of its
tile: one with a fence is noted and waits for it; one to a counter of this module is on its way in the order of its sending;
one of another module leaves at once on its link in its class, or ends with UNREACHABLE (0x03) where that module is lost or
has no route. A
reference outside raises STAY_RANGE (0x0C), a class of 2 or 3 or an SINIT through REMOTE ILLEGAL_OPERAND (0x04). An exception
waits until the earlier instructions of its stream have completed. -/
def Obligations.StayInstructions : Prop :=
  ∀ p ∈ stayOps, ∀ (s : State) (t : Nat) (f : InsStay) (e : QEnt),
    let x := s.tile t
    let ref := x.s f.rc.toNat
    let far := ref.getLsbD 31 && refMod ref != actId s
    let val := (x.s f.rv.toNat).toNat % 2 ^ 32
    let legal := f.pri.toNat < 2 ∧ ¬ (p.2 = 0xD0 ∧ ref.getLsbD 31 = true)
    let r (ph sent : Nat) : StayRec :=
      ⟨e.tag, e.pc, e.w0, ref, val, stayWaits p.2, far, ph, e.arrived, 0, 0, 0, s.clk.fc, sent⟩
    readyHead s t .scalar (encStay p.2 f) 0 = some e →
    (x.predOn f.pred.toNat = false → Answers (p.1 t f) s (fun u =>
      Tile.SameData x (u.tile t) ∧ TileOnly t [] s u)) ∧
    (x.predOn f.pred.toNat = true → ¬ legal → exec (p.1 t f) s = .next (faultAt s s t 0 e 0x04 0)) ∧
    (x.predOn f.pred.toNat = true → legal → refBad s t ref far = true →
      exec (p.1 t f) s = .next (faultAt s s t 0 e 0x0C 0)) ∧
    (x.predOn f.pred.toNat = true → legal → refBad s t ref far = false → stayFenced p.2 f e →
      AnswersAt (p.1 t f) s t (fun v =>
        (v.tile t).stays = x.stays ++ [r 0 0] ∧ Tile.SameData x (v.tile t) ∧ TileOnly t [] s v)) ∧
    (x.predOn f.pred.toNat = true → legal → refBad s t ref far = false → ¬ stayFenced p.2 f e →
      (∀ q ∈ x.stays, q.tag ≠ e.tag) →
      (far = false → AnswersAt (p.1 t f) s t (fun v =>
        (v.tile t).stays = x.stays ++ [r 1 (s.stay.stamp + 1)] ∧ v.stay = { s.stay with stamp := s.stay.stamp + 1 } ∧
        Tile.SameData x (v.tile t) ∧ TileOnly t [] s v)) ∧
      (∀ l, far = true → StayOpen s (refMod ref) l → AnswersAt (p.1 t f) s t (fun v =>
        (v.tile t).stays = x.stays ++ [r 1 0] ∧ Tile.SameData x (v.tile t) ∧ TileOnly t [] s v ∧
        v.out = s.out ++ [.stay (r 1 0).cls (refMod ref) l (hopMax s) (r 1 0).op
          [t, e.tag, refHome ref, refIdx ref, (r 1 0).value.toNat]])) ∧
      (far = true → (stayRouted s (refMod ref) = false ∨ peerLost s (refMod ref) = true) →
        AnswersAt (p.1 t f) s t (fun v => ∃ n,
          (v.tile t).stays = x.stays ++ [{ r 2 0 with res := n, stat := 0x03 }] ∧ Tile.SameData x (v.tile t) ∧
          v.regs = s.regs ∧ v.out = s.out)))

/-- O22. R198, R207, R209: what each operation does at its home. SINIT loads TARGET; SARRIVE adds 1 and answers the
generation as its token, and the arrival that reaches TARGET starts the next generation and releases the waiters; SADD adds
to an event counter modulo 2^32; a wait that is satisfied is answered at once and else registered while there is an entry;
SREAD answers what the counter shows. An operation that does not fit its counter is refused with PERMISSION (0x0E), one in
a failed registration with UNREACHABLE (0x03), and nothing but these changes a counter. -/
def Obligations.StayOperationsAtHome : Prop :=
  ∀ (s : State) (who : Waiter) (op home idx : Nat) (val : BitVec 32),
    let c := s.ctr home idx
    let u := (homeOp s who op home idx val).1
    let r := (homeOp s who op home idx val).2
    let refused (st : Nat) := (∃ v, r = .done v st) ∧ u.stay = s.stay
    let sat := if op = 0xD2 then c.gen ≠ val else 0 ≤ (c.value - val).toInt
    (∀ h i, ctrKey h i ≠ ctrKey home idx → u.ctr h i = s.ctr h i) ∧
    (ctrExists home idx = false → refused 0x0E) ∧
    (ctrExists home idx = true → op = 0xD0 →
      ((∃ w ∈ s.stay.waits, w.home = home ∧ w.idx = idx) ∨ (collOf s home idx).isSome = true → refused 0x0E) ∧
      ((∀ w ∈ s.stay.waits, ¬ (w.home = home ∧ w.idx = idx)) → collOf s home idx = none →
        u.ctr home idx = ⟨0, val, 0⟩ ∧ r = .done 0 0)) ∧
    (ctrExists home idx = true → op ∈ [0xD1, 0xD2, 0xD3, 0xD4, 0xD5, 0xD6] → ctrFailed s home idx = true →
      refused 0x03) ∧
    (ctrExists home idx = true → ctrFailed s home idx = false →
      (op = 0xD1 → c.target = 0 → refused 0x0E) ∧
      (op = 0xD1 → c.target ≠ 0 → c.value + 1 ≠ c.target →
        u.ctr home idx = ⟨c.value + 1, c.target, c.gen⟩ ∧ u.stay.waits = s.stay.waits ∧ r = .done c.gen.toNat 0) ∧
      (op = 0xD1 → c.target ≠ 0 → c.value + 1 = c.target →
        u.ctr home idx = ⟨0, c.target, c.gen + 1⟩ ∧ r = .done c.gen.toNat 0 ∧
        u.stay.waits = s.stay.waits.filter (fun w =>
          !(w.home == home && w.idx == idx && w.sat ⟨0, c.target, c.gen + 1⟩))) ∧
      (op = 0xD2 → c.target = 0 → refused 0x0E) ∧
      (op = 0xD5 → c.target ≠ 0 → refused 0x0E) ∧
      ((op = 0xD2 ∧ c.target ≠ 0 ∨ op = 0xD5 ∧ c.target = 0) → u.ctr home idx = c ∧
        (sat → r = .done c.shown 0 ∧ u.stay.waits = s.stay.waits) ∧
        (¬ sat → waitRoom s home who = true → r = .reg val.toNat ∧
          u.stay.waits = s.stay.waits ++ [⟨home, idx, who, decide (op = 0xD2), val⟩]) ∧
        (¬ sat → waitRoom s home who = false → r = .full val.toNat ∧ u.stay.waits = s.stay.waits)) ∧
      (op = 0xD3 → c.target ≠ 0 → c.value + 1 = c.target →
        u.ctr home idx = ⟨0, c.target, c.gen + 1⟩ ∧ r = .done (c.gen + 1).toNat 0) ∧
      (op = 0xD3 → c.target ≠ 0 → c.value + 1 ≠ c.target → waitRoom s home who = true →
        u.ctr home idx = ⟨c.value + 1, c.target, c.gen⟩ ∧ r = .reg c.gen.toNat ∧
        u.stay.waits = s.stay.waits ++ [⟨home, idx, who, true, c.gen⟩]) ∧
      (op = 0xD4 → c.target ≠ 0 → refused 0x0E) ∧
      (op = 0xD4 → c.target = 0 → u.ctr home idx = ⟨c.value + val, 0, c.gen⟩ ∧ r = .done (c.value + val).toNat 0 ∧
        u.stay.waits = s.stay.waits.filter (fun w =>
          !(w.home == home && w.idx == idx && w.sat ⟨c.value + val, 0, c.gen⟩))) ∧
      (op = 0xD6 → u = s ∧ r = .done c.shown 0))

/-- O23. R198 to R200, R206, R207, R209, R210, R373, R405: a request is performed at its home, after its fence and after the
earlier ones of its Span to the counter in its class, and its answer comes back: the result
goes to RD as VALUE and STATUS, a registration or refusal is noted, a release ends the wait, a refused wait is repeated,
a probe is answered for a registered wait, and a wait without an answer completes with UNREACHABLE (0x03). A module that
takes nothing answers UNREACHABLE. A message for
another module is forwarded with one hop less, or dropped and counted. -/
def Obligations.StayMessages : Prop :=
  (∀ (s : State) (t tag kind val status : Nat) (q : StayRec),
    let x := s.tile t
    s.live = true → stayRec s t tag = some q →
    (q.ph = 0 → fenceClear s t tag ((decStay q.w0).fs.toNat - 4) 1 0 = false →
      exec (.stayCounterRequest (.tile t tag)) s = .next s) ∧
    (q.ph = 0 → fenceClear s t tag ((decStay q.w0).fs.toNat - 4) 1 0 = true → ∀ p, stayRec (fenceEnds s t q) t tag = some p →
      exec (.stayCounterRequest (.tile t tag)) s =
        .next (if p.far = true ∨ stayBehind (fenceEnds s t q) t p = false then staySendRec (fenceEnds s t q) t p
          else fenceEnds s t q)) ∧
    (q.ph = 1 → q.far = false → stayBehind s t q = true → exec (.stayCounterRequest (.tile t tag)) s = .next s) ∧
    (q.ph = 1 → q.far = false → stayBehind s t q = false → exec (.stayCounterRequest (.tile t tag)) s =
      .next (stayAnswer (homeOp s (.tile t tag) q.op (refHome q.ref) (stayIdx s t q) q.value).1 t tag
        (homeOp s (.tile t tag) q.op (refHome q.ref) (stayIdx s t q) q.value).2)) ∧
    (q.ph = 2 → AnswersAt (.stayAck t tag kind val status) s t (fun v => StayEnded x q q.res q.stat (v.tile t))) ∧
    (q.ph = 1 → q.far = true → kind = 0 → AnswersAt (.stayAck t tag kind val status) s t (fun v => StayEnded x q val status (v.tile t))) ∧
    (q.ph = 1 → q.far = true → q.wait = true → kind = 1 → s.tstate t ≠ 3 →
      exec (.stayAck t tag kind val status) s = .next (stayAnswer s t tag (.reg val))) ∧
    (q.ph = 1 → q.far = true → q.wait = true → 2 ≤ kind → s.tstate t ≠ 3 →
      exec (.stayAck t tag kind val status) s = .next (stayAnswer s t tag (.full val))) ∧
    (q.ph = 1 → q.far = true → q.wait = true → 1 ≤ kind → s.tstate t = 3 → exec (.stayAck t tag kind val status) s =
      .next (stayBack (stayAnswer s t tag (if kind = 1 then .reg val else .full val)) t q val)) ∧
    (q.ph = 5 → AnswersAt (.stayRelease t tag val status) s t (fun v => StayEnded x q q.res q.stat (v.tile t))) ∧
    (q.ph = 3 → q.far = true → AnswersAt (.stayRelease t tag val status) s t (fun v => StayEnded x q val status (v.tile t))) ∧
    (q.ph = 4 → exec (.stayWaitRetry t tag) s = .next (if q.far then staySendRec s t q else staySent s t tag)) ∧
    (q.ph = 3 → q.far = true → q.wait = true →
      exec (.stayWaitProbe (.send t tag)) s =
        .next (stayTell s 2 (refMod q.ref) 0xD7 [t, q.tag, refHome q.ref, refIdx q.ref]) ∧
      exec (.stayWaitProbe (.answer t tag)) s = .next (mapStay s t tag (fun r => { r with heard := s.clk.fc }))) ∧
    (q.far = true → q.ph ≠ 0 → q.ph ≠ 2 → ∃ v n, exec (.stayWaitTimeout t tag) s = .next (stayEnd v t q n 0x03))) ∧
  (∀ (s : State) (m id cls op home idx val : Nat), s.boot.off ≠ 6 → inboundOff s = true →
    (op = 0xD8 → exec (.stayCounterRequest (.remote m id cls op home idx val)) s = .next s) ∧
    (op ≠ 0xD8 → ∃ s' v, s'.stay = s.stay ∧
      exec (.stayCounterRequest (.remote m id cls op home idx val)) s = .next (answerTo s' m id cls (.done v 0x03)))) ∧
  (∀ (s : State) (m id cls op home idx val : Nat), s.boot.off ≠ 6 → inboundOff s = false → s.live = true →
    (op = 0xD8 → exec (.stayCounterRequest (.remote m id cls op home idx val)) s = .next (withdraw s m id home idx)) ∧
    (op ≠ 0xD8 → op ≠ 0xD0 → collGrants s m home idx = true →
      exec (.stayCounterRequest (.remote m id cls op home idx val)) s =
        .next (answerTo (homeOp s (.remote m id cls) op home idx (BitVec.ofNat 32 val)).1 m id cls
          (homeOp s (.remote m id cls) op home idx (BitVec.ofNat 32 val)).2)) ∧
    (op ≠ 0xD8 → (op = 0xD0 ∨ collGrants s m home idx = false) → ∃ s' v, s'.stay = s.stay ∧
      exec (.stayCounterRequest (.remote m id cls op home idx val)) s = .next (answerTo s' m id cls (.done v 0x0E))) ∧
    ((∃ w ∈ s.stay.waits, (∃ c, w.who = .remote m id c) ∧ w.home = home ∧ w.idx = idx) →
      exec (.stayWaitProbe (.recv m id cls home idx)) s = .next (stayTell s cls m 0xE2 [id]))) ∧
  (∀ (s : State) (pier cls dest kind hops : Nat) (args : List Nat), s.up = true → pier < s.asm.piers → dest ≠ actId s →
    (hops ≠ 0 → stayRouted s dest = true → exec (.stayForward pier cls dest kind hops args) s =
      .next (stayPut s ⟨cls, dest, kind, hops - 1, args⟩)) ∧
    ((hops = 0 ∨ stayRouted s dest = false) → Answers (.stayForward pier cls dest kind hops args) s (fun u =>
      u = { s with regs := u.regs } ∧ u.fld .CLX_STAY_CFG [] CLX_STAY_CFG.STAY_DROP =
        min (2 ^ (CLX_STAY_CFG.STAY_DROP.hi + 1 - CLX_STAY_CFG.STAY_DROP.lo) - 1)
          (s.fld .CLX_STAY_CFG [] CLX_STAY_CFG.STAY_DROP + 1)))) ∧
  (∀ (s : State) (dest : Nat) (x : StayMsg) (l r : List StayMsg), s.up = true → s.stay.held = l ++ x :: r → x.dest = dest →
    (∀ y ∈ l, y.dest ≠ dest) → Answers (.stayForwardTimeout dest) s (fun u => u.stay.held = l ++ r ∧
      u.fld .CLX_STAY_CFG [] CLX_STAY_CFG.STAY_DROP =
        min (2 ^ (CLX_STAY_CFG.STAY_DROP.hi + 1 - CLX_STAY_CFG.STAY_DROP.lo) - 1)
          (s.fld .CLX_STAY_CFG [] CLX_STAY_CFG.STAY_DROP + 1)))

/-- O24. R211 to R215: a write of KST_COLL_ID that sets VALID registers the ID with the bitmap as read, unless the ID or a
window is in use or the bitmap cannot be read: then the write is discarded. One that clears it ends the registration. ACTIVE
is set at once and cleared once RUN is 0, a clear being held until then, and a later write of 1 taking its place. A release
with work left ends that work as a failure does and takes effect once RUN is 0. ABORT fails the registration: the waiters at
every counter of its window are released, its running Lattice descriptors end with UNREACHABLE, and those posted but not
started are marked to complete with CANCELLED. -/
def Obligations.CollectiveRegistrations : Prop :=
  ∀ (s : State) (n : Nat) (w : BitVec 64) (ext : Ext), s.live = true → n < 64 →
    let f (u : State) (g : Fld) := u.fld .KST_COLL_ID [n] g
    let win := s.rd .KST_COLL_WIN [n]
    let taken := (∃ m, m < 64 ∧ m ≠ n ∧ collValid s m = true ∧
        (s.fld .KST_COLL_ID [m] KST_COLL_ID.COLL_ID = fget w.toNat KST_COLL_ID.COLL_ID ∨
          winsMeet win (s.rd .KST_COLL_WIN [m]) = true)) ∨
      (∃ p ∈ s.tiles, dispatching s p.1 = true ∧ winsMeet win (s.rd .TILE_STAY_WIN (tix p.1)) = true)
    (collValid s n = false → taken → exec (.collRegister n w ext) s = .next (discardReg s .KST_COLL_ID [n])) ∧
    (∀ s1, collValid s n = false → ¬ taken → readMemb s n (fget w.toNat KST_COLL_ID.CTX_ID) ext = some (s1, none) →
      exec (.collRegister n w ext) s = .next (discardReg s1 .KST_COLL_ID [n])) ∧
    (∀ s1 m, collValid s n = false → ¬ taken → readMemb s n (fget w.toNat KST_COLL_ID.CTX_ID) ext = some (s1, some m) →
      fget w.toNat KST_COLL_ID.ABORT = 0 → fget w.toNat KST_COLL_ID.ACTIVE = 1 →
      Answers (.collRegister n w ext) s (fun u => collValid u n = true ∧ mget 0 u.stay.memb n = m ∧
        f u KST_COLL_ID.COLL_ID = fget w.toNat KST_COLL_ID.COLL_ID ∧ f u KST_COLL_ID.ACTIVE = 1 ∧
        f u KST_COLL_ID.CTX_ID = fget w.toNat KST_COLL_ID.CTX_ID)) ∧
    (∀ s1 m, collValid s n = false → ¬ taken → readMemb s n (fget w.toNat KST_COLL_ID.CTX_ID) ext = some (s1, some m) →
      fget w.toNat KST_COLL_ID.ABORT = 0 → fget w.toNat KST_COLL_ID.ACTIVE = 0 →
      ∃ v, exec (.collRegister n w ext) s = .next (collActiveWrite v n false) ∧ collValid v n = true ∧
        mget 0 v.stay.memb n = m) ∧
    (collValid s n = false → Answers (.collRelease n w) s (fun u => u = { s with regs := u.regs } ∧
      collValid u n = false ∧ f u KST_COLL_ID.COLL_ID = fget w.toNat KST_COLL_ID.COLL_ID ∧
      RegsKept [regAddr .KST_COLL_ID [n]] s u)) ∧
    (collValid s n = true → collBusyWork s n = false → AnswersBy collBusy (.collRelease n w) s (fun v =>
      collValid v n = false ∧ f v KST_COLL_ID.ACTIVE = 0 ∧ f v KST_COLL_ID.FAILED = 0 ∧ mfind v.stay.memb n = none ∧
      RegsKept [regAddr .KST_COLL_ID [n]] s v)) ∧
    (collValid s n = true → collBusyWork s n = true → AnswersBy (fun v => collRunZero v n) (.collRelease n w) s (fun v =>
      CollStopped s n v ∧ n ∈ v.stay.heldRel ∧ f v KST_COLL_ID.RUN = f s KST_COLL_ID.RUN)) ∧
    (f s KST_COLL_ID.RUN ≠ 0 → collRunZero s n = s) ∧
    (f s KST_COLL_ID.RUN = 0 → n ∈ s.stay.heldRel → ∃ v, collRunZero s n = collBusy v ∧ collValid v n = false ∧
      f v KST_COLL_ID.ACTIVE = 0 ∧ f v KST_COLL_ID.FAILED = 0 ∧ mfind v.stay.memb n = none) ∧
    (f s KST_COLL_ID.RUN = 0 → n ∉ s.stay.heldRel → n ∈ s.stay.heldClr → ∃ v, collRunZero s n = collBusy v ∧
      f v KST_COLL_ID.ACTIVE = 0 ∧ collValid v n = collValid s n ∧ n ∉ v.stay.heldClr) ∧
    (collValid s n = true → fget w.toNat KST_COLL_ID.VALID = 1 → fget w.toNat KST_COLL_ID.ABORT = 0 →
      Answers (.collActiveSet n w ext) s (fun u => collValid u n = true ∧ f u KST_COLL_ID.ACTIVE = 1 ∧
        n ∉ u.stay.heldClr ∧ f u KST_COLL_ID.RUN = f s KST_COLL_ID.RUN)) ∧
    (collValid s n = true → fget w.toNat KST_COLL_ID.VALID = 1 → fget w.toNat KST_COLL_ID.ABORT = 0 →
      f s KST_COLL_ID.RUN = 0 → AnswersBy collBusy (.collActiveClear n w ext) s (fun v =>
        f v KST_COLL_ID.ACTIVE = 0 ∧ v = { s with regs := v.regs } ∧ RegsKept [regAddr .KST_COLL_ID [n]] s v)) ∧
    (collValid s n = true → fget w.toNat KST_COLL_ID.VALID = 1 → fget w.toNat KST_COLL_ID.ABORT = 0 →
      f s KST_COLL_ID.RUN ≠ 0 → Answers (.collActiveClear n w ext) s (fun u =>
        f u KST_COLL_ID.ACTIVE = f s KST_COLL_ID.ACTIVE ∧ n ∈ u.stay.heldClr ∧
        RegsKept [regAddr .KST_COLL_ID [n]] s u)) ∧
    (collValid s n = true → fget w.toNat KST_COLL_ID.VALID = 1 → fget w.toNat KST_COLL_ID.ACTIVE = 1 →
      f s KST_COLL_ID.FAILED = 0 → Answers (.collAbort n w ext) s (fun u => CollStopped s n u ∧
        collValid u n = true ∧ ∀ h i, u.ctr h i = s.ctr h i)) ∧
    (collValid s n = true → fget w.toNat KST_COLL_ID.VALID = 1 → fget w.toNat KST_COLL_ID.ACTIVE = 0 →
      AnswersBy (fun v => collFail v n) (.collAbort n w ext) s (fun v =>
        ∃ v0, v = collActiveWrite v0 n false ∧ v0 = { s with regs := v0.regs } ∧ collValid v0 n = true ∧
          RegsKept [regAddr .KST_COLL_ID [n]] s v0))

/-- O25. R41, R216, R218, R219, R409: a tagged write is refused with UNREACHABLE while the module refuses peers, and waits
while a part of its Pier's gate is full. A PESSIMISTIC write is held at the gate and an OPTIMISTIC one is performed, acknowledged and its
line recorded, which binds the epoch to its context; each arrival is counted, those of other Piers by their report. CONFIRM takes the count into the gate; REVOKE,
an excess of writes and the timeout revoke the epoch: what it wrote is poisoned, the log is written and its tag is resolved.
A write or message of a resolved epoch counts as late. -/
def Obligations.EpochGates : Prop :=
  ∀ (s : State) (tag : Nat),
    let e := (gateEp s tag).getD (gateNew s tag)
    (∀ (pier dest a : Nat) (data : BitVec 1024) (mask : BitVec 128) (pz : BitVec 4) (ext : Ext),
      let open_ := s.boot.off ≠ 6 ∧ inboundOff s = false ∧ s.live = true ∧ pier < s.asm.piers
      let ready := open_ ∧ gateFull s pier = false ∧ peerInOk s dest = true ∧ tag ∉ s.gate.resolved
      let x := e.arrive pier s.clk.fc
      (∀ t act s1, ready → tagInteg tag = 0 → peerLine s a mask = (.ok t act, s1) ∨
          (s1 = s ∧ ∃ s', peerLine s a mask = (.held, s')) →
        ∃ v, gateEp v tag = some { x with held := x.held ++ [⟨pier, a, ⟨data, pz, 0⟩, mask⟩] } ∧
          v = { s1 with gate := v.gate } ∧
          exec (.epochTaggedWrite pier dest tag a data mask pz ext) s =
            .next ((gateCheck (gateSync v) tag ext).getD s)) ∧
      (∀ t act s1 s2, ready → tagInteg tag = 1 → peerLine s a mask = (.ok t act, s1) →
        gateHeld s1 tag (gateKey t) = false → maskedWrite s1 t act ⟨data, pz, 0⟩ mask ext = some s2 →
        ∃ e' s3, s3.out = s2.out ++ [.resp (peerWho (tagModule tag)) (tgtLost s2 t) []] ∧ s3.mem = s2.mem ∧
          (∃ r ∈ e'.recs, r.2 = gateKey t) ∧ e'.tag = tag ∧ e'.count = x.count ∧ boundCtx s2 t a ∈ e'.ctxs ∧
          exec (.epochTaggedWrite pier dest tag a data mask pz ext) s =
            .next ((gateCheck (gateSync (gatePut s3 e')) tag ext).getD s)) ∧
      (s.boot.off ≠ 6 → inboundOff s = true →
        exec (.epochTaggedWrite pier dest tag a data mask pz ext) s = .next (gateAck s tag 0x03)) ∧
      (open_ → gateFull s pier = true → exec (.epochTaggedWrite pier dest tag a data mask pz ext) s = .next s) ∧
      (open_ → gateFull s pier = false → peerInOk s dest = true → tag ∈ s.gate.resolved →
        exec (.epochTaggedWrite pier dest tag a data mask pz ext) s = .next (gateAck (gateLate s) tag 0)) ∧
      (open_ → gateFull s pier = false → peerInOk s dest = false →
        exec (.epochTaggedWrite pier dest tag a data mask pz ext) s = .next (gateAck (logFail s .peer a) tag 0x0E))) ∧
    (∀ (pier : Nat) (ext : Ext) (e : EpochIn), s.live = true → gateEp s tag = some e → e.confirm = none →
      mget 0 e.unrep pier ≠ 0 → Answers (.epochArrivalReport pier tag ext) s (fun u =>
        gateEp u tag = some { e with unrep := mins e.unrep pier 0, count := e.count + mget 0 e.unrep pier } ∧
        u = { s with gate := u.gate })) ∧
    (∀ (n : Nat) (ext : Ext), s.live = true → tag ∉ s.gate.resolved →
      (e.count < n → Answers (.epochConfirmReceived tag n ext) s (fun u =>
        gateEp u tag = some { e with confirm := some n } ∧ u = { s with gate := u.gate })) ∧
      (n < e.count → exec (.epochConfirmReceived tag n ext) s =
        .next (gateRevoke (gatePut s { e with confirm := some n }) { e with confirm := some n } 2)) ∧
      (∀ s1, e.count = n → gatePerform (gatePut s { e with confirm := some n }) tag e.held ext = some s1 →
        exec (.epochConfirmReceived tag n ext) s = .next (unbindEpoch (gateDrop s1 tag) tag false))) ∧
    (∀ n : Nat, s.live = true → tag ∉ s.gate.resolved → exec (.epochRevokeReceived tag n) s = .next (gateRevoke s e 0)) ∧
    (∀ e : EpochIn, s.live = true → gateEp s tag = some e → e.unrep ≠ [] →
      exec (.epochGateTimeout tag) s = .next (gateRevoke s e 1)) ∧
    (s.live = true → tag ∈ s.gate.resolved → ∀ (n : Nat) (ext : Ext),
      exec (.epochConfirmReceived tag n ext) s = .next { s with gate := { s.gate with late := s.gate.late + 1 } } ∧
      exec (.epochRevokeReceived tag n) s = .next { s with gate := { s.gate with late := s.gate.late + 1 } }) ∧
    (∀ (e : EpochIn) (cause : Nat), (∀ r ∈ e.recs, r.2 % 2 = 1) → ∃ v, gateRevoke s e cause = unbindEpoch (gateDrop v e.tag) e.tag true ∧
      v.fld .KST_REVOKE_CNT [] KST_REVOKE_CNT.COUNT =
        min (2 ^ (KST_REVOKE_CNT.COUNT.hi + 1 - KST_REVOKE_CNT.COUNT.lo) - 1)
          (s.fld .KST_REVOKE_CNT [] KST_REVOKE_CNT.COUNT + 1) ∧
      (∀ r ∈ e.recs, r.2 / 2 % 8192 ∈ (v.tile (r.2 / 2 / 8192)).poison) ∧
      (∀ t a, mget 0 (v.tile t).mem a = mget 0 (s.tile t).mem a))

/-! The Lattice. -/

/-- O26. R215, R221 to R224, R231: a doorbell inside the ring of an enabled queue posts the descriptors up to its tail, and
another is discarded; DISABLE stops the queue at what is posted and under ABORT_EN ends what runs with CANCELLED. A head with
the wrong SEQ is read again, 8 times at most, and then completes with STALE (0x06); a head cut off by a disable or a failure, or
refused by a check of R223, completes without a start; one that passes starts as its kind; a descriptor that has done its
work is completed with its status, signals, leaves its queue and lowers RUN. -/
def Obligations.LatticeQueues : Prop :=
  ∀ (s : State) (pier q : Nat), s.live = true → pier < s.asm.piers → q < 16 →
    let x := s.latQ pier q
    (∀ w : BitVec 64, let tail := fget w.toNat LAT_DB.TAIL
      (s.bit .LAT_Q_CTL [pier, q] LAT_Q_CTL.EN = true → tail < latSize s pier q →
        Answers (.latDoorbell pier q w) s (fun u =>
          u.latQ pier q = { x with tail := tail,
                                   posted := x.posted + (tail + latSize s pier q - x.tail) % latSize s pier q } ∧
          (∀ k, k ≠ 16 * pier + q → mfind u.lat.qs k = mfind s.lat.qs k) ∧ u = { s with lat := u.lat, regs := u.regs } ∧
          RegsKept [regAddr .LAT_Q_STAT [pier, q]] s u)) ∧
      ((s.bit .LAT_Q_CTL [pier, q] LAT_Q_CTL.EN = false ∨ latSize s pier q ≤ tail) →
        exec (.latDoorbell pier q w) s = .next (discardReg s .LAT_DB [pier, q]))) ∧
    (∀ w : BitVec 64, s.bit .LAT_Q_CTL [pier, q] LAT_Q_CTL.EN = true →
      s.bit .LAT_Q_CTL [pier, q] LAT_Q_CTL.DISABLE = false →
      Answers (.latQDisable pier q w) s (fun u => (u.latQ pier q).cut = some x.posted ∧
        u.bit .LAT_Q_CTL [pier, q] LAT_Q_CTL.DISABLE = true ∧
        (u.latQ pier q).run = if fget w.toNat LAT_Q_CTL.ABORT_EN = 1 then
          x.run.map (fun r => { r with stat := statFold r.stat 0x01, fin := true }) else x.run)) ∧
    (∀ (ext : Ext) (s1 : State) (ws : List (BitVec 64)), latReady s pier q = true →
      latHead s pier q ext = some (s1, some ws) →
      (latSeqOk (s1.latQ pier q) ws = false → (s1.latQ pier q).cut = none → (s1.latQ pier q).tries + 1 < 8 →
        Answers (.latSeqReread pier q ext) s (fun u =>
          u.latQ pier q = { s1.latQ pier q with tries := (s1.latQ pier q).tries + 1 })) ∧
      (∀ s2, latSeqOk (s1.latQ pier q) ws = false → (s1.latQ pier q).cut = none → 8 ≤ (s1.latQ pier q).tries + 1 →
        latSkip s1 pier q ws 0x06 ext = some s2 → exec (.latSeqReread pier q ext) s = .next s2)) ∧
    (∀ (ext : Ext) (s1 : State) (r : LatRun) (n : Nat), latStart s pier q 1 ext = some (s1, r, n) → x.run = none →
      exec (.reduce pier q ext) s = .next (latBlocks (({ s1 with lat := { s1.lat with
          staged := s1.lat.staged.filter (fun (p : Nat × LatFrame) => !(p.1 == pier && latMatches r p.2)) } }).setLatQ pier q
        { s1.latQ pier q with run := some { r with
          frames := (s1.lat.staged.filter (fun (p : Nat × LatFrame) => p.1 == pier && latMatches r p.2)).map (fun (p : Nat × LatFrame) => p.2) } }) pier q
          (latOffs r) ext)) ∧
    (∀ (ws : List (BitVec 64)), (∀ c, x.cut = some c → latVerdict s pier q ws = some (if x.started < c then 0x01 else 0x09)) ∧
      (x.cut = none → (∀ c ∈ s.stay.cuts, ¬ (c.1 = latCollId ws ∧ c.2.1 = 16 * pier + q)) →
        (latDescOk ws = false ∨ collById s (latCollId ws) = none → latVerdict s pier q ws = some 0x0E) ∧
        (∀ n, latDescOk ws = true → collById s (latCollId ws) = some n →
          (collCtx s n ≠ s.fld .LAT_Q_CTL [pier, q] LAT_Q_CTL.CTX_ID → latVerdict s pier q ws = some 0x0E) ∧
          (collCtx s n = s.fld .LAT_Q_CTL [pier, q] LAT_Q_CTL.CTX_ID → dW ws 6 32 32 = 0 →
            latVerdict s pier q ws =
              if s.bit .KST_COLL_ID [n] KST_COLL_ID.FAILED = true then some 0x03 else none)))) ∧
    (∀ (status st : Nat) (ext : Ext) (s1 s2 : State) (ws : List (BitVec 64)), latReady s pier q = true →
      latHead s pier q ext = some (s1, some ws) → latVerdict s1 pier q ws = some st →
      ((s1.latQ pier q).cut.isSome = true ∨ latSeqOk (s1.latQ pier q) ws = true) →
      latSkip s1 pier q ws st ext = some s2 → exec (.latDescComplete pier q status ext) s = .next s2) ∧
    (∀ p ∈ rowKinds, ∀ (ext : Ext) (s1 s2 s3 : State) (r r' : LatRun)
        (n : Nat) (bs : List (BitVec 8)) (pz : List Bool),
      latStart s pier q p.2 ext = some (s1, r, n) →
      engRead s1 (collCtx s1 n) (unitLat pier) false (dW r.words 4 41 0) (dW r.words 1 31 0 * 8) ext = some (s2, bs, pz, 0) →
      (∀ b ∈ pz, b = false) → rowEntries s2 pier q n (r.fold 0) 0 (words8 bs) ext = some (s3, r') →
      Answers (p.1 pier q ext) s (fun u => (u.latQ pier q).run = some r' ∧ u.mem = s3.mem ∧ u.out = s3.out)) ∧
    (∀ (status : Nat) (ext : Ext) (r : LatRun) (s1 : State), x.run = some r → latDone r = true →
      latFinish s pier q r.words r.slot (statFold r.stat (status % 16)) (if dW r.words 0 7 0 = 1 then 0 else r.dropped)
        ext = some s1 →
      exec (.latDescComplete pier q status ext) s =
        let s2 := if dW r.words 6 32 32 = 1 then sigAdd s1 (dW r.words 6 15 12) (dW r.words 6 11 0) else s1
        let s3 := collRun (s2.setLatQ pier q { s2.latQ pier q with run := none }) (latCollId r.words) false
        .next (if status % 16 = 0x03 then latFrameLost s3 pier r else s3)) ∧
    (∀ n r, collById s n = some r → s.fld .KST_COLL_ID [r] KST_COLL_ID.RUN = 0 → collRun s n true =
      s.setFld .KST_COLL_ID [r] KST_COLL_ID.RUN 1) ∧
    (∀ (status : Nat) (ext : Ext) (r : LatRun), x.run = some r → latDone r = false →
      exec (.latDescComplete pier q status ext) s = .next s)

/-- O27. R215, R225 to R230, R250, R399: answers leave on the responses' channel of a link, at once where it is free and
ACTIVE. A full staging buffer holds every frame back. A frame goes to the running reduction it belongs to or is staged, and is accepted; one of a
sender outside the registration is refused. Two INT32 inputs combine by saturating addition, maximum or minimum. A silent
port ends the reduction with UNREACHABLE, and registrations with AUTO_FAIL fail whose member is there. An index entry with SKIP does nothing, one for a module that is no member folds
PERMISSION; a row or request is answered by its target, and an answer is folded at its initiator,
where UNREACHABLE marks the module lost. -/
def Obligations.LatticeData : Prop :=
  (∀ (s : State) (pier port m coll step off n : Nat) (data : BitVec 2048) (poison : Bool) (ext : Ext),
    s.live = true → pier < s.asm.piers → port < 6 → collById s coll = some n →
    s.bit .KST_COLL_ID [n] KST_COLL_ID.FAILED = false →
    let f : LatFrame := ⟨port, coll, step, off, (List.range 256).map (fun i => data.extractLsb' (8 * i) 8), poison⟩
    let room := (s.lat.staged.filter (fun p => p.1 == pier)).length < 32768
    let answer (u : State) (k : Nat) : State := u.sendOn (6 * pier + port) 1 (.latFrame (6 * pier + port) k [coll, step, off])
    (¬ room → exec (.latFrame pier port m coll step off data poison ext) s = .next s) ∧
    (room → collMember s n m = false → exec (.latFrame pier port m coll step off data poison ext) s =
      .next (answer (latRefused s pier) 1)) ∧
    (room → collMember s n m = true →
      (∀ q, q < 16 → ∀ r, (s.latQ pier q).run = some r → latMatches r f = false ∨ r.fin = true) →
      exec (.latFrame pier port m coll step off data poison ext) s =
        .next (answer { s with lat := { s.lat with staged := s.lat.staged ++ [(pier, f)] } } 2)) ∧
    (∀ q r, room → collMember s n m = true → q < 16 → (s.latQ pier q).run = some r → latMatches r f = true → r.fin = false →
      (∀ k, k < q → ∀ r, (s.latQ pier k).run = some r → latMatches r f = false ∨ r.fin = true) →
      exec (.latFrame pier port m coll step off data poison ext) s =
        .next (latBlocks (answer
          (s.setLatQ pier q { s.latQ pier q with run := some { r with frames := r.frames ++ [f] } }) 2) pier q [off] ext))) ∧
  (∀ (s : State) (l ch : Nat) (x : OutMsg), s.bit .CLX_LINK_STAT (clxIx l) CLX_LINK_STAT.PEER_VALID = true →
    (clxState s l = 6 → (∀ y ∈ (s.vc l).q, y.1 ≠ ch) → s.sendOn l ch x = { s with out := s.out ++ [x] }) ∧
    (clxState s l = 6 ∨ clxState s l = 7 → (clxState s l = 7 ∨ ∃ y ∈ (s.vc l).q, y.1 = ch) →
      s.sendOn l ch x = s.setVc l { s.vc l with q := (s.vc l).q ++ [(ch, x)] })) ∧
  (∀ (s : State) (pier q port : Nat) (r : LatRun), s.live = true → (s.latQ pier q).run = some r → dW r.words 0 7 0 = 1 →
    (dW r.words 0 38 32 >>> (port + 1)) % 2 = 1 → port < 6 →
    (∃ o ∈ latOffs r, o ∉ r.made ∧ ∀ f ∈ r.frames, ¬ (f.port = port ∧ f.off = o)) →
    AnswersBy (fun v => match latPortMod v pier port with
        | some m => autoFail v m
        | none => v) (.latPortTimeout pier q port) s (fun v =>
      (v.latQ pier q).run = some { r with stat := statFold r.stat 0x03, fin := true } ∧
      v = { s with lat := v.lat, regs := v.regs } ∧ RegsKept [regAddr .LAT_Q_STAT [pier, q]] s v)) ∧
  (∀ (a b : Nat), a < 2 ^ 32 → b < 2 ^ 32 →
    latElem 14 0 [a, b] = some (int32Result 0x40 a b) ∧ latElem 14 1 [a, b] = some (int32Result 0x45 a b) ∧
    latElem 14 2 [a, b] = some (int32Result 0x44 a b) ∧ latElem 14 0 [a] = some (a, FFlags.none)) ∧
  (∀ (s : State) (pier q n : Nat) (r : LatRun) (i w : Nat) (ext : Ext),
    (ieSkip w = true → rowEntry s pier q n r i w ext = some (s, r)) ∧
    (ieSkip w = false → collMember s n (ieMod w) = false → rowEntry s pier q n r i w ext = some (s, r.fold 0x0E))) ∧
  (∀ (s : State) (pier : Nat) (ext : Ext), s.boot.off ≠ 6 → inboundOff s = true → pier < s.asm.piers →
    (∀ m coll buf row id data poison, exec (.latRowArrival pier (.scatter m coll buf row id data poison) ext) s =
      .next (rowBack s pier m 6 [id, 0x03, 0])) ∧
    (∀ m coll buf row id n, exec (.latRowArrival pier (.request m coll buf row id n) ext) s =
      .next (rowBack s pier m 5 [id, 0x03, 0, 0]))) ∧
  (∀ (s : State) (pier : Nat) (ext : Ext), s.boot.off ≠ 6 → inboundOff s = false → s.live = true → pier < s.asm.piers →
    (∀ m coll buf row id data poison s1 st dr, rowScatter s pier m coll buf row data poison ext = some (s1, some (st, dr)) →
      exec (.latRowArrival pier (.scatter m coll buf row id data poison) ext) s =
        .next (rowBack s1 pier m 6 [id, st, b2n dr])) ∧
    (∀ m coll buf row id n s1 st dr bs bad, rowFetch s pier m coll buf row n ext = some (s1, some (st, dr, bs, bad)) →
      exec (.latRowArrival pier (.request m coll buf row id n) ext) s =
        .next (rowBack s1 pier m 5 ([id, st, b2n dr, b2n bad] ++ bs.map (·.toNat)))) ∧
    (∀ q i st dr r k, q < 16 → (s.latQ pier q).run = some r → rowAwaited r i = some k →
      AnswersBy (fun v => if st = 0x03 then lostPeer v (rowMod k) else v) (.latRowArrival pier (.done q i st dr) ext) s
        (fun v => (v.latQ pier q).run =
            some { r.fold st with rows := r.rows.filter (· != k), dropped := r.dropped + b2n dr } ∧
          v = { s with lat := v.lat, regs := v.regs } ∧ RegsKept [regAddr .LAT_Q_STAT [pier, q]] s v)) ∧
    (∀ q i st dr bs bad, q < 16 → exec (.latRowArrival pier (.answer q i st dr bs bad) ext) s =
      .next (rowAnswer s pier q i st dr (some (bs, bad)) ext)))

/-! Coherence. -/

/-- O28. R258, R263 to R268, R270, R271, R277, R279, R284: a home NACKs a request with BUSY while a transaction is open on the
line, with HOLD while it would snoop an owner in its hold, with PINNED where the directory set has no way, with STARVE_WAIT
behind another marked request, and counts it; else it accepts it: RdS and RdU of a line nobody holds get it exclusively, RdS
of a shared line joins the sharers, RdU and Upg of one send SnpI to the others, RdO reads it and WrU writes memory; a full
set first back-invalidates a victim. WB writes an owner's line back, EvC drops a clean one, CompAck closes the transaction
and starts the hold of 32 FC cycles; NACK schedules the retry, which reaches the home again, and the sixteenth marks it
STARVE; the end of a hold serves who waits. -/
def Obligations.CoherenceRequests : Prop :=
  ∀ (s : State) (a line : Nat),
    let x := leaveWaits s a line
    let h := homeOf line
    let dirs := mfind s.mem.dirs line
    let front := (homeX s h).starve.find? (fun p => p.1 == line)
    (∀ k : MsgK,
      (∀ b, front = some (line, b) → b ≠ a → k ≠ .rdo → homeStops s k a line = some 3) ∧
      (front = none → (∀ t, mfind s.mem.txns line = some t → homeStops s k a line = some 0) ∧
        (mfind s.mem.txns line = none →
          (∀ d, heldLine s line = true → dirs = some d → 2 ≤ d.st → d.owner ≠ a → k ≠ .rdo → homeStops s k a line = some 1) ∧
          (heldLine s line = false → dirVictim s line = some none → (k = .rds ∨ k = .rdu ∨ k = .upg) →
            homeStops s k a line = some 2) ∧
          (heldLine s line = false → dirVictim s line ≠ some none → homeStops s k a line = none)))) ∧
    (∀ p ∈ reqOps, ∀ r, ReqReady s a line → MayIssue s p.2 a line → homeStops s p.2 a line = some r →
      Answers (p.1 a line) s (fun u => u.mem.net = s.mem.net ++ [msg .nack a line r noLine] ∧
        findReq u a line = some ⟨a, line, p.2, 0, false, false, noLine, 0, false⟩ ∧
        u.fld (homeCnt h).1 (homeCnt h).2 HOME_DIR_CNT.NACK_CNT =
          (s.fld (homeCnt h).1 (homeCnt h).2 HOME_DIR_CNT.NACK_CNT + 1) % 2 ^ 32 ∧
        u.mem.dirs = s.mem.dirs ∧ u.mem.lines = s.mem.lines ∧ u.mem.hbm = s.mem.hbm ∧ u.mem.txns = s.mem.txns)) ∧
    (∀ (v : BitVec 1024) (mask : BitVec 128) (pz : BitVec 4) (r : Nat), ReqReady s a line → MayIssue s .wru a line →
      homeStops s .wru a line = some r → Answers (.wru a line v mask pz) s (fun u =>
        u.mem.net = s.mem.net ++ [msg .nack a line r noLine] ∧ u.mem.hbm = s.mem.hbm ∧
        findReq u a line = some ⟨a, line, .wru, 0, false, false, ⟨v, pz, 0⟩, mask, false⟩)) ∧
    (∀ p ∈ reqOps, ReqReady s a line → MayIssue s p.2 a line → homeStops s p.2 a line = none →
      (p.2 = .rdo ∨ dirVictim s line = none) → exec (p.1 a line) s = .next (acceptReq s p.2 a line noLine 0)) ∧
    (∀ w d, ReqReady s a line → MayIssue s .rdu a line → homeStops s .rdu a line = none → dirVictim s line = some (some w) →
      mfind s.mem.dirs w = some d → d.bad = 0 →
      let sh := if d.st = 2 then [] else sharerList d.sharers 96
      let own := if d.st = 1 then [] else [d.owner]
      Answers (.rdu a line) s (fun u =>
        mfind u.mem.txns w = some { Txn.new .wback h noLine 0 with wait := sh ++ own, evict := some (.rdu, a, line) } ∧
        u.mem.net = s.mem.net ++ sh.map (fun b => msg .snpi b w h noLine) ++ own.map (fun b => msg .snpx b w h noLine) ∧
        findReq u a line = some ⟨a, line, .rdu, 0, false, false, noLine, 0, false⟩ ∧
        u.fld (homeCnt h).1 (homeCnt h).2 HOME_DIR_CNT.BACKINV_CNT =
          (s.fld (homeCnt h).1 (homeCnt h).2 HOME_DIR_CNT.BACKINV_CNT + 1) % 2 ^ 32)) ∧
    (ReqReady s a line → dirs = none →
      (∀ p ∈ [((.rds : Nat → Nat → Instr), MsgK.rds), (.rdu, .rdu)], MayIssue s p.2 a line →
        homeStops s p.2 a line = none → dirVictim s line = none → let d := homeSupply x line true
        exec (p.1 a line) s = .next (putTxn (dirPut (sendNet d.1 { msg .data a line 2 d.2 with fin := true }) line (dirOX a))
          line (some { Txn.new p.2 a noLine 0 with granted := true }))) ∧
      (MayIssue s .rdo a line → homeStops s .rdo a line = none → let d := homeSupply x line false
        exec (.rdo a line) s = .next (sendNet d.1 (msg .data a line 0 d.2))) ∧
      (∀ (v : BitVec 1024) (mask : BitVec 128) (pz : BitVec 4), MayIssue s .wru a line → homeStops s .wru a line = none →
        exec (.wru a line v mask pz) s =
          .next (sendNet (memWrite (lineWritten x line) line ⟨v, pz, 0⟩ mask) (msg .comp a line 0 noLine)))) ∧
    (∀ d, ReqReady s a line → dirs = some d → d.st = 1 → d.bad = 0 →
      let l := sharerList d.sharers a
      (MayIssue s .rds a line → homeStops s .rds a line = none → let m := homeSupply x line false
        exec (.rds a line) s = .next (sendNet (dirPut m.1 line (dirSH (addSharer d.sharers a))) (msg .data a line 1 m.2))) ∧
      (MayIssue s .rdu a line → homeStops s .rdu a line = none → l ≠ [] →
        let m := homeSupply (snoopAll x .snpi a line l) line true
        exec (.rdu a line) s = .next (putTxn (sendNet m.1 (msg .data a line 2 m.2)) line
          (some { Txn.new .rdu a noLine 0 with wait := l, comp := true, fwd := true }))) ∧
      (∀ c, agentLine s a line = some c → c.st = 1 → homeStops s .upg a line = none → d.sharers.getLsbD a = true → l ≠ [] →
        exec (.upg a line) s = .next (putTxn (sendNet (snoopAll (homeOwn x line) .snpi a line l) (msg .grant a line 4 noLine))
          line (some { Txn.new .upg a noLine 0 with wait := l, comp := true, fwd := true })))) ∧
    (∀ c d, s.live = true → a ≠ 73 → agentOk s a = true → mfind s.mem.txns line = none → HoldsLine s a line c →
      c.comp = true → dirs = some d → d.owner = a → d.bad = 0 →
      (∀ v, 8 ≤ a → 3 ≤ c.st → 2 ≤ d.st → exec (.wb a line v) s = .next (putTxn (dirPut
        (memWrite (dropCopy s a line) line c.v fullMask) line (if d.st = 3 then dirSH d.sharers else none)) line
          (some (Txn.new .wb a noLine 0)))) ∧
      (c.st = 2 → d.st = 2 → Answers (.evc a line) s (fun u => agentLine u a line = none ∧
        mfind u.mem.dirs line = none ∧ mfind u.mem.txns line = some (Txn.new .evc a noLine 0) ∧
        u.mem.hbm = s.mem.hbm))) ∧
    (∀ (e : VebEnt) (v : BitVec 1024), s.live = true → a < 8 → vebFind s a line = some e → e.sent = true →
      mfind s.mem.txns line = none → (∀ m ∈ s.mem.net, ¬ (m.k = .wback ∧ m.agent = a ∧ m.line = line)) →
      exec (.wb a line v) s = .next (sendNet (putTxn (serveWb s a line e.v) line (some (Txn.new .wb a noLine 0)))
        (msg .wback a line 0 noLine))) ∧
    (∀ (v : BitVec 1024) d, s.live = true → mfind s.mem.txns line = none → dirs = some d → 2 ≤ d.st → d.owner = 73 →
      exec (.wb 73 line v) s = .next (putTxn (serveWb s 73 line (.clean v)) line (some (Txn.new .wb 73 noLine 0)))) ∧
    (∀ v d, dirs = some d → d.bad = 0 → ¬ (2 ≤ d.st ∧ d.owner = a) → serveWb s a line v = s) ∧
    (∀ t m s1, s.live = true → a ≠ 73 → mfind s.mem.txns line = some t → t.granted = true → t.req = a →
      takeNet s .compack a line = some (m, s1) →
      exec (.compack a line) s = .next (closeTxn (startHold s1 line) line) ∧
      (t.evict = none → front = none → slotWinner s line = none → Answers (.compack a line) s (fun u =>
        mfind u.mem.txns line = none ∧ mfind u.mem.holds line = some (s.clk.fc + 32) ∧ u.mem.dirs = s.mem.dirs ∧
        u.mem.hbm = s.mem.hbm ∧ u.mem.lines = s.mem.lines))) ∧
    (∀ r m s1, s.live = true → takeNet s .nack a line = some (m, s1) → findReq s a line = some r →
      Answers (.nack a line) s (fun u =>
        findReq u a line = some { r with nacks := r.nacks + 1, waiting := true,
                                         starve := r.starve || decide (16 ≤ r.nacks + 1) } ∧
        (∀ g ix, cohStat a = some (g, ix) →
          u.fld g ix COH_AGENT_STAT.NACK_CNT = (s.fld g ix COH_AGENT_STAT.NACK_CNT + 1) % 2 ^ 32) ∧
        u.mem.net = s1.mem.net ∧ u.mem.dirs = s.mem.dirs ∧ u.mem.lines = s.mem.lines)) ∧
    (∀ r, s.live = true → findReq s a line = some r → exec (.nackRetry a line) s =
      .next (if r.waiting = false ∨ r.whole = true then s
        else if issues s r.k a line = true then arrive s r.k a line r.v r.mask r.starve
        else leaveWaits s a line)) ∧
    (∀ e, s.live = true → mfind s.mem.holds line = some e →
      let u := { s with mem := { s.mem with holds := mdel s.mem.holds line } }
      (front = none → slotWinner u line = none → exec (.winHoldExpire line) s = .next u) ∧
      (∀ r b, front = some (line, b) → homeStops u .rdu b line = none → findReq s b line = some r → r.whole = false →
        exec (.winHoldExpire line) s = .next (arrive u r.k b line r.v r.mask r.starve)) ∧
      (∀ b, front = none → slotWinner u line = some b → homeStops u .rdu b line ≠ some 1 →
        exec (.winHoldExpire line) s = .next (serveWaiting ((setHomeX u h { homeX u h with
            pend := (homeX u h).pend.filter (fun e => e.1 != line) }).setFld (homeStat h).1 (homeStat h).2
          HOME_DIR_STAT.PRIO_PTR ((b + 1) % 96)) b line)))

/-- O29. R259, R260, R262, R263, R272 to R275, R277, R284, R285: a snoop leaves the state that its kind gives a holder, its
data goes to the requester or under SnpX back to the home, and it is answered; a disabled cache answers I, and a WB already
sent is announced; a snoop of the host leaves the module. Each answer is taken off the transaction, which goes on when none is
left; data and grants install the line, which is acknowledged; the host's snoop takes or reads a far line; the injections arm
the home. -/
def Obligations.CoherenceSnoopsAndAnswers : Prop :=
  ∀ (s : State) (a line : Nat),
    (∀ p ∈ snoopOps, ∀ m s1, s.live = true → takeNet s p.2 a line = some (m, s1) →
      (∀ c, a ≠ 73 → HoldsLine s a line c → Answers (p.1 a line) s (fun u =>
        agentLine u a line = (if snoopNext p.2 c.st = 0 then none else some { c with st := snoopNext p.2 c.st }) ∧
        (∀ b l, lineKey b l ≠ lineKey a line → agentLine u b l = agentLine s b l) ∧
        u.mem.net = s1.mem.net ++ snoopAnswer p.2 a line m c.st c.v ∧
        u.mem.dirs = s.mem.dirs ∧ u.mem.hbm = s.mem.hbm ∧ u.mem.txns = s.mem.txns)) ∧
      (∀ e, a < 8 → s.bit .SPAN_CACHE_CTL [a] SPAN_CACHE_CTL.EN = true → agentLine s a line = none →
        vebFind s a line = some e → e.sent = false → snoopNext p.2 e.st = 0 → 3 ≤ e.st → Answers (p.1 a line) s (fun u =>
          vebFind u a line = none ∧ u.mem.net = s1.mem.net ++ snoopAnswer p.2 a line m e.st e.v ∧
          u.mem.dirs = s.mem.dirs ∧ u.mem.hbm = s.mem.hbm ∧ u.mem.lines = s.mem.lines)) ∧
      (∀ e, a < 8 → s.bit .SPAN_CACHE_CTL [a] SPAN_CACHE_CTL.EN = true → agentLine s a line = none →
        vebFind s a line = some e → e.sent = true → Answers (p.1 a line) s (fun u =>
          vebFind u a line = some { e with snooped := true } ∧
          (∃ r ∈ u.mem.net, r.agent = a ∧ r.line = line ∧ r.wbSent = true ∧ (r.k = .rspi ∨ r.k = .rspdata)) ∧
          u.mem.dirs = s.mem.dirs ∧ u.mem.hbm = s.mem.hbm ∧ u.mem.lines = s.mem.lines)) ∧
      (a < 8 → s.bit .SPAN_CACHE_CTL [a] SPAN_CACHE_CTL.EN = false →
        exec (p.1 a line) s = .next (sendNet s1 (msg .rspi a line 0 noLine))) ∧
      (a = 73 → ∃ k, exec (p.1 a line) s = .next (s1.send (.coh (farKind s1 k) 73 line [m.arg])))) ∧
    (∀ st, snoopNext .snps st = (if st = 3 ∨ st = 4 then 3 else if st = 1 ∨ st = 2 then 1 else 0) ∧
      snoopNext .snpo st = st ∧ snoopNext .snpi st = 0 ∧ snoopNext .snpu st = 0 ∧ snoopNext .snpx st = 0) ∧
    (∀ p ∈ respOps, ∀ (fwd : Bool) (v : BitVec 1024) t, s.live = true → mfind s.mem.txns line = some t → a ∈ t.wait →
      (∀ m s1, a ≠ 73 → takeNet s p.2 a line = some (m, s1) →
        exec (p.1 a line fwd v) s = .next (afterAnswer s1 line (t.answered s1 p.2 a line m))) ∧
      (a = 73 →
        let m : CohMsg := { hostRsp p.2 73 line fwd false v with arg := if p.2 = .rsps then 1 else if p.2 = .rspo then 3 else 0 }
        let g := if t.k = .rds then 1 else if t.k = .rdo then 0 else 4
        let s1 := if fwd then sendNet s (msg .fwddata t.req line g (.clean v)) else s
        exec (p.1 a line fwd v) s = .next (afterAnswer s1 line (t.answered s1 p.2 a line m)))) ∧
    (∀ (v : BitVec 1024) t m s1, s.live = true → a ≠ 73 → mfind s.mem.txns line = some t → a ∈ t.wait →
      takeNet s .rspdata a line = some (m, s1) →
      exec (.rspdata a line v) s = .next (afterAnswer s1 line (t.answered s1 .rspdata a line m))) ∧
    (∀ p ∈ [((.data : Nat → Nat → Instr), MsgK.data), (.fwddata, .fwddata)], ∀ m s1, s.live = true →
      takeNet s p.2 a line = some (m, s1) →
      (a = 73 → m.v.er = 0 → exec (p.1 a line) s = .next (s1.send (.coh 5 73 line [m.arg]))) ∧
      (a ≠ 73 → m.arg = 0 → exec (p.1 a line) s = .next s1) ∧
      (8 ≤ a → a ≠ 73 → m.arg ≠ 0 → (agentLines s a).length < agentCap a → Answers (p.1 a line) s (fun u =>
        agentLine u a line = some ⟨m.arg, m.v, 0, decide (m.arg = 1 ∨ m.fin = true)⟩ ∧
        u.mem.net = s1.mem.net ++ (if 2 ≤ m.arg ∧ m.fin = true then [msg .compack a line 0 noLine] else []) ∧
        u.mem.dirs = s.mem.dirs ∧ u.mem.hbm = s.mem.hbm)) ∧
      (∀ s2, a ≠ 73 → m.arg ≠ 0 → install s1 a line m.arg m.v (decide (m.arg = 1 ∨ m.fin = true)) = some s2 →
        exec (p.1 a line) s = .next (if 2 ≤ m.arg ∧ m.fin = true then sendNet s2 (msg .compack a line 0 noLine) else s2))) ∧
    (∀ m s1 c, s.live = true → takeNet s .grant a line = some (m, s1) → agentLine s a line = some c →
      Answers (.grant a line) s (fun u => agentLine u a line = some { c with st := 4, comp := false } ∧
        u.mem.net = s1.mem.net ∧ u.mem.dirs = s.mem.dirs ∧ u.mem.hbm = s.mem.hbm)) ∧
    (∀ c, c.comp = false → writable c = false) ∧
    (∀ m s1, s.live = true → takeNet s .comp a line = some (m, s1) →
      (a = 73 → exec (.comp a line) s = .next (s1.send (.coh 6 73 line []))) ∧
      (∀ c, a ≠ 73 → agentLine s a line = some c →
        Answers (.comp a line) s (fun u => agentLine u a line = some { c with comp := true } ∧
          u.mem.net = s1.mem.net ++ (if m.arg = 1 then [msg .compack a line 0 noLine] else []) ∧
          u.mem.dirs = s.mem.dirs ∧ u.mem.hbm = s.mem.hbm))) ∧
    (∀ m s1, s.live = true → takeNet s .wback a line = some (m, s1) → Answers (.wbAccepted a line) s (fun u =>
      vebFind u a line = none ∧ u.mem.lines = s.mem.lines ∧ u.mem.hbm = s.mem.hbm)) ∧
    (∀ e, s.live = true → s.mem.vebs.find? (fun e => e.span == a && !e.sent) = some e →
      exec (.vebWriteback a) s = .next (vebPut s a e.line (some { e with sent := true }))) ∧
    (∀ inv : Bool, s.live = true → isFar line = true → lineBusy s line = false → heldLine s line = false →
      (mfind s.mem.dirs line = none → exec (.hostSnoop line inv) s = .next (s.send (.coh 7 73 line [0]))) ∧
      (∀ d, mfind s.mem.dirs line = some d → d.st = 1 → d.bad = 0 → exec (.hostSnoop line inv) s = .next (if inv then
          (dirPut (invAll s (sharerList d.sharers 96) line) line none).send (.coh 7 73 line [0])
        else s.send (.coh 7 73 line [2]))) ∧
      (∀ d c, mfind s.mem.dirs line = some d → d.st = 2 → d.bad = 0 → d.owner ≠ 73 → HoldsLine s d.owner line c → 3 ≤ c.st →
        c.v.er = 0 → inv = true → exec (.hostSnoop line inv) s =
          .next ((dirPut (dropCopy s d.owner line) line none).send (.coh 7 73 line [1, c.v.data.toNat, c.v.pz.toNat])))) ∧
    (∀ t, s.live = true → mfind s.mem.txns line = some t → 73 ∈ t.wait → exec (.hostSnoopTimeout line) s =
      .next (recordAt (hostAgentLost s) (unitPier 0 0x0C) 2 0x11 0 none)) ∧
    (∀ h, s.live = true → (h < s.asm.stacks ∨ h = 12) →
      Answers (.injCe h) s (fun u => homeX u h = { homeX s h with injCe := true } ∧
        (∀ k, k ≠ h → homeX u k = homeX s k) ∧ u.regs = s.regs ∧ u.mem.dirs = s.mem.dirs ∧ u.mem.hbm = s.mem.hbm) ∧
      Answers (.injUe h) s (fun u => homeX u h = { homeX s h with injUe := true } ∧
        (∀ k, k ≠ h → homeX u k = homeX s k) ∧ u.regs = s.regs ∧ u.mem.dirs = s.mem.dirs ∧ u.mem.hbm = s.mem.hbm))

/-! The Span caches. -/

/-- O30. R282, R284, R287 to R298: a GO that is allowed starts the operation with BUSY and its progress at 0, one that is refused
sets ERR with PERMISSION (0x0E), one during another is discarded; ABORT marks it. Its scan
examines set by set or line by line, stops where the eviction buffer is full and says how far it came; a dirty line that it
writes back leaves through the buffer, and only when every such write is accepted the operation reports DONE and its status,
CANCELLED after ABORT, which may stop the scan anywhere. An INVAL of all ways leaves no line in the cache. Clearing EN starts the disable, which ends with EN = 0 and the count of
dirty lines; setting it needs a clean array or FORCE, which is recorded. Fewer Skein ways take effect at once, more after a
CLEAN_INVAL of the new ways. -/
def Obligations.SpanCacheControl : Prop :=
  ∀ (s : State) (p : Nat), s.live = true → p < 8 →
    let busy := s.bit .SPAN_CMAINT_STAT [p] SPAN_CMAINT_STAT.BUSY
    let en := s.bit .SPAN_CACHE_CTL [p] SPAN_CACHE_CTL.EN
    let clean := s.bit .SPAN_CACHE_STAT [p] SPAN_CACHE_STAT.INV_CLEAN
    let sw := s.fld .SPAN_CACHE_CTL [p] SPAN_CACHE_CTL.SKEIN_WAYS
    let ms (u : State) (f : Fld) := u.fld .SPAN_CMAINT_STAT [p] f
    let cs (u : State) (f : Fld) := u.fld .SPAN_CACHE_STAT [p] f
    (∀ q ∈ maintOps, ∀ w : BitVec 64, let eff := maintWord q.2 w
      (busy = true → exec (q.1 p w) s = .next (discardReg s .SPAN_CMAINT_CTL [p])) ∧
      (busy = false → maintRefused s p eff = true → Answers (q.1 p w) s (fun u =>
        ms u SPAN_CMAINT_STAT.ERR = 1 ∧ ms u SPAN_CMAINT_STAT.STATUS = 0x0E ∧ ms u SPAN_CMAINT_STAT.BUSY = 0 ∧
        u.mem = s.mem)) ∧
      (busy = false → maintRefused s p eff = false → Answers (q.1 p w) s (fun u =>
        ms u SPAN_CMAINT_STAT.BUSY = 1 ∧ ms u SPAN_CMAINT_STAT.PROGRESS = 0 ∧ ms u SPAN_CMAINT_STAT.SKIP_CNT = 0 ∧
        mfind u.mem.maint p = some ⟨q.2, fget w.toNat SPAN_CMAINT_CTL.TARGET == 1,
          fget w.toNat SPAN_CMAINT_CTL.SCOPE == 1, fget w.toNat SPAN_CMAINT_CTL.WAY_MASK,
          s.fld .SPAN_CMAINT_ADDR [p] SPAN_CMAINT_ADDR.ADDR * 128, s.rd .SPAN_CMAINT_LEN [p], false, false, false, 0, 0⟩ ∧
        u = { s with regs := u.regs, mem := { s.mem with maint := u.mem.maint } } ∧
        RegsKept [regAddr .SPAN_CMAINT_CTL [p], regAddr .SPAN_CMAINT_STAT [p]] s u))) ∧
    (busy = true → fget (s.rd .SPAN_CMAINT_CTL [p]) SPAN_CMAINT_CTL.GO = 0 → Answers (.cmaintAbort p) s (fun u =>
      mfind u.mem.maint p = (mfind s.mem.maint p).map (fun r => { r with aborted := true }) ∧
      u.mem.lines = s.mem.lines ∧ u.mem.hbm = s.mem.hbm)) ∧
    (∀ (r : MaintRec) (status : Nat), mfind s.mem.maint p = some r →
      let total := if r.byWay then 24576 else r.len
      let st := if status = 0x0A ∨ status = 0x03 then status else 0
      let ends (v : State) (n first : Nat) : Prop := let g := maintGoOn v p r n
        exec (.cmaintDone p status) s = .next (if g.2.scanned = true ∧ maintWritten g.1 p = true then
          maintEnd g.1 p g.2 (statFold first st) else g.1)
      (r.aborted = false → ends s total 0) ∧ (r.aborted = true → r.scanned = true → ends s total 1) ∧
      (r.aborted = true → r.scanned = false → r.pos ≤ total →
        ∃ n, r.pos ≤ n ∧ n ≤ total ∧ ends { s with freeCtr := s.freeCtr + 1 } n 1) ∧
      (∀ n, r.scanned = false → maintClear s p r (maintSel s p r n) = false → maintGoOn s p r n = (s, r)) ∧
      (∀ n s1 stop, r.scanned = false → maintClear s p r (maintSel s p r n) = true →
        maintScan s p r (maintSel s p r n) = (s1, stop) → let g := maintGoOn s p r n
        g.2 = { r with pos := stop.getD n, scanned := stop.isNone } ∧ mfind g.1.mem.maint p = some g.2 ∧
          ms g.1 SPAN_CMAINT_STAT.PROGRESS = stop.getD n % 2 ^ 35 ∧ g.1.mem.lines = s1.mem.lines ∧ g.1.mem.hbm = s1.mem.hbm) ∧
      (∀ l c, r.op ≠ 2 → 3 ≤ c.st → agentLine s p l = some c → mfind s.mem.cacheErr (lineKey p l) = none →
        maintLine s p r.op l c = vebPush (dropCopy s p l) ⟨p, l, c.st, c.v, false, false, true⟩) ∧
      (maintClear s p r (maintSel s p r total) = true → r.aborted = false → r.scanned = false → r.pos = 0 → r.all = false →
        maintWritten s p = true → r.byWay = true → r.op = 2 → r.mask = 0xFFFF → (∀ e ∈ s.mem.lines, e.2.way < 16) →
        Answers (.cmaintDone p status) s (fun u => (∀ l, l < 2 ^ 48 → agentLine u p l = none) ∧
          ms u SPAN_CMAINT_STAT.DONE = 1 ∧ ms u SPAN_CMAINT_STAT.BUSY = 0 ∧
          ms u SPAN_CMAINT_STAT.STATUS = statFold 0 st % 256 ∧
          (∀ q l, q < 96 → q ≠ p → l < 2 ^ 48 → agentLine u q l = agentLine s q l) ∧ u.mem.hbm = s.mem.hbm))) ∧
    (en = true → Answers (.cacheDisable p) s (fun u => cs u SPAN_CACHE_STAT.DIS_PENDING = 1 ∧
      cs u SPAN_CACHE_STAT.INV_CLEAN = 0 ∧ u.bit .SPAN_CACHE_CTL [p] SPAN_CACHE_CTL.EN = true ∧
      u = { s with regs := u.regs } ∧ RegsKept [regAddr .SPAN_CACHE_STAT [p]] s u)) ∧
    (cs s SPAN_CACHE_STAT.DIS_PENDING = 1 → vebLen s p = 0 → (∀ r ∈ s.mem.reqs, r.agent ≠ p) →
      (∀ e ∈ s.mem.txns, e.2.req ≠ p) →
      let n := (s.mem.lines.filter (fun e => e.1 / 2 ^ 48 == p && decide (3 ≤ e.2.st))).length
      Answers (.cacheDisableDone p) s (fun u => u.bit .SPAN_CACHE_CTL [p] SPAN_CACHE_CTL.EN = false ∧
        cs u SPAN_CACHE_STAT.DIS_PENDING = 0 ∧ cs u SPAN_CACHE_STAT.DIRTY_AT_DIS = min n 0xFFFFF ∧ u.mem = s.mem ∧
        (n ≠ 0 → cs u SPAN_CACHE_STAT.DIRTY_LOST = 1))) ∧
    (∀ force : Bool, en = false →
      (clean = true → Answers (.cacheEnable p force) s (fun u => u.bit .SPAN_CACHE_CTL [p] SPAN_CACHE_CTL.EN = true ∧
        u = { s with regs := u.regs } ∧ RegsKept [regAddr .SPAN_CACHE_CTL [p]] s u)) ∧
      (clean = false → force = true → Answers (.cacheEnable p force) s (fun u =>
        u.bit .SPAN_CACHE_CTL [p] SPAN_CACHE_CTL.EN = true ∧ cs u SPAN_CACHE_STAT.STALE_EN = 1 ∧ u.mem = s.mem)) ∧
      (clean = false → force = false → exec (.cacheEnable p force) s = .next (discardReg s .SPAN_CACHE_CTL [p]))) ∧
    (∀ n, n < 16 → n ≠ sw →
      ((11 < n ∨ busy = true ∨ (s.trs p).run ≠ [] ∨ en = false) →
        exec (.skeinWaysWrite p n) s = .next (discardReg s .SPAN_CACHE_CTL [p])) ∧
      (n ≤ 11 → busy = false → (s.trs p).run = [] → en = true → n < sw → Answers (.skeinWaysWrite p n) s (fun u =>
        u.fld .SPAN_CACHE_CTL [p] SPAN_CACHE_CTL.SKEIN_WAYS = n ∧ u = { s with regs := u.regs } ∧
        RegsKept [regAddr .SPAN_CACHE_CTL [p]] s u)) ∧
      (n ≤ 11 → busy = false → (s.trs p).run = [] → en = true → sw < n → Answers (.skeinWaysWrite p n) s (fun u =>
        u.fld .SPAN_CACHE_CTL [p] SPAN_CACHE_CTL.SKEIN_WAYS = sw ∧ ms u SPAN_CMAINT_STAT.BUSY = 1 ∧
        (∃ r, mfind u.mem.maint p = some r ∧ r.op = 3 ∧ r.byWay = true ∧ r.skein = true ∧ r.len = n) ∧
        u.mem.lines = s.mem.lines ∧ u.mem.hbm = s.mem.hbm)))

/-! HBM. -/

/-- O31. R304 to R312: while a stack is out of service no access reaches HBM. A write of a whole line stores its bytes and no other, a read of good codewords changes nothing; the
scrub skips owned lines, corrects what it can, counting it, and reports what it cannot; a reading sets the temperature,
refresh and the share of its curve entry, 105 degrees or 25 failed readings shut the stack down and 90 end its cooling; a
legal curve and the classes of populated frames are written. -/
def Obligations.HbmControllers : Prop :=
  (∀ (s : State) (line : Nat) (v : BitVec 1024) (mask : BitVec 128) (pz : BitVec 4) (errs : List (Nat × Nat)),
    s.live = true →
    (isFar line = true ∨ hbmOff s = true → ∀ w : Bool, exec (.hbmAccess line w v mask pz errs) s = .next s) ∧
    (isFar line = false → hbmOff s = false →
    let x := touch (addErrs s errs) (frameOf s (line * 128))
    exec (.hbmAccess line true v mask pz errs) s = .next (hbmWrite (lineWritten x line) line ⟨v, pz, 0⟩ mask) ∧
    exec (.hbmAccess line false v mask pz errs) s = .next (hbmRead x line).1 ∧
    (mask = fullMask → Answers (.hbmAccess line true v mask pz errs) s (fun u =>
      ∀ p, hbmByte u p = if p / 128 = line then lineByte v (p % 128) else hbmByte s p)) ∧
    (errs = [] → (let c := frameC s (frameOf s (line * 128)); ∀ l ∈ cwsOf c line, cwState s c l = 0) →
      exec (.hbmAccess line false v mask pz errs) s = .next (touch s (frameOf s (line * 128)))))) ∧
  (∀ (s : State) (sct err x : Nat), s.live = true → hbmOff s = false → s.bit .HBM_SCRUB_CTL [] HBM_SCRUB_CTL.EN = true →
    physRaw s (sct * 32) = some x → s.fld .HBM_SCRUB_STAT [] HBM_SCRUB_STAT.FRAME ≤ x / 2097152 →
    let c := frameC s (x / 2097152)
    let cw := if c then [sct / 2 * 2, sct / 2 * 2 + 1] else [sct]
    let d := if err = 0 then s else addErrs s [(sct, err)]
    let owned := ∃ e, mfind s.mem.dirs (sct * 32 / 128) = some e ∧ 2 ≤ e.st
    (owned → Answers (.scrubRead sct err) s (fun u =>
      u.fld .HBM_SCRUB_STAT [] HBM_SCRUB_STAT.FRAME = x / 2097152 % 2 ^ 19 ∧ u = { d with regs := u.regs } ∧
      RegsKept [regAddr .HBM_SCRUB_STAT []] s u)) ∧
    (¬ owned → cwState d c cw = 0 → Answers (.scrubRead sct err) s (fun u =>
      u.fld .HBM_SCRUB_STAT [] HBM_SCRUB_STAT.FRAME = x / 2097152 % 2 ^ 19 ∧ u = { d with regs := u.regs } ∧
      RegsKept [regAddr .HBM_SCRUB_STAT []] s u)) ∧
    (¬ owned → cwState d c cw = 1 → Answers (.scrubRead sct err) s (fun u =>
      u.hbmx.scrubCe = s.hbmx.scrubCe + 1 ∧ ∀ y ∈ cw, mget 0 u.mem.er y = 0)) ∧
    (¬ owned → cwState d c cw = 2 → Answers (.scrubRead sct err) s (fun u => ∃ o, u.out = o ++ [.kmhIrq 2 4]))) ∧
  (∀ (s : State) (k : Nat), s.up = true → k < s.asm.stacks →
    let f (u : State) (g : Fld) := u.fld .HBM_STK_STAT [k] g
    let st := f s HBM_STK_STAT.STATE
    (∀ t, t < 105 → st = 1 ∨ st = 2 → Answers (.hbmTempReading k (some t)) s (fun u =>
      let n := thrSelect s (mget 0 s.hbmx.ent k) t
      let share := if n = 0 then 63 else (thrEntry s (n - 1)).2
      f u HBM_STK_STAT.TEMP = t ∧ f u HBM_STK_STAT.MAX_TEMP = max t (f s HBM_STK_STAT.MAX_TEMP) ∧
      f u HBM_STK_STAT.HI_REFRESH = (if 85 ≤ t then 1 else 0) ∧ f u HBM_STK_STAT.SHARE_M1 = share ∧
      f u HBM_STK_STAT.STATE = (if share < 63 then 2 else 1) ∧ u = { s with regs := u.regs, hbmx := u.hbmx } ∧
      RegsKept [regAddr .HBM_STK_STAT [k]] s u)) ∧
    (∀ t, 105 ≤ t → t < 256 → st = 1 ∨ st = 2 → AnswersBy (fun v => stackShutdown v k) (.hbmTempReading k (some t)) s
      (fun v => f v HBM_STK_STAT.TEMP = t)) ∧
    (∀ t, t ≤ 90 → st = 4 → Answers (.hbmTempReading k (some t)) s (fun u => f u HBM_STK_STAT.STATE = 1)) ∧
    (st ≠ 0 → (mget 0 s.hbmx.fails k ≠ 24 ∨ st = 3 ∨ st = 4) → Answers (.hbmTempReading k none) s (fun u =>
      f u HBM_STK_STAT.SENSOR_FAIL = 1 ∧ mget 0 u.hbmx.fails k = mget 0 s.hbmx.fails k + 1 ∧
      f u HBM_STK_STAT.STATE = st)) ∧
    (st = 1 ∨ st = 2 → mget 0 s.hbmx.fails k = 24 → AnswersBy (fun v => stackShutdown v k) (.hbmTempReading k none) s
      (fun v => f v HBM_STK_STAT.SENSOR_FAIL = 1)) ∧
    ((st = 3 ∨ st = 4) → exec (.hbmCoolTimeout k) s = .next (recordAt s (unitHbm k 0x40) 6 0x0C 0 none))) ∧
  (∀ (s : State) (n : Nat) (w : BitVec 64), s.live = true → n < 2 →
    let new := plainWrite (regInfo .HBM_THR_CURVE).flds (s.rd .HBM_THR_CURVE [n]) w.toNat
    let other := s.rd .HBM_THR_CURVE [1 - n]
    (thrOk (if n = 0 then new else other) (if n = 0 then other else new) = true → Answers (.thrCurveWrite n w) s (fun u =>
      u.rd .HBM_THR_CURVE [n] = new % 2 ^ 64 ∧ u = { s with regs := u.regs } ∧
      RegsKept [regAddr .HBM_THR_CURVE [n]] s u)) ∧
    (thrOk (if n = 0 then new else other) (if n = 0 then other else new) = false →
      exec (.thrCurveWrite n w) s = .next (discardReg s .HBM_THR_CURVE [n]))) ∧
  (∀ (s : State) (n : Nat) (w : BitVec 64), s.live = true → n < 8192 → Answers (.fclassWrite n w) s (fun u =>
    (∀ b, b < 64 → u.fld .HBM_FCLASS [n] ⟨b, b⟩ =
      if (rawResolve s ((64 * n + b) * 2097152)).isSome then w.toNat >>> b % 2 else 1) ∧
    u = { s with regs := u.regs } ∧ RegsKept [regAddr .HBM_FCLASS [n]] s u))

/-! Placement. -/

/-- O32. R55, R276, R314, R321 to R326, R333, R335: ATTR_INVAL raises BUSY and its end drops the old translations of what GO
named; a page that software left moving expires; a move ends with its copy, once nothing is under way on its lines, is
counted and lets the move that waited for its place begin, or is given up and counted; the sweep ages every valid page; a
poisoned codeword is marked with its page and repaired from a replica where the page is not writable; a channel's retirement is pending until its region, once
empty, re-forms without it. -/
def Obligations.Placement : Prop :=
  ∀ (s : State), s.live = true →
    (∀ w : BitVec 64,
      (s.bit .ATTR_INVAL [] ATTR_INVAL.BUSY = true → exec (.attrInval w) s = .next (discardReg s .ATTR_INVAL [])) ∧
      (s.bit .ATTR_INVAL [] ATTR_INVAL.BUSY = false → Answers (.attrInval w) s (fun u =>
        u.bit .ATTR_INVAL [] ATTR_INVAL.BUSY = true ∧
        u.fld .ATTR_INVAL [] ATTR_INVAL.PAGE_IDX = fget w.toNat ATTR_INVAL.PAGE_IDX ∧
        u.fld .ATTR_INVAL [] ATTR_INVAL.ALL = fget w.toNat ATTR_INVAL.ALL ∧
        u = { s with regs := u.regs, plc := { s.plc with inval := u.plc.inval } } ∧
        u.plc.inval = (if fget w.toNat ATTR_INVAL.ALL = 1 then 1048576 else fget w.toNat ATTR_INVAL.PAGE_IDX) ∧
        RegsKept [regAddr .ATTR_INVAL []] s u))) ∧
    (s.bit .ATTR_INVAL [] ATTR_INVAL.BUSY = true → Answers .attrInvalDone s (fun u =>
      u.bit .ATTR_INVAL [] ATTR_INVAL.BUSY = false ∧ u.mem.hbm = s.mem.hbm ∧
      (s.plc.inval = 1048576 → u.mem.stale = []) ∧ mfind u.mem.stale s.plc.inval = none)) ∧
    (∀ page, page < 1048576 → peValid (ptEntry s page) = true → peMoving (ptEntry s page) = true →
      (∀ m ∈ s.plc.moves, m.page ≠ page) → Answers (.movingHoldTimeout page) s (fun u =>
        page ∈ u.plc.expired ∧ u = { s with plc := { s.plc with expired := u.plc.expired } })) ∧
    (∀ (page : Nat) (m : PageMove) (ext : Ext), s.plc.moves.find? (fun m => m.page == page) = some m →
      let old := peFrame (ptEntry s page)
      let fromFar := peLoc (ptEntry s page)
      let s1 := settlePage s fromFar old
      let go := (m.toFar = false ∧ fromFar = false) ∨ (hostUp s = true ∧ ext.status = 0)
      (¬ go ∨ pageBusy s1 fromFar old = true → exec (.pageMoveDone page ext) s = .next s) ∧
      (∀ s2, go → pageBusy s1 fromFar old = false → moveEffect s1 m ext = (s2, false) →
        exec (.pageMoveDone page ext) s = .next s2) ∧
      (∀ s2, go → pageBusy s1 fromFar old = false → moveEffect s1 m ext = (s2, true) →
        let v := { s2 with plc := { s2.plc with
          moves := s2.plc.moves.filter (fun x => x.page != page)
          back := if m.toFar then s2.plc.back else sdel s2.plc.back page } }
        let free (q : Nat) : Prop := peValid (ptEntry v q) = true ∧ peMoving (ptEntry v q) = false ∧ peFixed (ptEntry v q) = false
        (m.next = none → exec (.pageMoveDone page ext) s = .next (plcRun v)) ∧
        (∀ q, m.next = some q → (free q → exec (.pageMoveDone page ext) s =
            .next (plcRun (moveStart v ⟨q, false, old, none⟩))) ∧
          (¬ free q → exec (.pageMoveDone page ext) s = .next (plcRun v))))) ∧
    (∀ (m : PageMove) (ext : Ext) (u : State), moveEffect s m ext = (u, true) →
      u.fld .PLC_STAT [] PLC_STAT.MOVE_CNT = (s.fld .PLC_STAT [] PLC_STAT.MOVE_CNT + 1) % 2 ^ 32) ∧
    (∀ (page : Nat) (m : PageMove), s.plc.moves.find? (fun m => m.page == page) = some m →
      exec (.pageMoveAbandon page) s = .next (plcRun ((moveDrop s m).satInc .PLC_STAT [] PLC_STAT.ABANDON_CNT 1))) ∧
    (s.owned 1 = true → exec .ageingSweep s = .next s) ∧
    (s.owned 1 = false → AnswersBy plcRun .ageingSweep s (fun v => v.plc.skip = [] ∧
      v.mem = ((ptPages s).foldl (agedPage s.mem.act) s).mem ∧
      v.regs = ((ptPages s).foldl (agedPage s.mem.act) s).regs)) ∧
    (∀ (sct : Nat) (ext : Ext),
      (cwState s (frameC s (frameOf s (sct * 32))) (codewordOf s sct) ≠ 2 →
        exec (.scrubPoisonReport sct ext) s = .next s) ∧
      (cwState s (frameC s (frameOf s (sct * 32))) (codewordOf s sct) = 2 →
        (∀ p ∈ ptPages (poisonSector s sct), ¬ (peLoc (ptEntry (poisonSector s sct) p) = false ∧
          peFrame (ptEntry (poisonSector s sct) p) = frameOf s (sct * 32))) →
        Answers (.scrubPoisonReport sct ext) s (fun u => sct ∈ u.mem.pz ∧ u.mem.hbm = s.mem.hbm ∧ u.regs = s.regs)) ∧
      (∀ q i x, cwState s (frameC s (frameOf s (sct * 32))) (codewordOf s sct) = 2 →
        (ptPages (poisonSector s sct)).find? (fun p => !peLoc (ptEntry (poisonSector s sct) p) &&
          peFrame (ptEntry (poisonSector s sct) p) == frameOf s (sct * 32)) = some q →
        let e := ptEntry (poisonSector s sct) q
        let v := setEntry (poisonSector s sct) q (entPut e 18 18 1)
        objOf v q = some i → physRaw v (sct * 32) = some x →
        let rep := repLine v (objWord v i 1).toNat ((q - objPage v i) * 2097152 + x % 2097152 / 128 * 128) ext
        (peWrite e = true → exec (.scrubPoisonReport sct ext) s = .next v) ∧
        (peWrite e = false → (rep = none → exec (.scrubPoisonReport sct ext) s = .next s) ∧
          (∀ u, rep = some (u, none) → exec (.scrubPoisonReport sct ext) s = .next u) ∧
          (∀ u y, rep = some (u, some y) → exec (.scrubPoisonReport sct ext) s =
            .next (memWrite (lineWritten u (sct / 4)) (sct / 4) y fullMask))))) ∧
    (∀ w : BitVec 64,
      let st := fget w.toNat HBM_RETIRE_CTL.STACK
      let k := fget w.toNat HBM_RETIRE_CTL.CHANNEL
      let g (u : State) (f : Fld) := u.fld .HBM_REGION [k] f
      let ok := s.owned 4 = true ∧ st < s.asm.stacks ∧ (g s HBM_REGION.LIVE >>> st) % 2 = 1 ∧
        (g s HBM_REGION.PEND >>> st) % 2 = 0
      (ok → g s HBM_REGION.STATE ≠ 2 → AnswersBy (fun v => regionEmpty v k) (.channelRetire w) s (fun v =>
        g v HBM_REGION.STATE = 1 ∧ g v HBM_REGION.PEND = g s HBM_REGION.PEND ||| 2 ^ st ∧
        g v HBM_REGION.LIVE = g s HBM_REGION.LIVE)) ∧
      (¬ ok → AnswersBy (fun v => if g v HBM_REGION.STATE = 1 then regionEmpty v k else v) (.channelRetire w) s (fun v =>
        v.fld .HBM_RETIRE_CTL [] HBM_RETIRE_CTL.ERR = 1 ∧ v = { s with regs := v.regs } ∧
        RegsKept [regAddr .HBM_RETIRE_CTL []] s v))) ∧
    (∀ k, k < 32 →
      let g (u : State) (f : Fld) := u.fld .HBM_REGION [k] f
      (g s HBM_REGION.STATE = 1 → holdCount s k = 0 → regionClear s k = true → Answers (.regionReform k) s (fun u =>
        g u HBM_REGION.STATE = 2 ∧ u = { s with regs := u.regs } ∧ RegsKept [regAddr .HBM_REGION [k]] s u)) ∧
      (g s HBM_REGION.STATE = 1 → ¬ (holdCount s k = 0 ∧ regionClear s k = true) →
        exec (.regionReform k) s = .next (regionEmpty s k)) ∧
      (g s HBM_REGION.STATE = 2 → AnswersBy plcRun (.regionReformDone k) s (fun v =>
        g v HBM_REGION.STATE = 0 ∧ g v HBM_REGION.PEND = 0 ∧
        g v HBM_REGION.LIVE = g s HBM_REGION.LIVE - (g s HBM_REGION.LIVE &&& g s HBM_REGION.PEND) ∧
        (∀ e ∈ v.mem.hbm, e.1 / gib2 % 32 ≠ k) ∧ (∀ x ∈ v.mem.pz, x * 32 / gib2 % 32 ≠ k))))

/-! Accesses to the local address space. -/

/-- O33. R8, R39 to R41, R43, R59 to R62, R245, R356 to R358, R452, R510: an access whose pieces all decode is performed and
answered with its data, or as poisoned; one that does not decode or is denied is answered so and logged, or faults its core,
and a held one waits. LR takes a reservation, SC without one stores nothing and returns 1 and with one returns 0, an atomic
operation returns the old value and stores its result. -/
def Obligations.Accesses : Prop :=
  (∀ (s : State) (c a n : Nat) (d : BitVec 64) (ext : Ext), s.live = true → c < 64 → s.coreRuns c = true →
    a + (n - 1) < 2 ^ 42 → 0 < n → n ≤ 8 →
    let via := Via.agent (8 + c)
    let req := unitKst c
    (∀ l s1 s2 b, decPieces s (.core c) false a n = (.ok l, s1) →
      getPieces s1 req via false ext l = .got s2 b false →
      exec (.coreLoadStore c .load a n d ext) s = .next (s2.send (.coreData c b))) ∧
    (∀ s1, (decPieces s (.core c) false a n = (.denied, s1) ∨
        decPieces s (.core c) false a n = (.undec, s1)) →
      exec (.coreLoadStore c .load a n d ext) s = .next (coreFail s1 c a)) ∧
    (∀ s1, (decPieces s (.core c) true a n = (.denied, s1) ∨ decPieces s (.core c) true a n = (.undec, s1)) →
      exec (.coreLoadStore c .store a n d ext) s = .next (coreFail s1 c a)) ∧
    (∀ l s1, (decPieces s (.core c) false a n = (.ok l, s1) → getPieces s1 req via false ext l = .wait →
        exec (.coreLoadStore c .load a n d ext) s = .next (coreNack s c false l)) ∧
      (decPieces s (.core c) true a n = (.ok l, s1) →
        putPieces s1 (.core c) via false false ext l (leBytes n d.toNat) = .wait →
        exec (.coreLoadStore c .store a n d ext) s = .next (coreNack s c true l))) ∧
    (∀ l s1 s2 st, decPieces s (.core c) true a n = (.ok l, s1) →
      putPieces s1 (.core c) via false false ext l (leBytes n d.toNat) = .done s2 st → contStarted s2 = false →
      exec (.coreLoadStore c .store a n d ext) s = .next s2) ∧
    (∀ (p : Piece) (k l ty : Nat) (s1 : State), (n = 4 ∨ n = 8) → a % n = 0 → p.t = .line l ty → ty ≠ 2 →
      (∀ s2 b, decPieces s (.core c) false a n = (.ok [p], s1) →
        getPieces s1 req via false ext [p] = .got s2 b false →
        Answers (.coreLoadStore c .lr a n d ext) s (fun u => (c, l) ∈ u.mem.coreRsv ∧
          (∀ m, (c, m) ∈ u.mem.coreRsv → m = l) ∧ u.out = s2.out ++ [.coreData c b] ∧ u.mem.hbm = s2.mem.hbm)) ∧
      (decPieces s (.core c) true a n = (.ok [p], s1) → (c, l) ∉ s1.mem.coreRsv →
        Answers (.coreLoadStore c .sc a n d ext) s (fun u => u.out = s1.out ++ [.coreData c (leBytes n 1)] ∧
          (∀ m, (c, m) ∉ u.mem.coreRsv) ∧ u.mem.hbm = s1.mem.hbm ∧ u.mem.lines = s1.mem.lines)) ∧
      (∀ s2 st, decPieces s (.core c) true a n = (.ok [p], s1) → (c, l) ∈ s1.mem.coreRsv →
        putPieces s1 (.core c) via false false ext [p] (leBytes n d.toNat) = .done s2 st → contStarted s2 = false →
        exec (.coreLoadStore c .sc a n d ext) s = .next ((coreRsvEnd s2 c).send (.coreData c (leBytes n 0)))) ∧
      (∀ s2 s3 b st, decPieces s (.core c) true a n = (.ok [p], s1) →
        getPieces s1 req via false ext [p] = .got s2 b false →
        putPieces s2 (.core c) via false false ext [p] (leBytes n (amoVal k n (packBytes 64 b).toNat d.toNat)) =
          .done s3 st → contStarted s3 = false →
        exec (.coreLoadStore c (.amo k) a n d ext) s = .next (s3.send (.coreData c b))))) ∧
  (∀ (s : State) (bar2 : Bool) (a n x : Nat) (data : List (BitVec 8)) (poison : Bool) (ext : Ext), s.up = true →
    hostUp s = true → s.fld .KST_BOOT_STAT [] KST_BOOT_STAT.STAGE ≠ 15 → contStarted s = false →
    (∀ l s1 s2 b pz, hostAddr s bar2 a n = .local_ x → decPieces s .host false x n = (.ok l, s1) →
      getPieces s1 0xFFFE .none_ true ext l = .got s2 b pz →
      exec (.hostMemRequest (.read bar2 a n) ext) s = .next (s2.send (.resp hostWho (if pz then 4 else 0) b))) ∧
    (∀ s1, hostAddr s bar2 a n = .local_ x →
      (decPieces s .host false x n = (.denied, s1) →
        exec (.hostMemRequest (.read bar2 a n) ext) s = .next ((logFail s1 .host x).send (.resp hostWho 0x0E []))) ∧
      (decPieces s .host false x n = (.undec, s1) →
        exec (.hostMemRequest (.read bar2 a n) ext) s = .next ((logFail s1 .host x).send (.resp hostWho undecStat []))) ∧
      (decPieces s .host false x n = (.held, s1) → exec (.hostMemRequest (.read bar2 a n) ext) s = .next s)) ∧
    (hostAddr s bar2 a n = .none_ →
      exec (.hostMemRequest (.read bar2 a n) ext) s = .next ((logFail s .host a).send (.resp hostWho undecStat []))) ∧
    (∀ o, hostAddr s bar2 a n = .msix o →
      exec (.hostMemRequest (.read bar2 a n) ext) s = .next (s.send (.resp hostWho 0 (msixRead s o n)))) ∧
    (∀ o, hostAddr s bar2 a data.length = .msix o → poison = false →
      exec (.hostMemRequest (.write bar2 a data poison) ext) s = .next ((msixWrite s o data).send (.resp hostWho 0 []))) ∧
    (∀ l s1 s2 st, hostAddr s bar2 a data.length = .local_ x →
      decPieces s .host true x data.length = (.ok l, s1) →
      putPieces s1 .host .none_ poison true ext l data = .done s2 st → contStarted s2 = false →
      exec (.hostMemRequest (.write bar2 a data poison) ext) s = .next (s2.send (.resp hostWho st [])))) ∧
  (∀ (s : State) (p a n : Nat) (data : List (BitVec 8)) (poison : Bool) (ext : Ext), s.up = true → pcieUp s p = true →
    (s.bit .KST_PARK [] KST_PARK.PARKED = false →
      (∀ l s1 s2 b pz, n ≤ 4096 → decPieces s (.pcie p) false a n = (.ok l, s1) →
        getPieces s1 0xFFFD .none_ true ext l = .got s2 b pz →
        exec (.pcieMemRead p a n ext) s = .next (s2.send (.resp (pcieWho p) (if pz then 4 else 0) b))) ∧
      (∀ s1, n ≤ 4096 → decPieces s (.pcie p) false a n = (.undec, s1) →
        exec (.pcieMemRead p a n ext) s = .next ((logFail s1 (.pcie p) a).send (.resp (pcieWho p) undecStat []))) ∧
      (∀ l s1 s2 st, data.length ≤ 512 → decPieces s (.pcie p) true a data.length = (.ok l, s1) →
        putPieces s1 (.pcie p) .none_ poison true ext l data = .done s2 st →
        exec (.pcieMemWrite p a data poison ext) s = .next s2)) ∧
    (s.bit .KST_PARK [] KST_PARK.PARKED = true →
      exec (.pcieMemRead p a n ext) s = .next (s.send (.resp (pcieWho p) 0x0E [])) ∧
      (data.length ≤ 512 → exec (.pcieMemWrite p a data poison ext) s =
        .next (s.satInc .P0_CLC_ERR [] P0_CLC_ERR.PCIE_DROP 1)))) ∧
  (∀ (s : State) (r : HostReq) (ext : Ext), s.up = true → hostUp s = true →
    s.fld .KST_BOOT_STAT [] KST_BOOT_STAT.STAGE ≠ 15 → contStarted s = true → contEvent s < 6 →
    exec (.hostMemRequest r ext) s = .next (s.send (.resp hostWho retryStat []))) ∧
  (∀ (s : State) (dest m a n : Nat) (data : BitVec 1024) (mask : BitVec 128) (pz : BitVec 4) (ext : Ext),
    s.boot.off ≠ 6 →
    (inboundOff s = true → ∀ x, exec (.peerMemAccess dest m x ext) s = .next (s.send (.resp (peerWho m) 0x03 []))) ∧
    (inboundOff s = false → s.live = true →
      (peerInOk s dest = false → exec (.peerMemAccess dest m (.read a n) ext) s =
        .next ((logFail s .peer a).send (.resp (peerWho m) 0x0E []))) ∧
      (∀ l s1 s2 b z, peerInOk s dest = true → decPieces s .peer false a n = (.ok l, s1) →
        getPieces s1 0xFFFC .none_ true ext l = .got s2 b z →
        exec (.peerMemAccess dest m (.read a n) ext) s = .next (s2.send (.resp (peerWho m) (if z then 4 else 0) b))) ∧
      (∀ t act s1 s2, peerInOk s dest = true → peerLine s a mask = (.ok t act, s1) → gateRecorded s1 (gateKey t) = false →
        maskedWrite s1 t act ⟨data, pz, 0⟩ mask ext = some s2 →
        exec (.peerMemAccess dest m (.write a data mask pz) ext) s =
          .next (s2.send (.resp (peerWho m) (tgtLost s1 t) [])))))

/-! Registers. -/

/-- O34. R9, R10: of a write, each RW and RWS field takes the written value, each W1C bit written 1 is cleared, and RO and
WO fields and the bits of no field keep theirs; a write of one half changes no field that is not wholly in it. A read gives
each field as it is, but WO fields and the bits of no field read zero. -/
def Obligations.FieldTypes : Prop :=
  ∀ (r : RegId) (ix : List Nat) (s : State) (d : Nat),
    let flds := (regInfo r).flds
    let old := s.rd r ix
    (∀ f ∈ flds, let g : Fld := ⟨f.hi, f.lo⟩
      (∀ lo hi, fget (plainWrite flds old (effWrite flds old d lo hi)) g =
        if lo ≤ f.lo ∧ f.hi ≤ hi then
          (match f.ty with
           | .rw => fget d g
           | .rws => fget d g
           | .w1c => fget old g &&& (2 ^ (f.hi + 1 - f.lo) - 1 - fget d g)
           | .ro => fget old g
           | .wo => fget old g)
        else fget old g) ∧
      fget (readMask flds d) g = if f.ty = .wo then 0 else fget d g) ∧
    (∀ i, (∀ f ∈ flds, i < f.lo ∨ f.hi < i) →
      (∀ lo hi, (plainWrite flds old (effWrite flds old d lo hi)).testBit i = old.testBit i) ∧
      (readMask flds d).testBit i = false)

/-- O35. R6, R8, R9, R27, R39, R62, R79, R413, R504, R511: an aligned write of 8 or 4 bytes to a register of a present unit has the register's
effect on the fields it reaches; one of another size or alignment, and one of 4 bytes to a register with a writable field
across its middle, is discarded and logged; a block of an absent Pier or stack takes it without a trace, and an offset no
map assigns fails, with an error response to the host, an access fault to a core, or PERMISSION to a tile's move. A write of
the upper half of the user format's entry changes nothing. A read returns the bytes of the register, zeros, or nothing, in the same cases. -/
def Obligations.RegisterAccesses : Prop :=
  ∀ (s : State) (who id a n : Nat) (d : BitVec 64) (ext : Ext),
    let q := whoRq who id
    s.live = true →
    (regSel s.asm a = .undecoded → exec (.registerWrite who id a n d ext) s = .next (regFail s q a) ∧
      ∀ req, regRead s req a n = none) ∧
    (regSel s.asm a = .absent → exec (.registerWrite who id a n d ext) s = .next s ∧
      ∀ req, regRead s req a n = some (s, List.replicate n 0)) ∧
    (∀ r ix, regSel s.asm a = .reg r ix →
      let flds := (regInfo r).flds
      let old := s.rd r ix
      (n = 8 → a % 8 = 0 → exec (.registerWrite who id a n d ext) s =
        .next (regDo s q r ix (effWrite flds old d.toNat 0 63) ext)) ∧
      (n = 4 → a % 8 = 0 → spansMiddle flds = false → exec (.registerWrite who id a n d ext) s =
        .next (regDo s q r ix (effWrite flds old (d.toNat % 2 ^ 32) 0 31) ext)) ∧
      (r = .FMT_DESC → ix.getD 2 0 = 15 → n = 4 → a % 8 = 4 → exec (.registerWrite who id a n d ext) s = .next s) ∧
      (n = 4 → a % 8 = 4 → spansMiddle flds = false → ¬ (r = .FMT_DESC ∧ ix.getD 2 0 = 15) → exec (.registerWrite who id a n d ext) s =
        .next (regDo s q r ix (effWrite flds old (d.toNat % 2 ^ 32 * 2 ^ 32) 32 63) ext)) ∧
      (n = 4 → a % 4 = 0 → spansMiddle flds = true → ¬ (r = .FMT_DESC ∧ ix.getD 2 0 = 15) →
        exec (.registerWrite who id a n d ext) s = .next (logDiscard s a (q.code s))) ∧
      ((n = 8 ∧ a % 8 = 0) ∨ (n = 4 ∧ a % 4 = 0) → ∀ req, regRead s req a n =
        some (s, leBytes n (regSeen s r ix >>> (a % 8 * 8)))) ∧
      (¬ (n = 8 ∧ a % 8 = 0) → ¬ (n = 4 ∧ a % 4 = 0) →
        exec (.registerWrite who id a n d ext) s = .next (logDiscard s a (q.code s)) ∧
        ∀ req, regRead s req a n = some (logDiscard s a req, List.replicate n 0))) ∧
    (∀ q' : Rq, (q' = .host → regFail s q' a = (logFail s q' a).send (.resp hostWho undecStat [])) ∧
      (∀ c, q' = .core c → regFail s q' a = (logFail s q' a).send (.coreFault c a)) ∧
      (∀ t, q' = .tile t → regFail s q' a = foldFirst (logFail s q' a) t 0x0E)) ∧
    (∀ c, c < 256 → Answers (.ctxModeWrite c d) s (fun u =>
      u.rd .CTX_MODE [c] = plainWrite (regInfo .CTX_MODE).flds (s.rd .CTX_MODE [c]) d.toNat % 2 ^ 64 ∧
      u = { s with regs := u.regs } ∧ RegsKept [regAddr .CTX_MODE [c], regAddr .KST_SET_STAT []] s u)) ∧
    (∀ t k, t < 512 → k < 16 → tilePowered s t = false ∨ s.bit .TILE_STAT (tix t) TILE_STAT.RESETTING = true →
      exec (.srSeedWrite t d) s = .next (discardReg s .TILE_SR_SEED (tix t)) ∧
      exec (.fmtDescWrite t k d) s = .next (discardReg s .FMT_DESC (tix t ++ [k])) ∧
      exec (.amaxRoll t k d) s = .next (discardReg s .TILE_AMAX (tix t ++ [k]))) ∧
    (∀ t, t < 512 → tilePowered s t = true → s.bit .TILE_STAT (tix t) TILE_STAT.RESETTING = false →
      (s.tstate t = 0 →
        exec (.srSeedWrite t d) s = .next (writeSeed s t d.toNat) ∧
        ∀ k, k < 16 → exec (.fmtDescWrite t k d) s = .next (writeFmtDesc s t k d.toNat) ∧
          exec (.amaxRoll t k d) s =
            .next (rollAmax (s.plain .TILE_AMAX (tix t ++ [k]) (fput d.toNat TILE_AMAX.ROLL 1)) t k)) ∧
      (s.tstate t ≠ 0 →
        exec (.srSeedWrite t d) s = .next (discardReg s .TILE_SR_SEED (tix t)) ∧
        ∀ k, k < 16 → exec (.fmtDescWrite t k d) s = .next (discardReg s .FMT_DESC (tix t ++ [k])) ∧
          exec (.amaxRoll t k d) s = .next (discardReg s .TILE_AMAX (tix t ++ [k]))))

/-! Tile control. -/

/-- O36. R123, R126, R132, R137, R138, R141, R142, R148, R157, R368, R413: START of an idle, enabled tile outside queue service
sets up its registers and runs it, or raises FETCH_FAULT (0x08) for a PC off the 8-byte grid; RESET discards its work and
its end leaves it idle with zero registers and its memories; ABORT, DISABLE, the end of an abort or of a dispatch, an
exception's last event and the retirement of a tile, which gives its number to the free spare or loses it, act as their
state lets them, and a write is discarded while the tile is off or resetting. An exception waits until the earlier instructions of its stream have completed, then empties the queues,
stops fetch and drops the reservation, and TILE_EXC records the one with the lowest tag, with MULTI when there are several. -/
def Obligations.TileControlCommands : Prop :=
  ∀ (s : State) (t : Nat) (dis : Bool), t < 512 → s.live = true →
    let x := s.tile t
    let st := s.tstate t
    let resetting := s.bit .TILE_STAT (tix t) TILE_STAT.RESETTING
    let ready := tilePowered s t = true ∧ resetting = false
    let d := (s.setFld .TILE_CTL (tix t) TILE_CTL.DISABLE (b2n dis)).setTstate t st
    let refused (i : Instr) := exec i s = .next (discardReg s .TILE_CTL (tix t))
    let entry (f : Fld) := s.fld .TILE_ENTRY (tix t) f
    let spare (u : State) (g : Fld) (k : Nat) := u.fld .SPAN_SPARE_MAP [t / 64] (g.shift 16 k)
    (tilePowered s t = false → refused (.tileStart t dis) ∧ refused (.tileReset t dis) ∧ refused (.tilePreempt t dis) ∧
      refused (.tileRestore t dis) ∧ refused (.tileAbort t dis) ∧ refused (.tileDisable t dis)) ∧
    (tilePowered s t = true → resetting = true → refused (.tileStart t dis) ∧ refused (.tilePreempt t dis) ∧
      refused (.tileRestore t dis) ∧ refused (.tileAbort t dis) ∧ refused (.tileDisable t dis) ∧
      exec (.tileReset t dis) s = .next s) ∧
    (ready → exec (.tileDisable t dis) s = .next d ∧ d.fld .TILE_CTL (tix t) TILE_CTL.DISABLE = b2n dis ∧
      d.tstate t = st ∧ RegsKept [regAddr .TILE_CTL (tix t), regAddr .TILE_STAT (tix t)] s d) ∧
    (ready → st = 0 → dis = false → stayWinOk s t = true → s.bit .KST_PARK [] KST_PARK.PARKED = false →
      (s.fld .KST_QS_EXCL_ACT [t / 64] KST_QS_EXCL_ACT.EXCL_ACT >>> (t % 64)) % 2 = 1 →
      (entry TILE_ENTRY.PC % 8 = 0 → AnswersAt (.tileStart t dis) s t (fun v => let y := v.tile t
        v.tstate t = 1 ∧ v.fld .TILE_STAT (tix t) TILE_STAT.CTX_ID = entry TILE_ENTRY.CTX_ID ∧
        (∀ n, y.s n = if n = 1 then BitVec.ofNat 64 (s.rd .TILE_ARG (tix t))
          else if n = 2 then BitVec.ofNat 64 (entry TILE_ENTRY.RANK)
          else if n = 3 then BitVec.ofNat 64 (entry TILE_ENTRY.COUNT_M1 + 1) else 0) ∧
        y.pc = entry TILE_ENTRY.PC ∧ y.qs = [] ∧ y.qv = [] ∧ y.qm = [] ∧ y.qx = [] ∧ y.acc0 = .none ∧ y.acc1 = .none ∧
        y.imem = x.imem ∧
        (entry TILE_ENTRY.CTX_ID = tileCtx s t → y.mem = x.mem ∧ y.vregs = x.vregs ∧ y.pregs = x.pregs) ∧
        (entry TILE_ENTRY.CTX_ID ≠ tileCtx s t → y.mem = [] ∧ y.vregs = [] ∧ y.pregs = []) ∧
        v.rd .TILE_EXC (tix t) = 0 ∧ v.rd .TILE_EXC_ADDR (tix t) = 0 ∧
        (∀ k, k ≠ t → v.tile k = s.tile k) ∧ v = { s with regs := v.regs, tiles := v.tiles })) ∧
      (entry TILE_ENTRY.PC % 8 ≠ 0 → ∃ v, exec (.tileStart t dis) s =
        .next (raiseExc v t 0 0 0x08 (entry TILE_ENTRY.PC) 0))) ∧
    (ready → (s.fld .KST_QS_EXCL_ACT [t / 64] KST_QS_EXCL_ACT.EXCL_ACT >>> (t % 64)) % 2 = 0 →
      exec (.tileStart t dis) s = .next (discardReg d .TILE_CTL (tix t))) ∧
    (ready → (st ≠ 0 ∨ dis = true ∨ stayWinOk s t = false ∨ s.bit .KST_PARK [] KST_PARK.PARKED = true) →
      exec (.tileStart t dis) s = .next (discardReg d .TILE_CTL (tix t))) ∧
    (ready → (st = 3 ∨ st = 5 ∨ x.retiring ≠ 0) → Answers (.tileReset t dis) s (fun u =>
      u = d.setTile t { x with heldReset := true })) ∧
    (ready → st = 7 → x.retiring = 0 → exec (.tileReset t dis) s = .next d) ∧
    (ready → st ≠ 3 → st ≠ 5 → st ≠ 7 → x.retiring = 0 → AnswersBy (beginReset · t) (.tileReset t dis) s (fun v =>
      v = cancelDispOf d t ∧ (beginReset v t).bit .TILE_STAT (tix t) TILE_STAT.RESETTING = true ∧
      ((beginReset v t).tile t).qs = [] ∧ ((beginReset v t).tile t).qm = [] ∧ ((beginReset v t).tile t).mmas = [])) ∧
    (resetting = false → exec (.tileResetDone t) s = .next s) ∧
    (resetting = true → exec (.tileResetDone t) s = .next (endReset s t) ∧
      ((endReset s t).bit .TILE_STAT (tix t) TILE_STAT.RESETTING = false ∨ x.started = true) ∧
      (x.started = false → (endReset s t).tstate t = (if st = 7 then 7 else 0) ∧
        (endReset s t).tile t = x.afterReset ∧ (∀ n, x.afterReset.s n = 0) ∧ x.afterReset.mem = x.mem ∧
        x.afterReset.imem = x.imem ∧ (endReset s t).fld .TILE_EXC (tix t) TILE_EXC.CAUSE = 0)) ∧
    (ready → (st = 3 ∨ st = 5 ∨ x.retiring ≠ 0) →
      Answers (.tileAbort t dis) s (fun u => u = d.setTile t { x with heldAbort := true })) ∧
    (ready → st = 1 ∨ st = 2 ∨ st = 4 → x.retiring = 0 →
      exec (.tileAbort t dis) s = .next (abortTile (cancelDispOf d t) t)) ∧
    ((∃ y ∈ s.q.disps, y.id = x.disp ∧ y.ending = true) → cancelDispOf s t = s) ∧
    ((∀ y ∈ s.q.disps, y.id = x.disp → y.ending = false) → cancelDispOf s t = endDispOf s t 0x01 (some t)) ∧
    (ready → st = 1 → x.aborting = false → x.started = false → x.retiring = 0 → Answers (.tileAbort t dis) s (fun u =>
      (u.tile t).aborting = true ∧ (u.tile t).stays = [] ∧ u.tstate t = 1)) ∧
    (ready → (st = 0 ∨ st = 7) → x.retiring = 0 → exec (.tileAbort t dis) s = .next d) ∧
    (st = 1 → x.aborting = true → x.mmas = [] → x.drains = [] → x.loads = [] →
      (x.excTag = none → exec (.tileAbortDone t) s = .next (goIdle (s.setTile t x.discard) t)) ∧
      (x.excTag ≠ none → let v := tileParity s t
        exec (.tileAbortDone t) s = .next (goIdle (v.setTile t (v.tile t).discard) t))) ∧
    (x.started = false → goIdle s t = s.setTstate t 0 ∧ (goIdle s t).tstate t = 0) ∧
    (s.fld .TILE_EXC (tix t) TILE_EXC.CAUSE ≠ 0x09 → s.fld .TILE_EXC (tix t) TILE_EXC.CAUSE ≠ 0x0A → tileParity s t = s) ∧
    (st = 1 → x.excTag ≠ none → x.aborting = false → x.quiet = true → x.started = false → tileParity s t = s →
      s.fld .TILE_EXC (tix t) TILE_EXC.CAUSE ≠ 0x09 → s.fld .TILE_EXC (tix t) TILE_EXC.CAUSE ≠ 0x0A →
      Answers (.tileFaulted t) s (fun u => u.tstate t = 2 ∧ u.out = s.out ++ [.kmhIrq 3 6] ∧
        (u.tile t) = { x with excTag := none, acc0 := x.com0, acc1 := x.com1 } ∧ u = { s with regs := u.regs, tiles := u.tiles, out := u.out } ∧
        RegsKept [regAddr .TILE_STAT (tix t)] s u)) ∧
    (st = 1 → x.excTag ≠ none → x.aborting = false → x.quiet = true → x.started = true → x.disp ≠ 0 →
      ∃ v, exec (.tileFaulted t) s =
        .next (endDisp v x.disp (causeStat (s.fld .TILE_EXC (tix t) TILE_EXC.CAUSE)) (some t)) ∧ v.tstate t = 2) ∧
    (∀ (f : InsS) (e : QEnt), readyHead s t .scalar (encS 0x01 f) 0 = some e →
      (x.predOn f.pred.toNat = false → AnswersAt (.end_ t f) s t (fun v => (v.tile t).fetchHold = false ∧
        Tile.SameData x (v.tile t) ∧ v = { s with tiles := v.tiles })) ∧
      (x.predOn f.pred.toNat = true → x.quiet = true → x.qv = [] → x.qm = [] → x.qx = [] →
        exec (.end_ t f) s = .next (settle (goIdle (closeEpoch (popHead s t .scalar) t) t) t)) ∧
      (x.predOn f.pred.toNat = true → (x.quiet = false ∨ x.qv ≠ [] ∨ x.qm ≠ [] ∨ x.qx ≠ []) →
        exec (.end_ t f) s = .next s)) ∧
    (¬ ready → exec (.injOnce t) s = .next (discardReg s .TILE_MMA_CTL (tix t))) ∧
    (ready → exec (.injOnce t) s = .next (s.setTile t { x with inj := true })) ∧
    (x.retiring = 0 → exec (.tileRetire t) s = .next s) ∧
    (x.retiring ≠ 0 → hartRuns s 2 = false → exec (.tileRetire t) s = .next s) ∧
    (x.retiring ≠ 0 → hartRuns s 2 = true → exec (.tileRetire t) s = .next (retireTile s t)) ∧
    (x.retiring ≠ 0 → hartRuns s 2 = true → st ≠ 1 → st ≠ 3 → physOf s t < 64 →
      (∀ k, freeSpare s (t / 64) = some k → AnswersBy (applyHeld · t) (.tileRetire t) s (fun v =>
        spare v SPAN_SPARE_MAP.LOG_ID k = t % 64 ∧ spare v SPAN_SPARE_MAP.USED k = 1 ∧ (v.tile t).retiring = 0 ∧
        v.tstate t = st ∧ (v.tile t).mem = x.mem ∧ (v.tile t).imem = x.imem ∧ (v.tile t).badMem = [])) ∧
      (freeSpare s (t / 64) = none → AnswersBy (applyHeld · t) (.tileRetire t) s (fun v =>
        v.tstate t = 7 ∧ v.fld .SPAN_TILE_LOST [t / 64] ⟨t % 64, t % 64⟩ = 1 ∧ tileLost v t = true))) ∧
    (∀ (s' : State) (m cause addr : Nat) (e : QEnt), m < 4 → cause < 256 → e.pc < 2 ^ 17 → addr < 2 ^ 64 →
      let u := faultAt s s' t m e cause addr
      let y := u.tile t
      let exc (v : State) (f : Fld) := v.fld .TILE_EXC (tix t) f
      (streamClear x m e.tag = false → u = s) ∧
      (streamClear x m e.tag = true →
        y.qs = [] ∧ y.qv = [] ∧ y.qm = [] ∧ y.qx = [] ∧ y.fetchHold = true ∧ y.resv = [] ∧
        ((s'.tile t).excTag = none → exc u TILE_EXC.CAUSE = cause ∧ exc u TILE_EXC.STREAM = m ∧
          exc u TILE_EXC.PC = e.pc ∧ exc u TILE_EXC.MULTI = 0 ∧ u.rd .TILE_EXC_ADDR (tix t) = addr ∧
          y.excTag = some e.tag) ∧
        (∀ g, (s'.tile t).excTag = some g → exc u TILE_EXC.MULTI = 1 ∧ y.excTag = some (min g e.tag) ∧
          exc u TILE_EXC.PC = (if e.tag < g then e.pc else exc s' TILE_EXC.PC) ∧
          exc u TILE_EXC.CAUSE = (if e.tag < g then cause else exc s' TILE_EXC.CAUSE))))

/-- O37. R131, R143 to R149, R186, R202, R512: PREEMPT stops a running tile: what may run to its end stays, the rest is put
back; the end of its save, at which its MOVs stop, leaves it SAVED, and RESTORE reads a record that is the tile's; the record holds the pc, the next tag and the registers where R145 puts them. A program load
within its limits begins, one outside them sets ERR with PERMISSION (0x0E), and its end writes the
blocks from the source named at GO and gives its status, or writes nothing once the tile has left the states that allow it. -/
def Obligations.PreemptionAndLoads : Prop :=
  ∀ (s : State) (t : Nat) (dis : Bool), t < 512 → s.live = true →
    let x := s.tile t
    let st := s.tstate t
    let ready := tilePowered s t = true ∧ s.bit .TILE_STAT (tix t) TILE_STAT.RESETTING = false
    let d := (s.setFld .TILE_CTL (tix t) TILE_CTL.DISABLE (b2n dis)).setTstate t st
    let ld (u : State) (f : Fld) := u.fld .TILE_IMEM_LOAD (tix t) f
    (ready → st = 1 → x.aborting = false → x.retiring = 0 → x.excTag = none → Answers (.tilePreempt t dis) s (fun u =>
      u.tstate t = 3 ∧ (u.tile t).fetchHold = true ∧ (u.tile t).fence = none ∧ (u.tile t).resv = [] ∧
      (∀ l ∈ (u.tile t).loads, l ∈ x.loads ∧ opcOf l.w0 = 0x53) ∧ (∀ r ∈ (u.tile t).moves, r ∈ x.moves) ∧
      (∀ r ∈ (u.tile t).mmas, r ∈ x.mmas ∧ runsOn x (s.acNow t) r = true) ∧
      (∀ r ∈ (u.tile t).drains, r ∈ x.drains ∧ (r.st ≠ 0 ∨ r.again = true)) ∧ Tile.SameData x (u.tile t))) ∧
    (ready → st = 1 → (x.aborting = true ∨ x.retiring ≠ 0 ∨ x.excTag ≠ none) → exec (.tilePreempt t dis) s = .next d) ∧
    (ready → (st = 0 ∨ st = 2) → exec (.tilePreempt t dis) s = .next d) ∧
    (ready → (st = 3 ∨ st = 4 ∨ st = 5 ∨ st = 7) → exec (.tilePreempt t dis) s =
      .next (discardReg d .TILE_CTL (tix t))) ∧
    (∀ v, st = 3 → x.stopped = true → v = closeEpoch (x.moves.foldl (fun s m => movStop s t m) s) t →
      (contStarted v = true → exec (.preemptSaveDone t) s = .next v) ∧
      (contStarted v = false → AnswersBy (applyHeld · t) (.preemptSaveDone t) s (fun u => u.tstate t = 4 ∧
        (u.tile t).saved.map (fun p => p.2) =
          (u.tile t).qs ++ (u.tile t).qv ++ (u.tile t).qm ++ (u.tile t).qx))) ∧
    (st = 3 → x.stopped = false → exec (.preemptSaveDone t) s = .next s) ∧
    (saveWord s t 0 = BitVec.ofNat 64 (1 + 256 + 512 * s.fld .TILE_SAVE_BASE (tix t) TILE_SAVE_BASE.MEM) ∧
      saveWord s t 8 = BitVec.ofNat 64 x.pc ∧ saveWord s t 0x10 = BitVec.ofNat 64 x.nextTag ∧
      (∀ n, n < 32 → saveWord s t (0x100 + 8 * n) = x.s n) ∧
      (∀ n k, n < 8 → k < 8 → saveWord s t (0x200 + 64 * n + 8 * k) = (x.p n).extractLsb' (64 * k) 64) ∧
      (∀ n k, n < 16 → k < 64 → saveWord s t (0x400 + 512 * n + 8 * k) = (x.v n).extractLsb' (64 * k) 64) ∧
      (∀ n, n < 16 → saveWord s t (0x2400 + 8 * n) = BitVec.ofNat 64 (s.rd .FMT_DESC (tix t ++ [n])) ∧
        saveWord s t (0x2480 + 8 * n) = BitVec.ofNat 64 (s.rd .TILE_AMAX (tix t ++ [n])))) ∧
    (ready → st = 4 → s.mem.er = [] → s.mem.odd = [] →
      (recOk d t = true → exec (.tileRestore t dis) s = .next ((readSave d t).setTstate t 5)) ∧
      (recOk d t = false → exec (.tileRestore t dis) s = .next (discardReg d .TILE_CTL (tix t)))) ∧
    (ready → st ≠ 4 → exec (.tileRestore t dis) s = .next (discardReg d .TILE_CTL (tix t))) ∧
    (st = 5 → x.outs = [] → x.heldReset = false → x.heldAbort = false → AnswersAt (.restoreDone t) s t (fun v =>
      v.tstate t = 1 ∧ Tile.SameData x (v.tile t) ∧ v = { s with regs := v.regs, tiles := v.tiles } ∧
      RegsKept [regAddr .TILE_STAT (tix t)] s v)) ∧
    (st = 5 → x.outs = [] → x.heldReset = true ∨ x.heldAbort = true → AnswersBy (applyHeld · t) (.restoreDone t) s (fun v =>
      v.tstate t = 1 ∧ Tile.SameData x (v.tile t))) ∧
    (st = 5 → x.outs ≠ [] → exec (.restoreDone t) s = .next s) ∧
    (∀ dst blocks, dst < 2048 → blocks < 4096 → ready → (st = 0 ∨ st = 4 ∨ st = 7) → ld s TILE_IMEM_LOAD.BUSY = 0 →
      let bad := blocks = 0 ∨ 2048 < dst + blocks ∨
        0x30000000000 ≤ s.fld .TILE_IMEM_SRC (tix t) TILE_IMEM_SRC.ADDR * 64
      Answers (.imemLoad t dst blocks) s (fun u => ld u TILE_IMEM_LOAD.DST_BLK = dst ∧ ld u TILE_IMEM_LOAD.BLOCKS = blocks ∧
        (¬ bad → ld u TILE_IMEM_LOAD.BUSY = 1 ∧ ld u TILE_IMEM_LOAD.ERR = 0) ∧
        (bad → ld u TILE_IMEM_LOAD.BUSY = 0 ∧ ld u TILE_IMEM_LOAD.ERR = 1 ∧ ld u TILE_IMEM_LOAD.STATUS = 0x0E) ∧
        (¬ bad → u.tile t = { x with ldSrc := s.fld .TILE_IMEM_SRC (tix t) TILE_IMEM_SRC.ADDR * 64,
                                     ldCtx := s.fld .TILE_ENTRY (tix t) TILE_ENTRY.CTX_ID }) ∧
        (bad → u.tile t = x) ∧ (∀ k, k ≠ t → u.tile k = s.tile k) ∧
        u = { s with regs := u.regs, tiles := u.tiles } ∧ RegsKept [regAddr .TILE_IMEM_LOAD (tix t)] s u)) ∧
    (∀ (dst blocks : Nat), (¬ ready ∨ (st ≠ 0 ∧ st ≠ 4 ∧ st ≠ 7) ∨ ld s TILE_IMEM_LOAD.BUSY = 1) →
      exec (.imemLoad t dst blocks) s = .next (discardReg s .TILE_IMEM_LOAD (tix t))) ∧
    (∀ (ext : Ext) (s1 : State) (q : Nat), ld s TILE_IMEM_LOAD.BUSY = 1 → q < 256 →
      ((st = 0 ∨ st = 4 ∨ st = 7) ∧ imemBlocks s t x.ldCtx ext (ld s TILE_IMEM_LOAD.BLOCKS) x.ldSrc
          (ld s TILE_IMEM_LOAD.DST_BLK) = some (s1, q)) ∨ (¬ (st = 0 ∨ st = 4 ∨ st = 7) ∧ s1 = s ∧ q = 0x0E) →
      Answers (.imemLoadDone t ext) s (fun u => ld u TILE_IMEM_LOAD.BUSY = 0 ∧ ld u TILE_IMEM_LOAD.STATUS = q ∧
        ld u TILE_IMEM_LOAD.ERR = (if q = 0 then 0 else 1) ∧ u = { s1 with regs := u.regs } ∧
        RegsKept [regAddr .TILE_IMEM_LOAD (tix t)] s1 u))

/-! Trestle. -/

/-- O38. R222, R337 to R349: Trestle takes doorbells, GO and DISABLE from the software that owns it. The next posted
descriptor becomes a layer, with STALE (0x06), PERMISSION (0x0E), POISONED (0x04), CANCELLED (0x01) or DISABLED (0x09)
where it is not to be fetched; a layer past its miss point is counted and flagged, one that is ready writes its status, and
a line that fails is read again, from its replica, or marked poisoned. -/
def Obligations.TrestleLayers : Prop :=
  ∀ (s : State) (p : Nat), p < 8 → s.live = true →
    let x := s.trs p
    let own := s.owned 2
    (∀ w : BitVec 64,
      let tail := fget w.toNat LAT_DB.TAIL
      (own = false → exec (.trDoorbell p w) s = .next (discardReg s .TR_DB [p]) ∧
        exec (.trestleGo p w) s = .next (discardReg s .TR_CTL [p]) ∧
        exec (.trestleDisable p w) s = .next (discardReg s .TR_CTL [p])) ∧
      (own = true → s.bit .TR_CTL [p] TR_CTL.EN = true → tail < trSize s p → exec (.trDoorbell p w) s =
        .next (s.setTrs p { x with tail := tail, posted := x.posted + (tail + trSize s p - x.tail) % trSize s p })) ∧
      (own = true → (s.bit .TR_CTL [p] TR_CTL.EN = false ∨ trSize s p ≤ tail) →
        exec (.trDoorbell p w) s = .next (discardReg s .TR_DB [p])) ∧
      (own = true → trBusy s p = true → exec (.trestleGo p w) s = .next (discardReg s .TR_CTL [p])) ∧
      (own = true → trBusy s p = false → (∀ q ∈ s.stay.waits, q.home ≠ p) → Answers (.trestleGo p w) s (fun u =>
        (u.trs p).go = true ∧ (u.trs p).next = 0 ∧ (u.trs p).times = [(0, s.rd .SPAN_AC_CNT [p])] ∧
        (u.trs p).stats = [] ∧ (u.trs p).inst = [] ∧ (∀ i < 64, (u.tile (64 * p + i)).wants = []) ∧ ∀ f ∈ [TR_SYNC.START_IDX, TR_SYNC.READY_IDX, TR_SYNC.DONE_IDX],
          u.ctr p (s.fld .TR_SYNC [p] f) = Ctr.zero)) ∧
      (own = true → fget w.toNat TR_CTL.GO = 0 → s.bit .TR_CTL [p] TR_CTL.EN = true →
        s.bit .TR_CTL [p] TR_CTL.DISABLE = false → Answers (.trestleDisable p w) s (fun u =>
        u.bit .TR_CTL [p] TR_CTL.DISABLE = true ∧
        (let cut (l : TrLayer) : TrLayer := { l with stat := statFold l.stat 0x01 }
         u.trs p = { x with cut := some x.posted,
                            run := if fget w.toNat TR_CTL.ABORT_EN = 1 then x.run.map cut else x.run })))) ∧
    (trReady s p = false → exec (.trestleSeqReread p) s = .next s ∧ exec (.trestleLayerFetch p) s = .next s) ∧
    (trReady s p = true → x.cut = none →
      (∀ ws, trHead s p = some ws → dW ws 0 63 56 = x.started % 256 → exec (.trestleSeqReread p) s = .next s) ∧
      ((∀ ws, trHead s p = some ws → dW ws 0 63 56 ≠ x.started % 256) → exec (.trestleLayerFetch p) s = .next s ∧
        (x.tries + 1 < 8 → exec (.trestleSeqReread p) s = .next (s.setTrs p { x with tries := x.tries + 1 })) ∧
        (7 ≤ x.tries → Answers (.trestleSeqReread p) s (fun u => LayerAdded x (u.trs p) ((trHead s p).getD []) 0x06 ∧
          u = { s with tr := u.tr }))) ∧
      (∀ ws, trHead s p = some ws → dW ws 0 63 56 = x.started % 256 →
        Answers (.trestleLayerFetch p) s (fun u => u = { s with tr := u.tr } ∧ LayerAdded x (u.trs p) ws
          (if trDescOk s p ws = false then 0x0E
           else if objPoisoned s (dW ws 0 15 0) = true ∨ (dW ws 0 16 16 = 1 ∧ objPoisoned s (dW ws 3 15 0) = true) then 0x04
           else 0)))) ∧
    (trReady s p = true → ∀ c, x.cut = some c → exec (.trestleSeqReread p) s = .next s ∧ Answers (.trestleLayerFetch p) s (fun u => u = { s with tr := u.tr } ∧
      LayerAdded x (u.trs p) ((trHead s p).getD []) (if x.started < c then 0x01 else 0x09))) ∧
    (∀ (n : Nat) (l : TrLayer), x.run.find? (fun l => l.n == n) = some l → l.stat = 0 → l.missed = false →
      (trMissAt s p l false = false → exec (.trestleMiss p n) s = .next s) ∧
      (trMissAt s p l false = true → Answers (.trestleMiss p n) s (fun u =>
        let sh := decide (dW l.words 0 16 16 = 1)
        u.fld .TR_STAT [p] TR_STAT.MISS_CNT = satAdd TR_STAT.MISS_CNT (s.fld .TR_STAT [p] TR_STAT.MISS_CNT) 1 ∧
        u.fld .TR_STAT [p] TR_STAT.SHADOW_CNT =
          satAdd TR_STAT.SHADOW_CNT (s.fld .TR_STAT [p] TR_STAT.SHADOW_CNT) (b2n sh) ∧
        u.bit .TR_FLAGS [p] TR_FLAGS.DL_MISS = true ∧ (sh = true → u.bit .TR_FLAGS [p] TR_FLAGS.SHADOW = true) ∧
        (u.trs p).run = x.run.map (fun l => if l.n = n then (if sh then { l with missed := true, shadow := true, got := [] }
          else { l with missed := true }) else l) ∧
        u = { s with regs := u.regs, tr := u.tr }))) ∧
    (∀ (ext : Ext) (l : TrLayer) (r : List TrLayer), x.run = l :: r →
      (l.stat ≠ 0 → exec (.trestleLayerReady p ext) s = .next ((trEnd s p l l.stat ext).getD s)) ∧
      (l.stat = 0 → ∀ (s1 : State) (l1 : TrLayer) (r1 : List TrLayer),
        s1 = (if l.missed = false ∧ trMissAt s p l true = true then trMiss s p l else s) → (s1.trs p).run = l1 :: r1 →
        (trLines s1 p l1 (trOffs l1) ext = none → exec (.trestleLayerReady p ext) s = .next s1) ∧
        (∀ s2 bad st, trLines s1 p l1 (trOffs l1) ext = some (s2, bad, st) →
          (s2.live = true → exec (.trestleLayerReady p ext) s =
            .next ((trEnd s2 p l1 (statFold (statFold st (if bad then 0x04 else 0))
              (if l1.shadow then 0x05 else if l1.missed then 0x0B else 0)) ext).getD s1)) ∧
          (s2.live = false → exec (.trestleLayerReady p ext) s = .next s2)))) ∧
    (∀ (ext : Ext) (l : TrLayer) (st : Nat),
      let w := st + b2n l.shadow * 256 + l.n % 2 ^ 32 * 2 ^ 16
      let put := if l.words = [] then some s else
        (engWrite s (dW l.words 0 31 24) (unitSpan p 0x51) false false (dW l.words 5 41 0) (leBytes 8 w) [] ext).map (·.1)
      (put = none → trEnd s p l st ext = none) ∧
      (∀ s1, put = some s1 → ∃ u, trEnd s p l st ext = some (sigAdd u p (u.fld .TR_SYNC [p] TR_SYNC.READY_IDX)) ∧
        u.trs p = { s1.trs p with run := (s1.trs p).run.filter (fun y => y.n != l.n)
                                  stats := mins (s1.trs p).stats l.n (st + b2n l.missed * 256 + b2n l.shadow * 512) } ∧
        (∀ i < 64, l.n ∈ (s1.tile (64 * p + i)).wants → u.tile (64 * p + i) =
          { (s1.tile (64 * p + i)).tookLayer (st + b2n l.missed * 256 + b2n l.shadow * 512) with
              wants := sdel (s1.tile (64 * p + i)).wants l.n }) ∧
        (∀ t, (64 * p ≤ t → t < 64 * p + 64 → l.n ∉ (s1.tile t).wants) → u.tile t = s1.tile t) ∧
        u = { s1 with tr := u.tr, tiles := u.tiles })) ∧
    (∀ (n off ln ty : Nat) (act : Nat) (again rep : Ext) (l : TrLayer), x.run.find? (fun l => l.n == n) = some l →
      l.stat = 0 → off ∈ trOffs l → mfind l.got off = none →
      (decLocal s (.eng (dW l.words 0 31 24) (unitSpan p 0x51)) (objPage s (trSrc l).1 * 2097152 + off) false).1 =
        .ok (.line ln ty) act →
      (isFar ln = false → exec (.trestleLineRetry p n off again rep) s = .next s) ∧
      (isFar ln = true →
        let got (w : State) (v : LineVal) := (w.trs p).run.map (fun k => if k.n = n then { k with got := mins k.got off v } else k)
        let id := (trSrc l).1
        let bad := hostUp s = false ∨ again.status ≠ 0 ∨ farAddr ln ∈ again.poison
        let s1 := s.satInc .TR_STAT [p] TR_STAT.RETRY_CNT 1
        let rp := (objWord s id 1).toNat
        let s2 := if rp = 0 then s1 else s1.setFld .TR_FLAGS [p] TR_FLAGS.REPLICA_USED 1
        (¬ bad → Answers (.trestleLineRetry p n off again rep) s (fun u =>
          u.fld .TR_STAT [p] TR_STAT.RETRY_CNT = satAdd TR_STAT.RETRY_CNT (s.fld .TR_STAT [p] TR_STAT.RETRY_CNT) 1 ∧
          (u.trs p).run = got s (extLine again (farAddr ln)) ∧
          u = { s with regs := u.regs, tr := u.tr } ∧ RegsKept [regAddr .TR_STAT [p]] s u)) ∧
        (bad → repLine s2 rp off rep = none → exec (.trestleLineRetry p n off again rep) s = .next s) ∧
        (bad → ∀ s3 v, repLine s2 rp off rep = some (s3, some v) → Answers (.trestleLineRetry p n off again rep) s (fun u =>
          (u.trs p).run = got s3 v ∧ u = { s3 with tr := u.tr })) ∧
        (bad → ∀ s3, repLine s2 rp off rep = some (s3, none) →
          let s4 := setObjWord s3 id 0 (objWord s3 id 0 ||| BitVec.ofNat 64 (2 ^ 54))
          Answers (.trestleLineRetry p n off again rep) s (fun u => u.bit .TR_FLAGS [p] TR_FLAGS.POISON = true ∧
            (∃ d, (u.trs p).run = got s4 ⟨d, BitVec.allOnes 4, 0⟩) ∧
            u = { s4 with regs := u.regs, tr := u.tr, freeCtr := u.freeCtr } ∧
            RegsKept [regAddr .TR_FLAGS [p]] s4 u))))

/-! Command rings and queue service. -/

/-- O39. R359 to R369, R371, R386, R415: a ring is enabled with legal areas or reports ERR; a doorbell posts slots, or stops
the ring with PERMISSION (0x0E) when it posts too many; a slot that cannot be read stops the ring, one with another SEQ is
re-read 8 times and then completed as STALE (0x06), an illegal one is completed with PERMISSION, and a legal one waits to
start. Queue service starts the next head on free tiles, wakes groups it needs, keeps starved heads' Spans, and records what
has ended; DISABLE, ABORT and EN = 0 act as R367 to R369 say. -/
def Obligations.CommandRings : Prop :=
  ∀ (s : State) (r : Nat), r < 4096 → s.live = true →
    let x := s.ring r
    let n := ringSize s r
    let c (u : State) (f : Fld) := u.fld .RING_CTL [r] f
    let st (u : State) (f : Fld) := u.fld .RING_STAT [r] f
    let areas (ctx : Nat) :=
      areaOk s (s.fld .RING_BASE [r] RING_BASE.ADDR * 64) (64 * n) ctx (s.bit .RING_BASE [r] RING_BASE.HOST) false = true ∧
      areaOk s (s.fld .RING_CPL [r] RING_CPL.ADDR * 8) (8 * n) ctx (s.bit .RING_CPL [r] RING_CPL.HOST) true = true
    (∀ w : BitVec 64,
      let ctx := fget w.toNat RING_CTL.CTX_ID
      let tail := fget w.toNat RING_DB.TAIL
      let new := (tail + n - x.tail) % n
      (c s RING_CTL.EN = 0 → c s RING_CTL.DISABLE = 0 → fget w.toNat RING_CTL.DISABLE = 0 → areas ctx →
        Answers (.ringEnable r w) s (fun u => c u RING_CTL.EN = 1 ∧ c u RING_CTL.CTX_ID = ctx ∧ u.ring r = Ring.zero ∧
          st u RING_STAT.ERR = 0 ∧
          u = { s with regs := u.regs, q := { s.q with rings := u.q.rings, starve := u.q.starve } })) ∧
      (c s RING_CTL.EN = 0 → c s RING_CTL.DISABLE = 0 → ¬ areas ctx → exec (.ringEnable r w) s =
        .next (discardReg (s.setFld .RING_STAT [r] RING_STAT.ERR 1) .RING_CTL [r])) ∧
      (c s RING_CTL.DISABLE = 0 → fget w.toNat RING_CTL.DISABLE = 0 → Answers (.ringEnClear r w) s (fun u =>
        c u RING_CTL.EN = 0 ∧ st u RING_STAT.STOPPED = 0 ∧ u.ring r = { x with cut := none } ∧
        u = { s with regs := u.regs, q := { s.q with rings := u.q.rings } })) ∧
      (c s RING_CTL.EN = 1 → c s RING_CTL.DISABLE = 0 → fget w.toNat RING_CTL.EN = 1 →
        AnswersBy (ringDisableGo · r) (.ringDisable r w) s (fun v => c v RING_CTL.DISABLE = 1 ∧
          c v RING_CTL.CTX_ID = c s RING_CTL.CTX_ID ∧ v.q = s.q)) ∧
      (s.bit .RING_CTL [r] RING_CTL.EN = true → tail < n → ringStopped s r = false →
        (x.posted - x.low - x.recs.length + new ≤ n → exec (.ringDoorbell r w) s =
          .next (s.setRing r { x with tail := tail, posted := x.posted + new })) ∧
        (n < x.posted - x.low - x.recs.length + new → exec (.ringDoorbell r w) s =
          .next (discardReg (ringStop s r 0x0E) .RING_DB [r]))) ∧
      (s.bit .RING_CTL [r] RING_CTL.EN = false ∨ n ≤ tail ∨ ringStopped s r = true →
        exec (.ringDoorbell r w) s = .next (discardReg s .RING_DB [r])) ∧
      (∀ s1 q, abortSeq (s.plain .RING_ABORT [r] (fput w.toNat RING_ABORT.GO 1)) r (fget w.toNat RING_ABORT.SEQ) = (s1, q) →
        q < 256 → Answers (.ringAbort r w) s (fun u => u.fld .RING_ABORT [r] RING_ABORT.RESULT = q ∧
          u = { skipRecorded 4096 s1 r with regs := u.regs }))) ∧
    (∀ q, (seqNum x q = none → abortSeq s r q = (s, 0x0E)) ∧
      (∀ k, seqNum x q = some k → x.recorded k = true → abortSeq s r q = (s, 0x02)) ∧
      (∀ k, seqNum x q = some k → x.recorded k = false → (∀ d ∈ s.q.disps, ¬ (d.ring = r ∧ d.num = k)) →
        abortSeq s r q = (complete (s.setRing r { x with elig := x.elig.filter (fun e => e.1 != k) }) r k 0x01 0
          (match x.elig.find? (fun e => e.1 == k) with
           | some e => dW e.2 0 9 9 == 1
           | none => false), 0)) ∧
      (∀ k d, seqNum x q = some k → x.recorded k = false → s.q.disps.find? (fun d => d.ring == r && d.num == k) = some d →
        (d.force ≠ none → abortSeq s r q = (s, 0x02)) ∧
        (d.force = none → dW d.words 0 7 0 = 2 → abortSeq s r q =
          (complete { s with q := { s.q with disps := s.q.disps.filter (fun e => e.id != d.id) } } r k 0x01 0
            (dW d.words 0 9 9 == 1), 0)) ∧
        (d.force = none → dW d.words 0 7 0 ≠ 2 → abortSeq s r q =
          (endDisp (mapDisp s d.id (fun d => { d.forced 0x01 with aborted := true })) d.id 0x01 none, 0)))) ∧
    (∀ (num q bits : Nat) (int : Bool),
      let s1 := s.setRing r (x.record num)
      let o : Owed := ⟨r, num, s.bit .RING_CPL [r] RING_CPL.HOST, s.fld .RING_CPL [r] RING_CPL.ADDR * 8 + num % n * 8,
        q % 256 + bits % 256 * 2 ^ 8 + num % 2 ^ 32 * 2 ^ 32,
        if int = true ∧ c s RING_CTL.INT_EN = 1 then some (c s RING_CTL.VEC) else none⟩
      let lost := hostBound s r = true ∧ ringStopped s r = true ∧ st s RING_STAT.STOP_STATUS = 0x0A
      (lost → complete s r num q bits int = s1) ∧
      (¬ lost → (∀ s2, writeCpl s1 o = some s2 → complete s r num q bits int = s2) ∧
        (writeCpl s1 o = none → complete s r num q bits int = { s1 with q := { s1.q with owed := s1.q.owed ++ [o] } }))) ∧
    (∀ p ∈ ([(.ringSlotRead, false), (.ringSlotReread, true)] : List ((Nat → Ext → Instr) × Bool)), ∀ (ext : Ext),
      let open_ := qsAlive s = true ∧ s.bit .RING_CTL [r] RING_CTL.EN = true ∧ ringStopped s r = false ∧ x.read < x.posted ∧
        ((x.tries ≠ 0) ↔ p.2 = true)
      (¬ open_ → exec (p.1 r ext) s = .next s) ∧
      (open_ → ringSlot s r ext = none → exec (p.1 r ext) s = .next s) ∧
      (∀ s1 k ws, open_ → ringSlot s r ext = some (s1, k, ws) → s1.live = false → exec (p.1 r ext) s = .next s1) ∧
      (∀ s1 k ws, open_ → ringSlot s r ext = some (s1, k, ws) → s1.live = true →
        let seq := dW ws 0 63 32
        let int := decide (dW ws 0 9 9 = 1)
        (k ≠ 0 → exec (p.1 r ext) s = .next (ringStop (s1.setRing r { x with tries := 0 }) r k)) ∧
        (k = 0 → seq ≠ x.read % 2 ^ 32 → x.tries < 8 → exec (p.1 r ext) s =
          .next (s1.setRing r { x with tries := x.tries + 1 })) ∧
        (k = 0 → seq ≠ x.read % 2 ^ 32 → 8 ≤ x.tries → exec (p.1 r ext) s =
          .next (complete (slotPassed s1 x r) r x.read (if x.cut.isSome then 0x09 else 0x06) 0 false)) ∧
        (k = 0 → seq = x.read % 2 ^ 32 → x.cut ≠ none → exec (p.1 r ext) s =
          .next (complete (slotPassed s1 x r) r x.read 0x09 0 int)) ∧
        (k = 0 → seq = x.read % 2 ^ 32 → x.cut = none → ringDescOk s1 r ws = false → exec (p.1 r ext) s =
          .next (complete (slotPassed s1 x r) r x.read 0x0E 0 int)) ∧
        (k = 0 → seq = x.read % 2 ^ 32 → x.cut = none → ringDescOk s1 r ws = true → exec (p.1 r ext) s =
          .next ((slotPassed s1 x r).setRing r { (slotPassed s1 x r).ring r with
            elig := ((slotPassed s1 x r).ring r).elig ++ [(x.read, ws)] })))) ∧
    ((∀ o num ws, ringHead s o = some (num, ws) → dW ws 0 7 0 = 1 → headFits s ws = true) → refuseHeads s = s) ∧
    (∀ (o num : Nat) (ws : List (BitVec 64)), ringsUp s = [o] → ringHead s o = some (num, ws) → dW ws 0 7 0 = 1 →
      headFits s ws = false → refuseHeads s =
        complete (s.setRing o { s.ring o with elig := (s.ring o).elig.drop 1 }) o num 0x0E 0 (dW ws 0 9 9 == 1)) ∧
    (∀ ext : Ext, (qsRuns s = false → exec (.dispatchStart ext) s = .next s) ∧
      (qsRuns s = true →
        let s' := refuseHeads s
        (nextRing s' = none → exec (.dispatchStart ext) s = .next s') ∧
        (∀ (num win : Nat) (ws : List (BitVec 64)) (s1 : State), nextRing s' = some r →
          ringHead s' r = some (num, ws) → headWin s' ws = some (win, s1) →
          let ctx := c s' RING_CTL.CTX_ID
          let d : Disp := ⟨s'.q.last + 1, r, num, ws, [], 0, none, 0, boundEpochs s' ctx, win, false, false⟩
          let ts := (freeTiles s' r ws).take (dW ws 4 28 20 + 1)
          let qn : Queue := { s1.q with disps := s1.q.disps ++ [d], last := s'.q.last + 1, turn := (r + 1) % 4096 }
          let s2 := ({ s1 with q := qn }).setRing r { s1.ring r with elig := (s1.ring r).elig.drop 1 }
          ((∃ t ∈ ts, tilePowered s' t = false) → exec (.dispatchStart ext) s = .next (wakeFor s' ts)) ∧
          ((∀ t ∈ ts, tilePowered s' t = true) → exec (.dispatchStart ext) s =
            .next ((startTiles (if dW ws 5 24 24 = 1 then s2 else initWin s2 win) d ctx 0 ts ext).getD s'))))) ∧
    (∀ (d : Disp) (ctx rank : Nat) (ext : Ext), startTiles s d ctx rank [] ext = some s ∧
      ∀ (t : Nat) (ts : List Nat), (startOne s d ctx rank t ext = none → startTiles s d ctx rank (t :: ts) ext = none) ∧
        (∀ s1 q, startOne s d ctx rank t ext = some (s1, q) → s1.live = true →
          (q = 0 → startTiles s d ctx rank (t :: ts) ext =
            startTiles (mapDisp s1 d.id (fun d => { d with tiles := d.tiles ++ [t] })) d ctx (rank + 1) ts ext) ∧
          (q ≠ 0 → startTiles s d ctx rank (t :: ts) ext = some (endDisp (mapDisp s1 d.id (fun d =>
            { d with bits := d.bits ||| (if q = 0x04 then 32 else if q = 0x03 then 16 else 0) })) d.id q none)))) ∧
    (∀ (num : Nat) (ws : List (BitVec 64)), ringHead s r = some (num, ws) →
      (dW ws 0 7 0 = 2 → qsRuns s = true → Answers (.marker r) s (fun u => u.ring r = { x with elig := x.elig.drop 1 } ∧
        u.q.disps = s.q.disps ++ [⟨s.q.last + 1, r, num, ws, [], 0, none, 0, [], 0, false, false⟩] ∧
        u.q.last = s.q.last + 1 ∧ u = { s with regs := u.regs, q := u.q })) ∧
      (dW ws 0 7 0 ≠ 2 ∨ qsRuns s = false → exec (.marker r) s = .next s) ∧
      (dW ws 0 7 0 = 1 → (freeTiles s r ws).length ≤ dW ws 4 28 20 → r ∉ s.q.starve →
        exec (.dispatchHeadStarve r) s = .next { s with q := { s.q with starve := s.q.starve ++ [r] } }) ∧
      (dW ws 0 7 0 ≠ 1 ∨ dW ws 4 28 20 < (freeTiles s r ws).length ∨ r ∈ s.q.starve →
        exec (.dispatchHeadStarve r) s = .next s)) ∧
    (ringHead s r = none → exec (.marker r) s = .next s ∧ exec (.dispatchHeadStarve r) s = .next s) ∧
    (∀ num : Nat, qsAlive s = false → exec (.dispatchComplete r num) s = .next s) ∧
    (∀ (num : Nat) (d : Disp), qsAlive s = true → s.q.disps.find? (fun d => d.ring == r && d.num == num) = some d →
      (dispDone s d = false → exec (.dispatchComplete r num) s = .next s) ∧
      (dispDone s d = true → exec (.dispatchComplete r num) s = .next (complete (dispFree s d) r num
        (if d.aborted then 0x01 else
          statFold (((d.tiles.map (tileOutcome s)).map (·.1)).foldl statFold (statFold d.stat 0)) (d.force.getD 0))
        (((d.tiles.map (tileOutcome s)).map (·.2)).foldl (· ||| ·) d.bits) (dW d.words 0 9 9 == 1)))) ∧
    (∀ (num : Nat) (o : Owed), qsAlive s = true → (∀ d ∈ s.q.disps, ¬ (d.ring = r ∧ d.num = num)) →
      s.q.owed.find? (fun o => o.ring == r && o.num == num) = some o →
      (∀ s1, writeCpl s o = some s1 →
        exec (.dispatchComplete r num) s = .next { s1 with q := { s1.q with owed := s1.q.owed.filter (· != o) } }) ∧
      (writeCpl s o = none → exec (.dispatchComplete r num) s = .next s))

/-! The host port. -/

/-- O40. R353, R354, R370 to R373: the port trains in a protocol its MODE allows and takes its host window; the host's answers
at the far home fill the waiting message or acknowledge a write. The loss of the host, its link reset and an endpoint reset
start one drain, with their CAUSE; the drain's time limit ends what still runs, and Parked is entered with a fresh EPOCH. -/
def Obligations.HostPort : Prop :=
  ∀ s : State,
    let p (u : State) (f : Fld) := u.fld .P0_CLC_STAT [] f
    let k (u : State) (f : Fld) := u.fld .KST_PARK [] f
    (s.up = true →
      (∀ (cxl : Bool) (lanes : Nat), hostUp s = false → k s KST_PARK.DRAINING = 0 → 1 ≤ lanes → lanes ≤ 16 →
        ¬ (s.clc.mode = 1 ∧ cxl = true) → ¬ (s.clc.mode = 2 ∧ cxl = false) →
        Answers (.hostLinkTrained cxl lanes) s (fun u => p u P0_CLC_STAT.LINK_UP = 1 ∧ p u P0_CLC_STAT.CXL = b2n cxl ∧
          p u P0_CLC_STAT.LANES = lanes ∧ u = { s with regs := u.regs, plc := { s.plc with lost := [] } } ∧
          RegsKept [regAddr .P0_CLC_STAT []] s u)) ∧
      (∀ (cxl : Bool) (lanes : Nat), (hostUp s = true ∨ k s KST_PARK.DRAINING = 1 ∨ lanes = 0 ∨ 16 < lanes ∨
        (s.clc.mode = 1 ∧ cxl = true) ∨ (s.clc.mode = 2 ∧ cxl = false)) → exec (.hostLinkTrained cxl lanes) s = .next s) ∧
      (∀ v, hostUp s = false → exec (.hwinProgram v) s = .next s) ∧
      (∀ v, v < 1024 → hostUp s = true → Answers (.hwinProgram v) s (fun u =>
        p u P0_CLC_STAT.HWIN = v ∧ p u P0_CLC_STAT.HWIN_VALID = 1 ∧ u = { s with regs := u.regs } ∧
        RegsKept [regAddr .P0_CLC_STAT []] s u)) ∧
      (∀ (line : Nat) (data : BitVec 1024) (pz : BitVec 4) (err : Bool),
        (hostUp s = false → ∀ wr, exec (.hostResponseAtFarHome line wr data pz err) s = .next s) ∧
        (hostUp s = true → exec (.hostResponseAtFarHome line true data pz err) s =
          .next { s with mem := { s.mem with farPend := s.mem.farPend.eraseP (fun w => w.1 == line) } }) ∧
        (hostUp s = true → line ∉ s.mem.farRd → exec (.hostResponseAtFarHome line false data pz err) s = .next s) ∧
        (hostUp s = true → line ∈ s.mem.farRd → Answers (.hostResponseAtFarHome line false data pz err) s (fun u =>
          line ∉ u.mem.farRd ∧ (∀ l, l ≠ line → (l ∈ u.mem.farRd ↔ l ∈ s.mem.farRd)) ∧
          u.mem.net = s.mem.net.map (fun m => if m.k = .data ∧ m.line = line then
            { m with v := ⟨data, if err then 0xF else pz, 0⟩ } else m) ∧
          u = { s with mem := { s.mem with farRd := u.mem.farRd, net := u.mem.net } }))) ∧
      (hostUp s = false → exec .hostLinkLoss s = .next s ∧ exec .hostLinkReset s = .next s) ∧
      (hostUp s = true → k s KST_PARK.DRAINING = 1 → exec .hostLinkLoss s = .next s ∧ exec .hostLinkReset s = .next s) ∧
      (∀ q ∈ ([(.hostLinkLoss, 0), (.hostLinkReset, 1)] : List (Instr × Nat)), hostUp s = true →
        exec q.1 s = .next (hostLoss s q.2)) ∧
      (∀ w : BitVec 64, let bad := fget w.toNat P0_CLC_CFG.MODE = 3 ∨ fget w.toNat P0_CLC_CFG.DRAIN_MS = 0
        (bad → exec (.clcEpReset w) s = .next (discardReg s .P0_CLC_CFG [])) ∧
        (¬ bad → AnswersBy (hostLoss · 2) (.clcEpReset w) s (fun v =>
          v.fld .P0_CLC_CFG [] P0_CLC_CFG.MODE = fget w.toNat P0_CLC_CFG.MODE ∧
          v.fld .P0_CLC_CFG [] P0_CLC_CFG.DRAIN_MS = fget w.toNat P0_CLC_CFG.DRAIN_MS ∧ v = { s with regs := v.regs })))) ∧
    (∀ cause, cause < 4 →
      (k s KST_PARK.DRAINING = 1 → hostLoss s cause = s) ∧
      (k s KST_PARK.DRAINING = 0 → k (hostLoss s cause) KST_PARK.PARKED = 1 ∨
        (k (hostLoss s cause) KST_PARK.DRAINING = 1 ∧ k (hostLoss s cause) KST_PARK.CAUSE = cause))) ∧
    (s.live = true →
      (k s KST_PARK.DRAINING = 0 → exec .parkDrainTimeout s = .next s ∧ exec .parkEnter s = .next s) ∧
      (k s KST_PARK.DRAINING = 1 → s.q.disps = [] → exec .parkDrainTimeout s = .next
        ((s.tiles.map (·.1)).foldl (fun s t => if s.tstate t = 0 ∨ s.tstate t = 7 then s else abortWrite s t) s)) ∧
      (k s KST_PARK.DRAINING = 1 → ∀ (d : Disp), s.q.disps = [d] → d.tiles = [] → s.tiles = [] →
        Answers .parkDrainTimeout s (fun u => ∃ e, u.q.disps = [e] ∧ e.force = some (statFold (d.force.getD 0) 0x0A) ∧
          e.stat = statFold d.stat 0x0A ∧ e.ending = true ∧ u = { s with q := u.q })) ∧
      (k s KST_PARK.DRAINING = 1 → drained s = false → exec .parkEnter s = .next s) ∧
      (k s KST_PARK.DRAINING = 1 → drained s = true → Answers .parkEnter s (fun u =>
        k u KST_PARK.PARKED = 1 ∧ k u KST_PARK.DRAINING = 0 ∧ (∀ c, c < 64 → coreState u c ≠ 1) ∧ ∃ n, k u KST_PARK.EPOCH = (Config.freeWord n).toNat % 2 ^ 32 ∧
          u.freeCtr = n + 1)))

/-! The Keystone. -/

/-- O41. R379 to R386, R388, R446: a write of KST_CORE_CTL resets, holds or lets a core run; a hart that misses its
heartbeat or mismatches stops, is counted, and runs again after its reload, the third mismatch of 24 hours triggering
containment; a call that has a status ends, one without ends in time with INTERNAL (0x0F), and its outputs, STATUS and BUSY
follow; tiles are excluded once no dispatch of queue service holds them. -/
def Obligations.CoresHartsAndCalls : Prop :=
  ∀ s : State,
    let run (u : State) (h : Nat) := hartRuns u h
    (s.live = true →
      (∀ q ∈ ([.coreReset, .coreHold] : List (Nat → BitVec 64 → Instr)), ∀ (c : Nat) (w : BitVec 64), c < 64 →
        let hold := fget w.toNat KST_CORE_CTL.HOLD
        let rst := fget w.toNat KST_CORE_CTL.RESET
        let rvec := fget w.toNat KST_CORE_CTL.RVEC
        let held (u : State) := u.fld .KST_CORE_CTL [c] KST_CORE_CTL.HOLD = hold ∧
          u.fld .KST_CORE_CTL [c] KST_CORE_CTL.RVEC = rvec
        (2 ^ 36 ≤ rvec ∨ (coreRetired s c = true ∧ hold = 0) →
          exec (q c w) s = .next (discardReg s .KST_CORE_CTL [c])) ∧
        (rvec < 2 ^ 36 → (coreRetired s c = false ∨ hold = 1) → Answers (q c w) s (fun u => held u ∧
          (coreState s c = 2 → coreState u c = 2 ∧ u.kst = s.kst ∧ u.mem = s.mem) ∧
          (coreState s c ≠ 2 → (hold = 1 ∨ rst = 1) → coreState u c = 0 ∧ (∀ e ∈ u.mem.coreRsv, e.1 ≠ c)) ∧
          (coreState s c ≠ 2 → rst = 1 → c ∈ u.kst.coreRst) ∧
          (coreState s c = 0 → hold = 0 → rst = 0 → c ∉ s.kst.coreRst → s.bit .KST_PARK [] KST_PARK.PARKED = false →
            coreState u c = 1) ∧
          (coreState s c = 1 → hold = 0 → rst = 0 → coreState u c = 1) ∧
          u = { s with regs := u.regs, mem := { s.mem with coreRsv := u.mem.coreRsv }, kst := u.kst }))) ∧
      (∀ c, c < 64 → c ∈ s.kst.coreRst → Answers (.coreResetDone c) s (fun u => c ∉ u.kst.coreRst ∧
        (coreState s c = 0 → s.bit .KST_CORE_CTL [c] KST_CORE_CTL.HOLD = false → coreRetired s c = false →
          s.bit .KST_PARK [] KST_PARK.PARKED = false → coreState u c = 1) ∧
        (s.bit .KST_CORE_CTL [c] KST_CORE_CTL.HOLD = true → coreState u c = coreState s c) ∧
        u = { s with regs := u.regs, kst := { s.kst with coreRst := u.kst.coreRst } } ∧
        RegsKept [regAddr .KST_CORE_STAT [c]] s u)) ∧
      (∀ c, c ∉ s.kst.coreRst → exec (.coreResetDone c) s = .next s) ∧
      (∀ (p : Nat) (w : BitVec 64), p < 8 → Answers (.qsExclWrite p w) s (fun u =>
        u.rd .KST_QS_EXCL [p] = w.toNat ∧
        (s.q.disps = [] → ∀ k, k < 8 → u.rd .KST_QS_EXCL_ACT [k] = u.rd .KST_QS_EXCL [k]) ∧
        u = { s with regs := u.regs }))) ∧
    (s.up = true →
      (∀ h, h < 4 → h ≠ 1 →
        (run s h = true → AnswersBy (recordAt · (unitKst (0x41 + h)) 1 0x0D 0 none) (.hartHeartbeatTimeout h) s (fun v =>
          run v h = false ∧ (∀ j, j < 4 → j ≠ h → run v j = run s j) ∧
          v.fld .KST_HART_STAT [] KST_HART_STAT.RESTART_CNT = satAdd KST_HART_STAT.RESTART_CNT
            (s.fld .KST_HART_STAT [] KST_HART_STAT.RESTART_CNT) 1 ∧
          v = { s with regs := v.regs } ∧ RegsKept [regAddr .KST_HART_STAT []] s v)) ∧
        (run s h = false → exec (.hartHeartbeatTimeout h) s = .next s ∧ Answers (.hartReloadDone h) s (fun u =>
          run u h = true ∧ (∀ j, j < 4 → j ≠ h → run u j = run s j) ∧ u = { s with regs := u.regs } ∧
          RegsKept [regAddr .KST_HART_STAT []] s u))) ∧
      (run s 1 = true → AnswersBy (fun v => recordAt (pwrSync (fixedBreak v)) (unitKst 0x42) 1 0x0D 0 none)
        (.hartHeartbeatTimeout 1) s (fun v => run v 1 = false ∧ (∀ j, j < 4 → j ≠ 1 → run v j = run s j) ∧
        v.fld .KST_HART_STAT [] KST_HART_STAT.RESTART_CNT = satAdd KST_HART_STAT.RESTART_CNT
          (s.fld .KST_HART_STAT [] KST_HART_STAT.RESTART_CNT) 1 ∧
        v = { s with regs := v.regs, pwr := { s.pwr with lim := sins s.pwr.lim 24 } } ∧
        RegsKept [regAddr .KST_HART_STAT []] s v)) ∧
      (run s 1 = false → exec (.hartHeartbeatTimeout 1) s = .next s ∧ AnswersBy pwrSync (.hartReloadDone 1) s (fun v =>
        run v 1 = true ∧ (∀ j, j < 4 → j ≠ 1 → run v j = run s j) ∧
        v = { s with regs := v.regs, pwr := { s.pwr with lim := sdel s.pwr.lim 24 } } ∧
        RegsKept [regAddr .KST_HART_STAT []] s v)) ∧
      (∀ h, (4 ≤ h ∨ run s h = true) → exec (.hartReloadDone h) s = .next s) ∧
      (run s 2 = false → exec .lockstepMismatch s = .next s) ∧
      (run s 2 = true →
        let ts := s.clk.fc :: s.ras.lsTimes.filter (fun t => decide (s.clk.fc < t + 24 * 3600 * fcSec))
        let seen (v : State) := run v 2 = false ∧ v.ras.lsTimes = ts ∧
          v.fld .KST_HART_STAT [] KST_HART_STAT.LS_MISMATCH_CNT = satAdd KST_HART_STAT.LS_MISMATCH_CNT
            (s.fld .KST_HART_STAT [] KST_HART_STAT.LS_MISMATCH_CNT) 1
        (ts.length < 3 → AnswersBy (recordAt · (unitKst 0x43) 1 0x0D 0 none) .lockstepMismatch s seen) ∧
        (3 ≤ ts.length → AnswersBy (fun v => recordAt (contTrigger (recordAt v (unitKst 0x43) 1 0x0D 0 none)
          (unitKst 0x43) 8 0x0D none none) (unitKst 0x43) 6 0x0D 0 none) .lockstepMismatch s seen))) ∧
    (∀ (m : Nat) (c : Call), callOf s m = some c → callServed s m = true →
      (∀ st, c.stat = some st → exec (.mboxCallComplete m) s = .next (callEnd s c st)) ∧
      (c.stat = none → exec (.mboxCallComplete m) s = .next s ∧ exec (.mboxCallTimeout m) s = .next (callEnd s c 0x0F)) ∧
      (∀ st, st < 256 → m < 257 → c.int = false → c.outs = [] → callOf (callEnd s c st) m = none ∧
        (callEnd s c st).fld .KST_MBOX_STAT [m] KST_MBOX_STAT.STATUS = st ∧
        (callEnd s c st).bit .KST_MBOX_STAT [m] KST_MBOX_STAT.BUSY = false) ∧
      (∀ st, m = 257 → callOf (callEnd s c st) m = none ∧
        (callEnd s c st).out = s.out ++ [.mctp 0x7E (st :: c.outs.map (·.toNat))]) ∧
      (∀ st, m < 257 →
        let s1 := dropWho { s with kst := { s.kst with calls := s.kst.calls.filter (fun d => d.mbox != m) } } m
        (callOuts s1 c = none → callEnd s c st = s) ∧
        (∀ s2, callOuts s1 c = some s2 →
          let s3 := (s2.setFld .KST_MBOX_STAT [m] KST_MBOX_STAT.STATUS st).setFld .KST_MBOX_STAT [m] KST_MBOX_STAT.BUSY 0
          callEnd s c st = if c.int then callIrq s3 m else s3))) ∧
    (∀ m, callOf s m = none ∨ callServed s m = false →
      exec (.mboxCallComplete m) s = .next s ∧ exec (.mboxCallTimeout m) s = .next s) ∧
    (∀ (m st : Nat) (c : Call), callOf s m = some c → c.stat = some st → exec (.mboxCallTimeout m) s = .next s) ∧
    (∀ (m eff : Nat) (ext : Ext), m < 257 → fget eff KST_MBOX_CTL.GO = 1 →
      (s.bit .KST_MBOX_STAT [m] KST_MBOX_STAT.BUSY = true → mboxCtlWrite s m eff ext = discardReg s .KST_MBOX_CTL [m]) ∧
      (s.bit .KST_MBOX_STAT [m] KST_MBOX_STAT.BUSY = false →
        let u := mboxCtlWrite s m eff ext
        u.fld .KST_MBOX_STAT [m] KST_MBOX_STAT.TAG = fget eff KST_MBOX_CTL.TAG ∧
        u.bit .KST_MBOX_STAT [m] KST_MBOX_STAT.BUSY = true ∧
        ∃ c, u.kst.calls = s.kst.calls ++ [c] ∧ c.mbox = m ∧ c.code = fget eff KST_MBOX_CTL.CODE ∧
          (c.stat = none ∨ c.stat = some 0x0E) ∧ (fget eff KST_MBOX_CTL.CODE ∉ svcCodes → c.stat = some 0x0E)))

/-! Power domains. -/

/-- O42. R253, R379, R411 to R415, R420, R428: a domain's switch-off waits for its stores and is given up with a record after
its time limit; a woken domain is on; writes of targets and of off bits are refused where R413, R414 and R420 refuse them;
Tension switches an idle group off; a sensor at 125 degrees removes power, one at 105 limits its unit and 100 ends that. -/
def Obligations.PowerDomains : Prop :=
  ∀ s : State, s.up = true →
    let sp (u : State) (p : Nat) (f : Fld) := u.fld .SPAN_PWR_CTL [p] f
    (∀ d, d ∉ s.pwr.wakes → exec (.domainWakeDone d) s = .next s) ∧
    (∀ d, d < 64 → d ∈ s.pwr.wakes → Answers (.domainWakeDone d) s (fun u => domOn u d = true ∧ d ∉ u.pwr.wakes ∧
      (∀ e, e < 64 → e ≠ d → domOn u e = domOn s e) ∧ u = { s with regs := u.regs, pwr := { s.pwr with wakes := u.pwr.wakes } } ∧
      RegsKept [regAddr .SPAN_PWR_STAT [d / 8]] s u)) ∧
    (∀ d, 64 ≤ d → d < 80 → d ∈ s.pwr.wakes → Answers (.domainWakeDone d) s (fun u => domOn u d = true ∧ d ∉ u.pwr.wakes ∧
      (∀ e, e < 80 → e ≠ d → domOn u e = domOn s e) ∧ u = { s with regs := u.regs, pwr := { s.pwr with wakes := u.pwr.wakes } } ∧
      (d < 72 → ∀ i < 8, coreState u (8 * (d - 64) + i) =
        if s.bit .KST_CORE_CTL [8 * (d - 64) + i] KST_CORE_CTL.HOLD ∨ s.bit .KST_PARK [] KST_PARK.PARKED then 0 else 1) ∧
      (72 ≤ d → d % 2 = 0 → ∀ i < 6, s.bit .CLX_LINK_CTL (clxIx (3 * (d - 72) + i)) CLX_LINK_CTL.EN = true →
        s.bit .CLX_LINK_ERR (clxIx (3 * (d - 72) + i)) CLX_LINK_ERR.RETIRED = false →
        u.fld .CLX_LINK_STAT (clxIx (3 * (d - 72) + i)) CLX_LINK_STAT.STATE = 1))) ∧
    (∀ d, d ∉ s.pwr.offs → exec (.pdDrainTimeout d) s = .next s) ∧
    (∀ d, d < 80 → d ∈ s.pwr.offs → AnswersBy
      (record · ⟨if d < 64 then unitSpan (d / 8) 0x54 else if d < 72 then unitKst 0x54 else unitPier ((d - 72) / 2) 0x54,
        4, 0, 0x0F, none, d, 0xFFFF⟩) (.pdDrainTimeout d) s (fun v => d ∉ v.pwr.offs ∧
      v.bit .KST_ORD_STAT [] KST_ORD_STAT.PD_DRAIN_FAIL = true ∧ mget 0 v.pwr.retry d = s.clk.fc + 10 * fcMs ∧
      v = { s with regs := v.regs, pwr := { s.pwr with offs := v.pwr.offs, retry := v.pwr.retry } })) ∧
    (∀ q ∈ ([fun p w => .targetWrite (some p) w, .tileGroupPower] : List (Nat → BitVec 64 → Instr)),
      ∀ (p : Nat) (w : BitVec 64), p < 8 →
      let mhz := fget w.toNat SPAN_PWR_CTL.TARGET_MHZ
      let off := fget w.toNat SPAN_PWR_CTL.PD_OFF
      (acOk s p mhz 1080 = false → exec (q p w) s = .next (discardReg s .SPAN_PWR_CTL [p])) ∧
      (s.owned 0 = false → off ≠ sp s p SPAN_PWR_CTL.PD_OFF → exec (q p w) s = .next (discardReg s .SPAN_PWR_CTL [p])) ∧
      (s.owned 0 = true → offsOk s (8 * p) 8 off = false → exec (q p w) s = .next (discardReg s .SPAN_PWR_CTL [p])) ∧
      (acOk s p mhz 1080 = true → s.owned 0 = false → off = sp s p SPAN_PWR_CTL.PD_OFF → Answers (q p w) s (fun u =>
        sp u p SPAN_PWR_CTL.TARGET_MHZ = mhz ∧ sp u p SPAN_PWR_CTL.PD_OFF = off ∧ u = { s with regs := u.regs } ∧
        RegsKept [regAddr .SPAN_PWR_CTL [p], regAddr .KST_SET_STAT []] s u)) ∧
      (acOk s p mhz 1080 = true → s.owned 0 = true → offsOk s (8 * p) 8 off = true →
        AnswersBy (fun v => ownStep (applyOff v (8 * p) 8 off) p mhz) (q p w) s (fun v =>
          sp v p SPAN_PWR_CTL.TARGET_MHZ = mhz ∧ sp v p SPAN_PWR_CTL.PD_OFF = off ∧ v = { s with regs := v.regs }))) ∧
    (∀ w : BitVec 64,
      let ok := (List.range 8).all (fun g => decide (8 ≤ fget w.toNat (KST_KC_TARGET.MHZ_50.shift 8 g)) &&
        decide (fget w.toNat (KST_KC_TARGET.MHZ_50.shift 8 g) ≤ 68))
      (ok = false → exec (.targetWrite none w) s = .next (discardReg s .KST_KC_TARGET [])) ∧
      (ok = true → s.owned 0 = false → Answers (.targetWrite none w) s (fun u =>
        (∀ g, g < 8 → u.fld .KST_KC_TARGET [] (KST_KC_TARGET.MHZ_50.shift 8 g) =
          fget w.toNat (KST_KC_TARGET.MHZ_50.shift 8 g)) ∧ u = { s with regs := u.regs })) ∧
      (ok = true → s.owned 0 = true → AnswersBy
        (fun v => (List.range 8).foldl (fun v g => ownStep v (8 + g) (target v (8 + g))) v) (.targetWrite none w) s (fun v =>
        (∀ g, g < 8 → v.fld .KST_KC_TARGET [] (KST_KC_TARGET.MHZ_50.shift 8 g) =
          fget w.toNat (KST_KC_TARGET.MHZ_50.shift 8 g)) ∧ v = { s with regs := v.regs })) ∧
      (∀ q ∈ ([.coreGroupPower, .pierDomainPower] : List (BitVec 64 → Instr)),
        let cores := fget w.toNat KST_PD_CTL.CORE_PD_OFF
        let piers := fget w.toNat KST_PD_CTL.PIER_PD_OFF % 2 ^ (2 * s.asm.piers)
        (s.owned 0 = false ∨ offsOk s 64 8 cores = false → exec (q w) s = .next (discardReg s .KST_PD_CTL [])) ∧
        (s.owned 0 = true → offsOk s 64 8 cores = true → exec (q w) s = .next (applyOff (applyOff
          (s.plain .KST_PD_CTL [] w.toNat) 64 8 cores) 72 (2 * s.asm.piers) piers)))) ∧
    (∀ p g, p < 8 → g < 8 →
      let d := 8 * p + g
      let may := tensionActs s = true ∧ 3 ≤ groupsOn s p ∧ domOn s d = true ∧ offOk s d = true ∧ d ∉ s.pwr.offs ∧
        mget 0 s.pwr.retry d ≤ s.clk.fc
      (¬ may → exec (.tileGroupIdleOff p g) s = .next s) ∧
      (may → exec (.tileGroupIdleOff p g) s = .next (offBegin (setOffBit s d true) d) ∧
        (domPending s d = true → s.pwr.offs = [] → (offBegin (setOffBit s d true) d).pwr.offs = [d]) ∧
        (domPending s d = false → s.pwr.offs = [] → domOn (offBegin (setOffBit s d true) d) d = false))) ∧
    (∀ u temp, u < 16 + s.asm.piers →
      (125 ≤ temp → Answers (.tempSensorRead u temp) s (fun v => v.board.pwrGood = false ∧ v.board.convOn = false ∧
        v.board.tripped = true ∧ v.out = s.out ++ [.pin 1 0, .pin 2 0] ∧
        v = { s with regs := v.regs, pwr := v.pwr, board := v.board, out := v.out })) ∧
      (105 ≤ temp → temp < 125 → u ∉ s.pwr.lim → AnswersBy (fun v => pwrSync (fixedBreak v)) (.tempSensorRead u temp) s
        (fun v => v.pwr = { s.pwr with lim := sins s.pwr.lim u, hot := sins s.pwr.hot u } ∧ v.bit .TNS_EVENT [] TNS_EVENT.OT_SEEN = true ∧
          v.fld .TNS_EVENT [] TNS_EVENT.OT_CNT = satAdd TNS_EVENT.OT_CNT (s.fld .TNS_EVENT [] TNS_EVENT.OT_CNT) 1 ∧
          (u < 8 → v.fld .SPAN_PWR_STAT [u] SPAN_PWR_STAT.TJ_C = temp ∧
            v.bit .SPAN_PWR_STAT [u] SPAN_PWR_STAT.OT_FAST = true))) ∧
      (temp ≤ 100 → AnswersBy pwrSync (.tempSensorRead u temp) s (fun v =>
        v.pwr = { s.pwr with lim := sdel s.pwr.lim u, hot := if 95 ≤ temp then sins s.pwr.hot u else sdel s.pwr.hot u } ∧
        (u < 8 → v.fld .SPAN_PWR_STAT [u] SPAN_PWR_STAT.TJ_C = temp ∧
          v.bit .SPAN_PWR_STAT [u] SPAN_PWR_STAT.OT_FAST = false))) ∧
      ((100 < temp ∧ temp < 105) ∨ (105 ≤ temp ∧ temp < 125 ∧ u ∈ s.pwr.lim) → Answers (.tempSensorRead u temp) s (fun v =>
        v = { s with regs := v.regs, pwr := { s.pwr with hot := sins s.pwr.hot u } } ∧
        (u < 8 → v.fld .SPAN_PWR_STAT [u] SPAN_PWR_STAT.TJ_C = temp) ∧
        RegsKept (if u < 8 then [regAddr .SPAN_PWR_STAT [u]] else []) s v)))

/-! Tension. -/

/-- O43. R25 to R27, R416 to R422, R424 to R431: a mode is pending until taken; the estimate, its mean and GAIN follow R418;
the guard acts when the projection reaches the cap; a step that lowers anything waits for collectives up to 2 ms; a change
of frequency passes its phases and switches only while the detectors are quiet; droop, alerts and their ends limit and
release; caps and curves outside their limits are refused. -/
def Obligations.Tension : Prop :=
  ∀ s : State, s.up = true →
    let ev (u : State) (f : Fld) := u.fld .TNS_EVENT [] f
    let est (u : State) (f : Fld) := u.fld .TNS_EST [] f
    (∀ w : BitVec 64, let m := fget w.toNat KST_PWR_MODE.MODE
      (m = 3 → exec (.powerModeWrite w) s = .next (discardReg s .KST_PWR_MODE [])) ∧
      (m ≠ 3 → Answers (.powerModeWrite w) s (fun u => u.fld .KST_PWR_MODE [] KST_PWR_MODE.MODE = m ∧
        (u.bit .KST_PWR_MODE [] KST_PWR_MODE.PENDING = true ↔ m ≠ s.pwr.mode ∨ s.pwr.next ≠ none ∨ s.pwr.defer ≠ none) ∧
        u = { s with regs := u.regs } ∧ RegsKept [regAddr .KST_PWR_MODE [], regAddr .KST_SET_STAT []] s u))) ∧
    (∀ raw, let e := min 8191 (raw * est s TNS_EST.GAIN / 128)
      let sampled (v : State) := est v TNS_EST.EST_W = e ∧ v.pwr.est = (e :: s.pwr.est).take 10000 ∧
        est v TNS_EST.MEAN_W = ((e :: s.pwr.est).take 10000).sum / 10000 % 2 ^ 13
      let hit := s.fld .TNS_CAP [] TNS_CAP.CAP_W ≤ (((e :: s.pwr.est).take 9000).sum + 1000 * e) / 10000
      (¬ hit ∨ s.pwr.guard ≠ 0 → Answers (.powerEstimate raw) s (fun u => sampled u ∧ u.pwr.guard = s.pwr.guard)) ∧
      (hit → s.pwr.guard = 0 → AnswersBy (fun v => pwrSync (fixedBreak v)) (.powerEstimate raw) s (fun v =>
        sampled v ∧ v.pwr.guard = 1 ∧
        ev v TNS_EVENT.GUARD_CNT = satAdd TNS_EVENT.GUARD_CNT (ev s TNS_EVENT.GUARD_CNT) 1))) ∧
    ((s.pwr.guard = 0 ∨ overCap s = false) → exec .guardStep s = .next s) ∧
    (s.pwr.guard ≠ 0 → overCap s = true → AnswersBy (fun v => pwrSync (fixedBreak v)) .guardStep s (fun v =>
      v = { s with pwr := { s.pwr with guard := min 16 (s.pwr.guard + 1) } })) ∧
    (∀ meas, let sum := s.pwr.raw.sum
      let q := meas * s.pwr.raw.length * 128 / sum
      let clamp := meas * s.pwr.raw.length * 4 < 3 * sum ∨ 133 * sum < meas * s.pwr.raw.length * 100
      let set (v : State) := est v TNS_EST.MEAS_W = min 8191 meas ∧ est v TNS_EST.GAIN = max 96 (min 170 q)
      (kmh1Runs s = false ∨ sum = 0 → exec (.tensionRecalibrate meas) s = .next s) ∧
      (kmh1Runs s = true → sum ≠ 0 → ¬ clamp → Answers (.tensionRecalibrate meas) s (fun u => set u ∧ u.pwr.calLow = false ∧
        RegsKept [regAddr .TNS_EST []] s u)) ∧
      (kmh1Runs s = true → sum ≠ 0 → clamp → AnswersBy (recordAt · (unitKst 0x42) 1 0 0 none) (.tensionRecalibrate meas) s
        (fun v => set v ∧ v.pwr.calLow = true ∧ est v TNS_EST.CAL_FAIL = 1))) ∧
    (∀ acs kcs, let m := s.fld .KST_PWR_MODE [] KST_PWR_MODE.MODE
      (tensionActs s = false ∨ stepOk s m acs kcs = false → exec (.tensionControlStep acs kcs) s = .next s) ∧
      (tensionActs s = true → stepOk s m acs kcs = true → exec (.tensionControlStep acs kcs) s =
        .next (pwrSync (askStep { s with pwr := { s.pwr with guard := 0, lim := sdel s.pwr.lim 25 } } ⟨m, capOf s m, acs, kcs, 0⟩)))) ∧
    (∀ d : CapStep,
      (lowers s d = true → s.rd .KST_COLL_BUSY [] ≠ 0 → s.pwr.noDefer ≤ s.clk.fc → s.pwr.defer = none →
        (askStep s d).pwr = { s.pwr with defer := some { d with since := s.clk.fc } }) ∧
      (∀ o, lowers s d = true → s.rd .KST_COLL_BUSY [] ≠ 0 → s.pwr.noDefer ≤ s.clk.fc → s.pwr.defer = some o →
        askStep s d = { s with pwr := { s.pwr with defer := some { d with since := o.since } } }) ∧
      ((lowers s d = false ∨ s.rd .KST_COLL_BUSY [] = 0) → s.pwr.defer = none → askStep s d = takeStep s d) ∧
      (s.pwr.defer = some d → AnswersBy (takeStep · d) .capDeferExpire s (fun v =>
        v.pwr = { s.pwr with noDefer := s.clk.fc + 10 * fcMs } ∧
        v.fld .TNS_DEFER [] TNS_DEFER.EXPIRE_CNT = satAdd TNS_DEFER.EXPIRE_CNT
          (s.fld .TNS_DEFER [] TNS_DEFER.EXPIRE_CNT) 1))) ∧
    (s.pwr.defer = none → exec .capDeferExpire s = .next s) ∧
    (∀ m cap, s.pwr.next = some (m, cap) → s.pwr.chg = [] → (stepEnd s).pwr = { s.pwr with mode := m, next := none } ∧
      (stepEnd s).fld .TNS_CAP [] TNS_CAP.CAP_W = cap % 2 ^ (TNS_CAP.CAP_W.hi + 1 - TNS_CAP.CAP_W.lo) ∧
      ((stepEnd s).bit .KST_PWR_MODE [] KST_PWR_MODE.PENDING = true ↔ s.fld .KST_PWR_MODE [] KST_PWR_MODE.MODE ≠ m)) ∧
    (∀ u, u < 16 → chgOf s u = none → exec (.voltageRampDone u) s = .next s ∧ exec (.pllLockDone u) s = .next s ∧
      exec (.freqChangeAbandon u) s = .next s) ∧
    (∀ (u : Nat) (c : FreqChg), u < 16 → chgOf s u = some c →
      (c.ph = 0 → u ∈ s.pwr.trips → exec (.voltageRampDone u) s = .next (putChg s u (some { c with ph := 1 }))) ∧
      (c.ph = 0 → u ∉ s.pwr.trips → Answers (.voltageRampDone u) s (fun v => chgOf v u = some { c with ph := 2 } ∧
        v = { s with pwr := { s.pwr with chg := v.pwr.chg } })) ∧
      (c.ph = 4 → exec (.voltageRampDone u) s = .next (ownFollow (stepEnd (putChg s u none)) u)) ∧
      (c.ph = 2 → u ∈ s.pwr.trips → exec (.pllLockDone u) s = .next (putChg s u (some { c with ph := 3 }))) ∧
      (c.ph = 2 → u ∉ s.pwr.trips → c.mhz < unitMhz s u → AnswersBy pwrSync (.pllLockDone u) s (fun v =>
        unitMhz v u = (if u < 8 then c.mhz % 2 ^ 11 else c.mhz) ∧ chgOf v u = some { c with ph := 4 })) ∧
      (c.ph = 2 → u ∉ s.pwr.trips → unitMhz s u < c.mhz → exec (.pllLockDone u) s = .next (ownFollow (stepEnd (pwrSync
        (putChg (setUnitMhz (putChg s u (some { c with ph := 3 })) u c.mhz) u none))) u)) ∧
      (c.ph = 3 → u ∈ s.pwr.trips → u < 8 → exec (.freqChangeAbandon u) s =
        .next (stepEnd (dropChg (s.satInc .SPAN_DROOP_STAT [u] SPAN_DROOP_STAT.CHG_ABANDON 1) u))) ∧
      (c.ph = 3 → u ∉ s.pwr.trips → exec (.freqChangeAbandon u) s = .next s)) ∧
    (∀ p, p < 8 →
      AnswersBy (fun v => pwrSync (fixedBreak v)) (.droopTrip p) s (fun v => p ∈ v.pwr.trips ∧
        v.bit .SPAN_PWR_STAT [p] SPAN_PWR_STAT.DROOP_ACT = true ∧ v.fld .SPAN_DROOP_STAT [p] SPAN_DROOP_STAT.DROOP_CNT =
          satAdd SPAN_DROOP_STAT.DROOP_CNT (s.fld .SPAN_DROOP_STAT [p] SPAN_DROOP_STAT.DROOP_CNT) 1) ∧
      AnswersBy pwrSync (.droopQuiet p false) s (fun v => v.bit .SPAN_PWR_STAT [p] SPAN_PWR_STAT.DROOP_ACT = false ∧
        v = { s with regs := v.regs } ∧ RegsKept [regAddr .SPAN_PWR_STAT [p]] s v) ∧
      AnswersBy (fun v => pwrSync (chgQuiet v p)) (.droopQuiet p true) s (fun v =>
        v.bit .SPAN_PWR_STAT [p] SPAN_PWR_STAT.DROOP_ACT = false ∧ p ∉ v.pwr.trips)) ∧
    (∀ ext : Bool,
      (s.board.alertInt = false → s.board.alertExt = false → AnswersBy alertAssert (.vrAlertAssert ext) s (fun v =>
        (if ext then v.board.alertExt else v.board.alertInt) = true ∧
        (ext = true → v.bit .KST_BOARD_STAT [] KST_BOARD_STAT.VRA_EXT = true))) ∧
      ((s.board.alertInt = true ∨ s.board.alertExt = true) → Answers (.vrAlertAssert ext) s (fun u =>
        u = { s with board := u.board } ∧ (if ext then u.board.alertExt else u.board.alertInt) = true))) ∧
    AnswersBy pwrSync .vrAlertRelease s (fun v => v.board.alertInt = false ∧ v.board.alertExt = false ∧
      ev v TNS_EVENT.VRA_ACTIVE = 0 ∧
      v.pwr = { s.pwr with lim := if vraActive s = true ∧ s.owned 0 = false then sins s.pwr.lim 25 else s.pwr.lim } ∧
      RegsKept [regAddr .TNS_EVENT []] s v) ∧
    (∀ w : BitVec 64, let x := fget w.toNat TNS_CAP.USER_CAP_W
      let bad := x ≠ 0 ∧ (x < 1200 ∨ modeCap s.asm 0 < x)
      let cap := if x = 0 then modeCap s.asm s.pwr.mode else min (modeCap s.asm s.pwr.mode) x
      (bad → exec (.userCapWrite w) s = .next (discardReg s .TNS_CAP [])) ∧
      (¬ bad → s.fld .TNS_CAP [] TNS_CAP.CAP_W ≤ cap → Answers (.userCapWrite w) s (fun u =>
        u.fld .TNS_CAP [] TNS_CAP.USER_CAP_W = x ∧ u.fld .TNS_CAP [] TNS_CAP.CAP_W = cap ∧ u = { s with regs := u.regs })) ∧
      (¬ bad → cap < s.fld .TNS_CAP [] TNS_CAP.CAP_W → s.owned 0 = false → Answers (.userCapWrite w) s (fun u =>
        u.fld .TNS_CAP [] TNS_CAP.USER_CAP_W = x ∧ u.fld .TNS_CAP [] TNS_CAP.CAP_W = s.fld .TNS_CAP [] TNS_CAP.CAP_W ∧
        u = { s with regs := u.regs })) ∧
      (¬ bad → cap < s.fld .TNS_CAP [] TNS_CAP.CAP_W → s.owned 0 = true → s.pwr.defer = none → AnswersBy
        (fun v => pwrSync (askStep v ⟨s.pwr.mode, cap, heading v 0, heading v 8, 0⟩)) (.userCapWrite w) s (fun v =>
        v.fld .TNS_CAP [] TNS_CAP.USER_CAP_W = x ∧ v = { s with regs := v.regs })) ∧
      (∀ d, ¬ bad → cap < s.fld .TNS_CAP [] TNS_CAP.CAP_W → s.owned 0 = true → s.pwr.defer = some d →
        Answers (.userCapWrite w) s (fun u => u.fld .TNS_CAP [] TNS_CAP.USER_CAP_W = x ∧
          u = { s with regs := u.regs, pwr := { s.pwr with defer := some { d with cap := cap } } }))) ∧
    (∀ (p n : Nat) (w : BitVec 64), p < 8 → n < 16 →
      (s.owned 0 = true → vfOk s p n w.toNat = true → Answers (.vfCurveWrite p n w) s (fun u =>
        u.rd .SPAN_VF_CURVE [p, n] = plainWrite (regInfo .SPAN_VF_CURVE).flds (s.rd .SPAN_VF_CURVE [p, n]) w.toNat % 2 ^ 64 ∧
        u = { s with regs := u.regs } ∧
        RegsKept [regAddr .SPAN_VF_CURVE [p, n], regAddr .KST_SET_STAT [], regAddr .SPAN_PWR_STAT [p]] s u ∧
        (mfind s.pwr.chg p = none → u.fld .SPAN_PWR_STAT [p] SPAN_PWR_STAT.VOLT_MV =
          vfVolt (s.plain .SPAN_VF_CURVE [p, n] w.toNat) p (acMhz s p) % 2 ^ 10))) ∧
      (s.owned 0 = false ∨ vfOk s p n w.toNat = false →
        exec (.vfCurveWrite p n w) s = .next (discardReg s .SPAN_VF_CURVE [p, n])))

/-! Links. -/

/-- O44. R392 to R397: a Claden-D link goes through its states as both ends complete them, agrees its width on the lanes that
work and its features on what both have, falls to TRAINERROR when a state does not end, retrains on request, on CRC failures
and on replays, sleeps in L1 where both have it, and a forced width that passes probation is committed.
Buckets of a bundle follow its links, each link having its share of the 16 or one more; a bucket that moves is held. -/
def Obligations.DieLinks : Prop :=
  ∀ (s : State) (die port : Nat), s.up = true →
    (cldLink s die port = none → (∀ fa fb flits, exec (.cldStateDone die port fa fb flits) s = .next (cldSync s)) ∧
      (∀ flits, exec (.cldStateTimeout die port flits) s = .next (cldSync s) ∧ exec (.cldCrcFail die port flits) s = .next (cldSync s)) ∧
      exec (.cldTrainerrorExpire die port) s = .next (cldSync s) ∧ exec (.cldRetrainRequest die port) s = .next (cldSync s) ∧
      exec (.cldProbationEnd die port) s = .next (cldSync s) ∧ exec (.cldReplayWindow die port) s = .next (cldSync s) ∧
      exec (.cldL1Entry die port) s = .next (cldSync s)) ∧
    (∀ a b : Nat × Nat, cldLink s die port = some (a, b) →
      let st (u : State) (e : Nat × Nat) := cldStat u e CLD_PORT_STAT.STATE
      let own := (die, port)
      let x := s.cld a
      let err (u : State) (e : Nat × Nat) (f : Fld) := cldErr u e f
      (∀ (fa fb : BitVec 64) (flits : Bool),
        let ma := x.mapA ||| fa
        let mb := x.mapB ||| fb
        let cap := if x.forced = 0 then 3 else x.forced
        let w := min (advert ma (min cap (cldCap s a))) (advert mb (min cap (cldCap s b)))
        let done (k : Nat) := AnswersBy cldSync (.cldStateDone die port fa fb flits) s (fun u => st u a = k ∧ st u b = k)
        (st s a ≠ st s b → exec (.cldStateDone die port fa fb flits) s = .next (cldSync s)) ∧
        (st s a = st s b →
          (st s a = 0 → err s a CLD_PORT_ERR.RETIRED = 0 → done 1) ∧
          (st s a = 0 → err s a CLD_PORT_ERR.RETIRED = 1 → exec (.cldStateDone die port fa fb flits) s = .next (cldSync s)) ∧
          (st s a = 1 → done 2) ∧ (st s a = 3 → done 4) ∧
          (st s a = 2 ∨ st s a = 7 → w ≠ 0 → AnswersBy cldSync (.cldStateDone die port fa fb flits) s (fun u =>
            st u a = 3 ∧ st u b = 3 ∧ cldStat u a CLD_PORT_STAT.WIDTH = w ∧ cldStat u b CLD_PORT_STAT.WIDTH = w ∧
            (u.cld a).curA = ma ∧ (u.cld a).curB = mb)) ∧
          (st s a = 2 ∨ st s a = 7 → w = 0 → AnswersBy (fun v => cldSync (cldFail v a b flits)) (.cldStateDone die port fa fb flits) s
            (fun v => st v a = 15 ∧ st v b = 15)) ∧
          (st s a = 4 → exec (.cldStateDone die port fa fb flits) s = .next (cldSync (capNeg s a b flits))) ∧
          (st s a = 5 → AnswersBy cldSync (.cldStateDone die port fa fb flits) s (fun u => st u a = 6 ∧ st u b = 6 ∧
            u.cld a = { x with prob := true, crc := 0 })) ∧
          (st s a = 8 → exec (.cldStateDone die port fa fb flits) s = .next (cldSync (linkRetrain s a b))) ∧
          (st s a = 6 ∨ 9 ≤ st s a → exec (.cldStateDone die port fa fb flits) s = .next (cldSync s)))) ∧
      (∀ flits : Bool, let n := err s a CLD_PORT_ERR.FAIL_STREAK
        (st s own = 0 ∨ st s own = 6 ∨ st s own = 15 → exec (.cldStateTimeout die port flits) s = .next (cldSync s)) ∧
        (st s own ≠ 0 → st s own ≠ 6 → st s own ≠ 15 → AnswersBy (fun v => cldSync (cldFail v a b flits)) (.cldStateTimeout die port flits) s
          (fun v => st v a = 15 ∧ st v b = 15)) ∧
        (st s own ≠ 6 → exec (.cldCrcFail die port flits) s = .next (cldSync s)) ∧
        (st s own = 6 → (x.prob = false ∨ x.crc < 15) → AnswersBy cldSync (.cldCrcFail die port flits) s (fun u =>
          err u own CLD_PORT_ERR.CRC_CNT = min 65535 (err s own CLD_PORT_ERR.CRC_CNT + 1) ∧
          u.cld a = (if x.prob then { x with crc := x.crc + 1 } else x) ∧ st u own = 6)) ∧
        (st s own = 6 → x.prob = true → 15 ≤ x.crc → AnswersBy (fun v => cldSync (probFail v a b flits)) (.cldCrcFail die port flits) s
          (fun v => err v own CLD_PORT_ERR.CRC_CNT = min 65535 (err s own CLD_PORT_ERR.CRC_CNT + 1) ∧ v.links = s.links)) ∧
        (n < 3 → ∃ v, probFail s a b flits = linkRetrain v a b ∧ err v a CLD_PORT_ERR.FAIL_STREAK = n + 1 ∧
          err v b CLD_PORT_ERR.FAIL_STREAK = n + 1 ∧ v.links = s.links) ∧
        (3 ≤ n → cldStat s a CLD_PORT_STAT.WIDTH = 3 → ∃ v, probFail s a b flits = linkRetrain v a b ∧
          v.cld a = { x with forced := 2, commit := true } ∧ cldStat v a CLD_PORT_STAT.FORCED = 1) ∧
        (3 ≤ n → cldStat s a CLD_PORT_STAT.WIDTH = 2 → (cldStat s a CLD_PORT_STAT.ACT_FEAT >>> 3) % 2 = 1 →
          ∃ v, probFail s a b flits = linkRetrain v a b ∧ v.cld a = { x with forced := 1, commit := true } ∧
            cldStat v a CLD_PORT_STAT.FORCED = 1) ∧
        (3 ≤ n → cldStat s a CLD_PORT_STAT.WIDTH = 2 → (cldStat s a CLD_PORT_STAT.ACT_FEAT >>> 3) % 2 = 0 →
          ∃ v, probFail s a b flits = cldFail v a b flits ∧ st v a = 0) ∧
        (3 ≤ n → cldStat s a CLD_PORT_STAT.WIDTH ≤ 1 → ∃ v, probFail s a b flits = cldFail v a b flits ∧ st v a = 0)) ∧
      (st s a = 15 → err s a CLD_PORT_ERR.NOT_COMPAT = 0 → AnswersBy cldSync (.cldTrainerrorExpire die port) s (fun u =>
        st u a = 0 ∧ st u b = 0 ∧ cldStat u a CLD_PORT_STAT.WIDTH = 0 ∧ cldStat u b CLD_PORT_STAT.WIDTH = 0 ∧
        u = { s with regs := u.regs })) ∧
      (st s a ≠ 15 ∨ err s a CLD_PORT_ERR.NOT_COMPAT = 1 → exec (.cldTrainerrorExpire die port) s = .next (cldSync s)) ∧
      (let q := if a = own then b else a
       (cldRunning s own = true → (st s q = 7 ∨ st s q = 0) → exec (.cldRetrainRequest die port) s =
          .next (cldSync ((endRetrain s own).setCld a { (endRetrain s own).cld a with prob := false, crc := 0 }))) ∧
       (cldRunning s own = false → exec (.cldRetrainRequest die port) s = .next (cldSync s))) ∧
      (∀ e ∈ [a, b], (cldFast s e = true → st (endRetrain s e) e = 7) ∧
        (cldFast s e = false → st (endRetrain s e) e = 0 ∧ cldStat (endRetrain s e) e CLD_PORT_STAT.WIDTH = 0)) ∧
      (x.prob = false ∨ st s a ≠ 6 → exec (.cldProbationEnd die port) s = .next (cldSync s)) ∧
      (x.prob = true → st s a = 6 → x.commit = false → AnswersBy cldSync (.cldProbationEnd die port) s (fun u =>
        err u a CLD_PORT_ERR.FAIL_STREAK = 0 ∧ err u b CLD_PORT_ERR.FAIL_STREAK = 0 ∧
        u.cld a = { x with prob := false, crc := 0 } ∧ st u a = 6)) ∧
      (x.prob = true → st s a = 6 → x.commit = true → AnswersBy (fun v => cldSync (recordAt v.counted (cldUnit a.1 a.2) 5 8 0 none))
        (.cldProbationEnd die port) s (fun v => err v a CLD_PORT_ERR.DEGRADE = 1 ∧ err v b CLD_PORT_ERR.DEGRADE = 1 ∧
          v.cld a = { x with prob := false, crc := 0, commit := false, kept := x.forced, mapA := x.curA, mapB := x.curB })) ∧
      (st s a = 6 → x.prob = false → exec (.cldReplayWindow die port) s = .next (cldSync (linkRetrain s a b))) ∧
      (st s a ≠ 6 ∨ x.prob = true → exec (.cldReplayWindow die port) s = .next (cldSync s)) ∧
      (st s a = 6 → (cldStat s a CLD_PORT_STAT.ACT_FEAT >>> 4) % 2 = 1 → AnswersBy cldSync (.cldL1Entry die port) s (fun u =>
        st u a = 8 ∧ st u b = 8 ∧ u = { s with regs := u.regs })) ∧
      (st s a ≠ 6 ∨ (cldStat s a CLD_PORT_STAT.ACT_FEAT >>> 4) % 2 = 0 → exec (.cldL1Entry die port) s = .next (cldSync s))) ∧
    (∀ w : BitVec 64, cldPeer s.asm die port ≠ none → let (_, _, r, ix) := cldRegs die port
      (fget w.toNat CLD_PORT_CTL.MAX_WIDTH = 0 → exec (.cldRetrain die port w) s = .next (discardReg s r ix)) ∧
      (fget w.toNat CLD_PORT_CTL.MAX_WIDTH ≠ 0 → fget w.toNat CLD_PORT_CTL.RETRAIN = 0 →
        exec (.cldRetrain die port w) s = .next (s.plain r ix w.toNat)) ∧
      (fget w.toNat CLD_PORT_CTL.MAX_WIDTH ≠ 0 → fget w.toNat CLD_PORT_CTL.RETRAIN = 1 →
        cldRunning (s.plain r ix w.toNat) (die, port) = true → exec (.cldRetrain die port w) s =
          .next (cldSync ((endRetrain (s.plain r ix w.toNat) (die, port)).send (.link (die * 32 + port) 1)))) ∧
      (fget w.toNat CLD_PORT_CTL.MAX_WIDTH ≠ 0 → cldRunning (s.plain r ix w.toNat) (die, port) = false →
        exec (.cldRetrain die port w) s = .next (s.plain r ix w.toNat))) ∧
    (∃ db dold, cldSync s = { s with links := { s.links with db := db, dold := dold } }) ∧
    (∀ k, (mfind s.links.db k).getD [] = bundleTable s (k / 32) (k % 32) → bundleSync s k = s) ∧
    (∀ k, (mfind s.links.db k).getD [] ≠ bundleTable s (k / 32) (k % 32) →
      mfind (bundleSync s k).links.db k = some (bundleTable s (k / 32) (k % 32)) ∧
      ∀ i, i < 16 → ∀ o n, ((mfind s.links.db k).getD [])[i]? = some o → (bundleTable s (k / 32) (k % 32))[i]? = some n →
        o ≠ n → (mfind (bundleSync s k).links.dold (16 * k + i)).isSome = true) ∧
    (∀ l : List (Nat × Nat), (l.map (·.1)).Nodup →
      ((l.map (·.2)).sum = 0 → bucketTable l = []) ∧
      ((l.map (·.2)).sum ≠ 0 → ∀ e ∈ l, let part := 16 * e.2 / (l.map (·.2)).sum
        (bucketTable l).count e.1 = part ∨ (bucketTable l).count e.1 = part + 1))

/-- O45. R398 to R403, R407, R408: a Claden-X link detects, tests its lanes, uses the spare or half of them or retires,
exchanges capabilities and is ACTIVE; it retrains when it idles, on repeated replay failures and on request, fully where a
quick retrain is not possible; windows count corrected symbols and retire lanes; its control register, routes, lost marks
and UP notices act as written. -/
def Obligations.ModuleLinks : Prop :=
  (∀ (s : State) (l : Nat), s.up = true → l < 24 →
    let ix := clxIx l
    let st := clxState s l
    let f (u : State) (g : Fld) := u.fld .CLX_LINK_STAT ix g
    let e (u : State) (g : Fld) := u.fld .CLX_LINK_ERR ix g
    (clxThere s l = false → (∀ bad p, exec (.clxStateDone l bad p) s = .next s) ∧ exec (.clxStateTimeout l) s = .next s ∧
      exec (.clxTrainerrorExpire l) s = .next s ∧ exec (.clxIdleTimeout l) s = .next s ∧
      (∀ again, exec (.clxFlitError l again) s = .next s) ∧ ∀ lane n, exec (.clxLaneWindow l lane n) s = .next s) ∧
    (clxThere s l = true →
      (∀ (bad : BitVec 9) (p : ClxPeer),
        let b := BitVec.ofNat 9 (if (s.clx l).fresh then bad.toNat else (s.clx l).bad ||| bad.toNat)
        let feat := 0x7F &&& p.feat.toNat
        let fits := 0x20 ≤ p.ver.toNat ∧ p.ver.toNat ≤ 0x2F ∧ p.lo.toNat ≤ 0x21 ∧ 0x21 ≤ p.hi.toNat ∧ feat % 32 = 31
        (st = 1 → Answers (.clxStateDone l bad p) s (fun u => clxState u l = 2 ∧ u = { s with regs := u.regs })) ∧
        (st = 2 → ∀ n sp, laneChoice b (clxHalf s l) = some (n, sp) → Answers (.clxStateDone l bad p) s (fun u =>
          clxState u l = 3 ∧ f u CLX_LINK_STAT.LANES = n ∧ f u CLX_LINK_STAT.SPARE_USED = b2n sp)) ∧
        (st = 2 → laneChoice b (clxHalf s l) = none → AnswersBy (clxRetire · l) (.clxStateDone l bad p) s (fun v =>
          (v.clx l).fresh = false)) ∧
        (st = 3 → fits → Answers (.clxStateDone l bad p) s (fun u => clxState u l = 4 ∧
          f u CLX_LINK_STAT.PEER_MOD = p.mod.toNat ∧ f u CLX_LINK_STAT.PEER_VER = p.ver.toNat ∧
          f u CLX_LINK_STAT.PEER_VALID = b2n p.valid ∧ f u CLX_LINK_STAT.PEER_LINK = p.link.toNat ∧
          f u CLX_LINK_STAT.ACT_FEAT = feat)) ∧
        (st = 3 → ¬ fits → Answers (.clxStateDone l bad p) s (fun u => e u CLX_LINK_ERR.NOT_COMPAT = 1 ∧ clxState u l = 15 ∧
          u.vc l = ⟨[], 0⟩)) ∧
        (st = 4 ∨ st = 7 → exec (.clxStateDone l bad p) s = .next (clxActive s l)) ∧
        (∃ w, clxActive s l = vcGo (stayFlush (rtSync w)) l ∧ clxState w l = 6 ∧
          w.out = s.out ++ [.stay 0 (f s CLX_LINK_STAT.PEER_MOD) l 0 0xF3 [actId s]]) ∧
        (st = 0 ∨ st = 6 ∨ st = 15 → exec (.clxStateDone l bad p) s = .next s)) ∧
      (∀ k, k < 16 → clxState (clxDown s l k) l = k ∧ f (clxDown s l k) CLX_LINK_STAT.LANES = 0 ∧
        (clxDown s l k).vc l = ⟨[], 0⟩) ∧
      (∀ (ch : Nat) (m : OutMsg),
        let x := s.vc l
        let valid := s.bit .CLX_LINK_STAT ix CLX_LINK_STAT.PEER_VALID
        (valid = true → st = 6 → (∀ y ∈ x.q, y.1 ≠ ch) → s.sendOn l ch m = s.send m) ∧
        (valid = true → (st = 6 ∧ ∃ y ∈ x.q, y.1 = ch) ∨ st = 7 → s.sendOn l ch m =
          s.setVc l { x with q := x.q ++ [(ch, m)] }) ∧
        (valid = false ∨ (st ≠ 6 ∧ st ≠ 7) → s.sendOn l ch m = s)) ∧
      (st ≠ 6 ∨ (s.vc l).q = [] → vcGo s l = s) ∧
      (∀ (n : Nat) (cred : Nat → Bool),
        let x := s.vc l
        let can (i : Nat) : Bool := cred (vcSlot (x.turn + i)) && x.q.any (fun m => m.1 == vcSlot (x.turn + i))
        ((∀ i, i < 4 → can i = false) → vcPump n s l cred = s) ∧
        (∀ i m, i < 4 → (∀ k, k < i → can k = false) → can i = true →
          x.q.find? (fun m => m.1 == vcSlot (x.turn + i)) = some m → vcPump (n + 1) s l cred =
            vcPump n ((s.setVc l ⟨x.q.erase m, (x.turn + i + 1) % 4⟩).send m.2) l cred)) ∧
      (st = 7 → exec (.clxStateTimeout l) s = .next (clxFull s l)) ∧
      (st = 2 ∨ st = 3 ∨ st = 4 → ∀ s1 hit, retireEvent (clxDown s l 15) 16 (clxUnit l) = (s1, hit) →
        exec (.clxStateTimeout l) s = .next (if hit then (if retireBySoftware s1 16 then
          recordAt s1 (clxUnit l) 6 9 0 none else clxRetire s1 l) else s1)) ∧
      (st = 0 ∨ st = 1 ∨ st = 6 ∨ st = 15 → exec (.clxStateTimeout l) s = .next s) ∧
      (st = 15 → e s CLX_LINK_ERR.NOT_COMPAT = 0 → Answers (.clxTrainerrorExpire l) s (fun u => clxState u l = 1 ∧
        e u CLX_LINK_ERR.RETRAIN_CNT = satAdd CLX_LINK_ERR.RETRAIN_CNT (e s CLX_LINK_ERR.RETRAIN_CNT) 1 ∧
        u = { s with regs := u.regs })) ∧
      (st = 6 → exec (.clxIdleTimeout l) s = .next (clxQuick s l)) ∧
      ((f s CLX_LINK_STAT.ACT_FEAT >>> 6) % 2 = 0 → clxQuick s l = clxFull s l) ∧
      ((f s CLX_LINK_STAT.ACT_FEAT >>> 6) % 2 = 1 → ∀ s1, retireEvent s 15 (clxUnit l) = (s1, false) →
        clxState (clxQuick s l) l = 7 ∧ e (clxQuick s l) CLX_LINK_ERR.RETRAIN_CNT =
          satAdd CLX_LINK_ERR.RETRAIN_CNT (e s CLX_LINK_ERR.RETRAIN_CNT) 1) ∧
      (st = 6 →
        let s1 := s.satInc .CLX_LINK_ERR ix CLX_LINK_ERR.REPLAY_CNT 1
        exec (.clxFlitError l false) s = .next (clearBucket s1 13 (clxUnit l)) ∧
        (∀ s2, retireEvent s1 13 (clxUnit l) = (s2, true) → exec (.clxFlitError l true) s = .next (clxQuick s2 l)) ∧
        (∀ s2, retireEvent s1 13 (clxUnit l) = (s2, false) → exec (.clxFlitError l true) s = .next s2)) ∧
      (∀ lane n, st = 6 → lane < 9 →
        let c := (s.clx l).ce + n
        let s1 := (s.satInc .CLX_LINK_ERR ix CLX_LINK_ERR.FEC_CE_CNT (c / 1000)).setClx l { s.clx l with ce := c % 1000 }
        (n ≤ 256 → exec (.clxLaneWindow l lane n) s = .next s1) ∧
        (256 < n → ∀ s2 hit, retireEvent s1 14 (l * 16 + lane) = (s2, hit) → exec (.clxLaneWindow l lane n) s =
          .next (if hit then (if retireBySoftware s2 14 then recordAt s2 (clxUnit l) 5 7 0 none else laneRetire s2 l lane)
            else s2)))) ∧
    (l < 6 * s.asm.piers → ∀ q ∈ ([.clxLinkEnable, .clxRetrain, .clxLinkRetire, .clxLaneRetire] :
        List (Nat → BitVec 64 → Instr)), ∀ w : BitVec 64,
      let g (x : Fld) := fget w.toNat x
      let asks := g CLX_LINK_CTL.RETIRE = 1 ∨ g CLX_LINK_CTL.LANE_RETIRE = 1
      let refused := (g CLX_LINK_CTL.EN = 1 ∧ e s CLX_LINK_ERR.RETIRED = 1) ∨ (asks ∧ s.owned 4 = false) ∨
        8 < g CLX_LINK_CTL.LANE
      let p := s.plain .CLX_LINK_CTL ix w.toNat
      (refused → exec (q l w) s = .next (discardReg s .CLX_LINK_CTL ix)) ∧
      (¬ refused → g CLX_LINK_CTL.EN = 0 → ¬ asks → g CLX_LINK_CTL.RETRAIN = 0 → exec (q l w) s =
        .next (if st = 0 then p else clxDown p l 0)) ∧
      (¬ refused → g CLX_LINK_CTL.EN = 1 → ¬ asks → g CLX_LINK_CTL.RETRAIN = 0 → st ≠ 0 → st ≠ 15 →
        exec (q l w) s = .next p) ∧
      (¬ refused → g CLX_LINK_CTL.EN = 1 → ¬ asks → g CLX_LINK_CTL.RETRAIN = 0 →
        (st = 0 ∨ (st = 15 ∧ e s CLX_LINK_ERR.NOT_COMPAT = 1)) → clxThere s l = true →
        Answers (q l w) s (fun u => clxState u l = 1 ∧ u = { s with regs := u.regs })) ∧
      (¬ refused → g CLX_LINK_CTL.EN = 1 → ¬ asks → g CLX_LINK_CTL.RETRAIN = 1 → st = 6 →
        exec (q l w) s = .next (clxQuick p l)) ∧
      (¬ refused → g CLX_LINK_CTL.EN = 1 → g CLX_LINK_CTL.RETIRE = 1 → g CLX_LINK_CTL.LANE_RETIRE = 0 →
        g CLX_LINK_CTL.RETRAIN = 0 → e s CLX_LINK_ERR.RETIRED = 0 → st = 6 → exec (q l w) s = .next (clxRetire p l)) ∧
      (¬ refused → g CLX_LINK_CTL.EN = 1 → g CLX_LINK_CTL.RETIRE = 0 → g CLX_LINK_CTL.LANE_RETIRE = 1 →
        g CLX_LINK_CTL.RETRAIN = 0 → st = 6 → exec (q l w) s = .next (laneRetire p l (g CLX_LINK_CTL.LANE))))) ∧
  (∀ (s : State) (m n : Nat) (w : BitVec 64), s.up = true →
    (m < 32768 → AnswersBy (fun v => stayFlush (rtSync v)) (.routeWrite m w) s (fun v =>
      v.rd .CLX_RT [m] = plainWrite (regInfo .CLX_RT).flds (s.rd .CLX_RT [m]) w.toNat % 2 ^ 64 ∧ peerLost v m = false)) ∧
    (m < 32768 → Answers (.upNotice m) s (fun u => peerLost u m = false ∧
      (∀ k, k < 32768 → k ≠ m → peerLost u k = peerLost s k) ∧ u = { s with regs := u.regs } ∧
      RegsKept [regAddr .CLX_LOST [m / 64]] s u)) ∧
    (n < 512 → Answers (.lostClear n w) s (fun u =>
      (∀ b, b < 64 → peerLost u (64 * n + b) = (peerLost s (64 * n + b) && !w.getLsbD b)) ∧
      u = { s with regs := u.regs } ∧ RegsKept [regAddr .CLX_LOST [n]] s u)))

/-! Retirement, containment, Gauge and policies. -/

/-- O46. R442, R444, R446, R448 to R454, R478: buckets leak, rows and their limits are written, a core is retired by software
that owns the policy. A containment reset flushes dirty data, poisons what is lost, tests the tiles, gives the caches back
and ends with the policies returned to firmware; before RUN it restarts Cast-on instead. -/
def Obligations.RetirementAndContainment : Prop :=
  ∀ s : State, s.up = true →
    let ev := contEvent s
    let ras (u : State) (f : Fld) := u.fld .KST_RAS_STAT [] f
    (∀ row unit : Nat, row < 32 → let key := row * 65536 + unit
      (mfind s.ras.buckets key = none → exec (.retireBucketLeak row unit) s = .next s) ∧
      (∀ b, mfind s.ras.buckets key = some b → Answers (.retireBucketLeak row unit) s (fun u =>
        mget ⟨0, 0⟩ u.ras.buckets key = bucketNow (s.rd .KST_RETIRE [row]) s.clk.fc b ∧
        u = { s with ras := { s.ras with buckets := u.ras.buckets } }))) ∧
    (∀ (row : Nat) (w : BitVec 64), row < 32 →
      let bad := 18 ≤ row ∨ fget w.toNat KST_RETIRE.INC = 0 ∨ fget w.toNat KST_RETIRE.THRESH = 0
      (bad → exec (.retireTblWrite row w) s = .next (discardReg s .KST_RETIRE [row])) ∧
      (¬ bad → Answers (.retireTblWrite row w) s (fun u =>
        u.rd .KST_RETIRE [row] = plainWrite (regInfo .KST_RETIRE).flds (s.rd .KST_RETIRE [row]) w.toNat % 2 ^ 64 ∧
        u = { s with regs := u.regs } ∧ RegsKept [regAddr .KST_RETIRE [row], regAddr .KST_SET_STAT []] s u))) ∧
    (∀ w : BitVec 64, let g (f : Fld) := fget w.toNat f
      (s.owned 4 = false → exec (.coreRetire w) s = .next (discardReg s .KST_RAS_CTL [])) ∧
      (s.owned 4 = true → g KST_RAS_CTL.CONT_REQ = 0 → g KST_RAS_CTL.CONT_RESUME = 0 →
        AnswersBy (retireCore · (g KST_RAS_CTL.CORE)) (.coreRetire w) s (fun v => v = { s with regs := v.regs } ∧
          RegsKept [regAddr .KST_RAS_CTL [], regAddr .KST_SET_STAT []] s v)) ∧
      (g KST_RAS_CTL.CORE_RETIRE = 0 → g KST_RAS_CTL.CONT_RESUME = 0 →
        AnswersBy (contTrigger · (unitKst 0x43) 9 0x12 none none) (.contReq w) s (fun v => v = { s with regs := v.regs } ∧
          RegsKept [regAddr .KST_RAS_CTL [], regAddr .KST_SET_STAT []] s v)) ∧
      (g KST_RAS_CTL.CORE_RETIRE = 0 → g KST_RAS_CTL.CONT_REQ = 0 → Answers (.contResume w) s (fun u =>
        ras u KST_RAS_STAT.STORM = 0 ∧ u = { s with regs := u.regs } ∧
        RegsKept [regAddr .KST_RAS_CTL [], regAddr .KST_RAS_STAT [], regAddr .KST_SET_STAT []] s u))) ∧
    (∀ c, coreRetired s c = true → retireCore s c = s) ∧
    (∀ c, c < 64 → coreRetired s c = false → coreRetired (retireCore s c) c = true ∧ coreState (retireCore s c) c ≠ 1 ∧
      (retireCore s c).bit .KST_CORE_CTL [c] KST_CORE_CTL.HOLD = true) ∧
    (∀ recalled : Bool,
      (ev ≠ 2 → exec (.containmentFlush recalled) s = .next s) ∧
      (ev = 2 → s.boot.event < 11 → exec (.containmentFlush recalled) s = .next (moduleReset s)) ∧
      (ev = 2 → 11 ≤ s.boot.event → contHart s = true → exec (.containmentFlush recalled) s =
        .next (if recalled then flushEnd (hostRecall (flushDirty s)) else flushDirty s))) ∧
    (ev = 2 → contHart s = true → exec .hostRecallTimeout s = .next (flushEnd (hostAgentLost (flushDirty s)))) ∧
    (ev ≠ 2 → exec .hostRecallTimeout s = .next s) ∧
    (ras (flushEnd s) KST_RAS_STAT.CONT_EVENT = 3 ∧ (flushEnd s).ras.poisonAt = [] ∧
      (flushDirty s).mem.lines = [] ∧ (flushDirty s).mem.vebs = []) ∧
    (∀ fails, (ev ≠ 3 → exec (.containmentSelftestDone fails) s = .next s) ∧
      (ev = 3 → contHart s = true → Answers (.containmentSelftestDone fails) s (fun u =>
        ras u KST_RAS_STAT.CONT_EVENT = 6 ∧
        (fails = [] → s.tiles = [] → s.lat.qs = [] → s.plc.moves = [] → u.tiles = [] ∧ u.mem.lines = [] ∧ u.mem.dirs = [] ∧
          ∀ p, p < 8 → u.fld .SPAN_CACHE_CTL [p] SPAN_CACHE_CTL.EN = s.ras.savedEn / 2 ^ p % 2)))) ∧
    (ev ≠ 6 → exec .containmentDone s = .next s) ∧
    (ev = 6 → contHart s = true → s.q.disps = [] → s.q.rings = [] → s.kst.calls = [] → s.boot.off = 0 →
      Answers .containmentDone s (fun u => ras u KST_RAS_STAT.CONT_ACTIVE = 0 ∧ ras u KST_RAS_STAT.CONT_EVENT = 0 ∧
        u.rd .KST_POLICY_OWN [] = 0 ∧ u.ras.suppressed = none ∧ (s.lat.owed = [] → ∀ k, k < s.asm.stacks →
          s.fld .HBM_STK_STAT [k] HBM_STK_STAT.STATE = 3 → u.fld .HBM_STK_STAT [k] HBM_STK_STAT.STATE = 4)))

/-- O47. R29, R30, R423, R444, R457 to R461: a policy changes hands when its hart acknowledges it, late ones are recorded. A
unit that falls due is tested when it is free and there is room; a busy one is preempted when its deferral ends; while
software owns Gauge what is late is recorded; a test's end counts it, answers a request for it, and fails count towards
retirement; requests of software run, wait for nothing, or are refused. -/
def Obligations.GaugeAndPolicies : Prop :=
  ∀ s : State, s.live = true →
    let gs (u : State) (f : Fld) := u.fld .KST_GAUGE_STAT [] f
    let gq (u : State) (f : Fld) := u.fld .KST_GAUGE_REQ [] f
    (∀ q ∈ ([.policyTakeover, .policyHandback] : List (BitVec 64 → Instr)), ∀ w : BitVec 64, Answers (q w) s (fun u =>
      (∀ n, n < 5 → u.owned n = w.getLsbD n ∧ u.held n = s.held n) ∧ u = { s with regs := u.regs } ∧
      RegsKept [regAddr .KST_POLICY_OWN [], regAddr .KST_SET_STAT []] s u)) ∧
    (∀ n, n < 5 →
      (s.owned n = s.held n → exec (.policyAckChange n) s = .next s ∧ exec (.policyAckTimeout n) s = .next s) ∧
      (s.owned n ≠ s.held n → exec (.policyAckTimeout n) s =
        .next (recordAt s (unitKst (0x41 + policyHart n)) 4 0 0 none)) ∧
      (s.owned n ≠ s.held n → hartRuns s (policyHart n) = true → (n ≠ 0 ∨ s.owned n = false) →
        Answers (.policyAckChange n) s (fun u => u.held n = s.owned n ∧ (∀ k, k < 5 → k ≠ n → u.held k = s.held k) ∧
          u = { s with regs := u.regs } ∧ RegsKept [regAddr .KST_POLICY_OWN []] s u)) ∧
      (n = 0 → s.owned n ≠ s.held n → hartRuns s 1 = true → s.owned n = true →
        AnswersBy tensionTaken (.policyAckChange n) s (fun v => v.held 0 = true ∧ v = { s with regs := v.regs }))) ∧
    (∀ g : Nat,
      let may := s.owned 3 = false ∧ hartRuns s 2 = true ∧ gaugeFree s g = true ∧ gaugeRoom s g = true ∧
        g ∉ s.ras.underTest
      let wait := g ∈ s.ras.due ∧ s.castingOff = false ∧ s.owned 3 = false ∧ hartRuns s 2 = true ∧ g ∉ s.ras.underTest
      (gaugeUnit s g = false → exec (.gaugeDue g) s = .next s) ∧
      (gaugeUnit s g = true → Answers (.gaugeDue g) s (fun u => g ∈ u.ras.due ∧ (may → g ∈ u.ras.underTest) ∧
        (¬ may → u.ras.underTest = s.ras.underTest) ∧
        u = { s with ras := { s.ras with due := u.ras.due, underTest := u.ras.underTest } })) ∧
      (¬ wait → exec (.gaugeDeferExpire g) s = .next s) ∧
      (wait → gaugeFree s g = true → exec (.gaugeDeferExpire g) s = .next (gaugeTry s g)) ∧
      (wait → gaugeFree s g = false → 1024 ≤ g → g < 1088 → coreState s (g - 1024) = 1 → gaugeRoom s g = true →
        Answers (.gaugeDeferExpire g) s (fun u => g ∈ u.ras.underTest ∧ g ∈ u.ras.preempted ∧ coreState u (g - 1024) = 0 ∧
          gs u KST_GAUGE_STAT.PREEMPT_CNT = satAdd KST_GAUGE_STAT.PREEMPT_CNT (gs s KST_GAUGE_STAT.PREEMPT_CNT) 1)) ∧
      (∀ t, wait → gaugeFree s g = false → g < 1024 → logicalOf s g = some t → s.tstate t = 1 →
        (s.tile t).aborting = false → (s.tile t).retiring = 0 → (s.tile t).excTag = none → Answers (.gaugeDeferExpire g) s (fun u =>
          u.tstate t = 3 ∧ g ∈ u.ras.preempted ∧ u.ras.underTest = s.ras.underTest)) ∧
      (s.owned 3 = true → hartRuns s 2 = true → g ∈ s.ras.due → g ∉ s.ras.overdue →
        AnswersBy (recordAt · (if g < 1024 then unitSpan (g / 128) (g % 128) else unitKst (g - 1024)) 3 0x0B 0 none)
          (.gaugeOverdue g) s (fun v => g ∈ v.ras.overdue ∧
            gs v KST_GAUGE_STAT.OVERDUE_CNT = satAdd KST_GAUGE_STAT.OVERDUE_CNT (gs s KST_GAUGE_STAT.OVERDUE_CNT) 1)) ∧
      (s.owned 3 = false ∨ hartRuns s 2 = false ∨ g ∉ s.ras.due ∨ g ∈ s.ras.overdue → exec (.gaugeOverdue g) s = .next s) ∧
      (g ∉ s.ras.underTest → ∀ pass low, exec (.gaugeTestDone g pass low) s = .next s) ∧
      (∀ (pass : Bool) (low : Option Nat), g ∈ s.ras.underTest →
        let t := if g < 1024 then logicalOf s g else none
        let mark (v : State) : State := match low with
          | some n => if g < 1024 ∧ n < 16 ∧ kmh1Runs s = true then marginLow v (g / 128) n else v
          | none => v
        AnswersBy (fun v => gaugeBack (if pass then mark v else gaugeFail (mark v) g) g t) (.gaugeTestDone g pass low) s (fun v =>
          g ∉ v.ras.underTest ∧ g ∉ v.ras.due ∧ g ∉ v.ras.overdue ∧
          gs v KST_GAUGE_STAT.RUN_CNT = (gs s KST_GAUGE_STAT.RUN_CNT + 1) % 2 ^ 24 ∧
          (s.ras.gaugeReq = some g → gq v KST_GAUGE_REQ.RESULT = (if pass then 1 else 2) ∧ gq v KST_GAUGE_REQ.BUSY = 0 ∧
            v.ras.gaugeReq = none) ∧
          (s.ras.gaugeReq ≠ some g → RegsKept [regAddr .KST_GAUGE_STAT []] s v))) ∧
      (g ∉ s.ras.preempted → ∀ t, gaugeBack s g t = s)) ∧
    (∀ p n, p < 8 → n < 16 → s.owned 0 = false →
      let v (u : State) (i : Nat) (f : Fld) := u.fld .SPAN_VF_CURVE [p, i] f
      let up (i : Nat) := n ≤ i ∧ v s i SPAN_VF_CURVE.WITHDRAWN = 0
      let old (i : Nat) := v s i SPAN_VF_CURVE.AGE_MV
      (∀ i, i < 16 → up i → v s i SPAN_VF_CURVE.VOLT_MV + old i + 5 ≤ 950 ∧ old i + 5 ≤ 60) →
      ∀ i, i < 16 → (up i → v (marginLow s p n) i SPAN_VF_CURVE.AGE_MV = old i + 5) ∧
        (¬ up i → v (marginLow s p n) i SPAN_VF_CURVE.AGE_MV = old i) ∧
        v (marginLow s p n) i SPAN_VF_CURVE.WITHDRAWN = v s i SPAN_VF_CURVE.WITHDRAWN) ∧
    (∀ w : BitVec 64, let f (x : Fld) := fget w.toNat x
      let g := if f KST_GAUGE_REQ.KIND = 1 then 1024 + f KST_GAUGE_REQ.UNIT
        else 128 * f KST_GAUGE_REQ.SPAN + f KST_GAUGE_REQ.UNIT
      let ok := s.owned 3 = true ∧ gq s KST_GAUGE_REQ.BUSY = 0
      (¬ ok → exec (.gaugeReq w) s = .next (discardReg s .KST_GAUGE_REQ [])) ∧
      (ok → gaugeFree s g = true → g ∉ s.ras.underTest → Answers (.gaugeReq w) s (fun u =>
        gq u KST_GAUGE_REQ.BUSY = 1 ∧ gq u KST_GAUGE_REQ.RESULT = 0 ∧ g ∈ u.ras.underTest ∧ u.ras.gaugeReq = some g ∧
        u = { s with regs := u.regs, ras := { s.ras with underTest := u.ras.underTest, gaugeReq := some g } })) ∧
      (ok → (gaugeFree s g = false ∨ g ∈ s.ras.underTest) → Answers (.gaugeReq w) s (fun u =>
        gq u KST_GAUGE_REQ.RESULT = 3 ∧ u = { s with regs := u.regs })))

/-! Boot. -/

/-- O48. R12, R464 to R469, R473 to R475, R485: a store of settings begins, waits or is refused, a commit that ends is counted and
reports; a default is taken at the next Cast-on; slots are selected only when ready, a trial is confirmed while it runs and
expires into Cast-off; Cast-off runs to its last event; a module reset and a request for Recovery are taken. -/
def Obligations.SettingsSlotsAndCastOff : Prop :=
  ∀ s : State, s.up = true →
    let ss (u : State) (f : Fld) := u.fld .KST_SET_STAT [] f
    let slot := s.fld .KST_BOOT_STAT [] KST_BOOT_STAT.SLOT
    let sl (u : State) (k : Nat) (f : Fld) := u.fld .KST_SLOT [k] f
    (∀ w : BitVec 64, let scope := fget w.toNat KST_SET_CTL.SCOPE
      let runs := s.boot.event = 11 ∧ (s.boot.off < 4 ∨ s.boot.off = 8)
      let room := (commitTimes s).length < 64 ∧ ss s KST_SET_STAT.WEAR_PM < 950
      (scope ≠ 0 → exec (.settingsStore w) s = .next (discardReg s .KST_SET_CTL [])) ∧
      (scope = 0 → ¬ runs → Answers (.settingsStore w) s (fun u => ss u KST_SET_STAT.STATUS = 9 ∧ u.store = s.store)) ∧
      let kmh0 := hartRuns s 0 = true
      (scope = 0 → runs → ¬ kmh0 → Answers (.settingsStore w) s (fun u => ss u KST_SET_STAT.STATUS = 0x0F ∧
        u = { s with regs := u.regs })) ∧
      (scope = 0 → runs → kmh0 → s.boot.run = none → room → Answers (.settingsStore w) s (fun u =>
        ss u KST_SET_STAT.BUSY = 1 ∧ ss u KST_SET_STAT.PENDING = 0 ∧ ss u KST_SET_STAT.DIRTY = 0 ∧
        (∃ c, u.boot.run = some c ∧ c.who = [none]) ∧ u.boot.held = none ∧ u.store = s.store)) ∧
      (scope = 0 → runs → kmh0 → ¬ room → (s.boot.run = none ∨ s.boot.held = none) → Answers (.settingsStore w) s (fun u =>
        ss u KST_SET_STAT.STATUS = 0x0E ∧ u.boot = s.boot)) ∧
      (∀ c, scope = 0 → runs → kmh0 → s.boot.run = some c → s.boot.held = none → room → Answers (.settingsStore w) s (fun u =>
        ss u KST_SET_STAT.PENDING = 1 ∧ u.boot.run = some c ∧ ∃ h, u.boot.held = some h ∧ h.who = [none])) ∧
      (∀ c h, scope = 0 → runs → kmh0 → s.boot.run = some c → s.boot.held = some h → Answers (.settingsStore w) s (fun u =>
        u.boot.run = some c ∧ u.boot.held = some { h with who := h.who ++ [none] })) ∧
      (fget w.toNat KST_SET_CTL.STORE = 0 → Answers (.settingsDefault w) s (fun u =>
        ss u KST_SET_STAT.DEFAULT_PEND = 1 ∧ u = { s with regs := u.regs }))) ∧
    (s.boot.run = none ∨ hartRuns s 0 = false → exec .settingsCommitDone s = .next s) ∧
    (∀ c h, s.boot.run = some c → hartRuns s 0 = true → s.boot.held = some h → Answers .settingsCommitDone s (fun u =>
      (∃ d, u.boot.run = some d ∧ d.who = h.who) ∧ u.boot.held = none ∧ ss u KST_SET_STAT.BUSY = 1 ∧
      u.store = (commitPut s c).store)) ∧
    (∀ c, s.boot.run = some c → hartRuns s 0 = true → s.boot.held = none → c.who = [none] →
      Answers .settingsCommitDone s (fun u => u.boot.run = none ∧ ss u KST_SET_STAT.BUSY = 0 ∧
        ss u KST_SET_STAT.STATUS = 0 ∧ ss u KST_SET_STAT.COMMIT_CNT = (ss s KST_SET_STAT.COMMIT_CNT + 1) % 2 ^ 16 ∧
        u.store = (commitPut s c).store)) ∧
    (∀ w : BitVec 64, let g (f : Fld) := fget w.toNat f
      let k := g KST_BOOT_CTL.NEXT_SLOT
      let p (f : Fld) := s.plain .KST_BOOT_CTL [] (fput w.toNat f 1)
      let only (f : Fld) := g KST_BOOT_CTL.CONFIRM_MIN ≠ 0 ∧ ∀ x ∈ [KST_BOOT_CTL.SELECT, KST_BOOT_CTL.CONFIRM,
        KST_BOOT_CTL.CASTOFF, KST_BOOT_CTL.MOD_RESET, KST_BOOT_CTL.RECOVERY], x ≠ f → g x = 0
      (g KST_BOOT_CTL.CONFIRM_MIN = 0 → ∀ q ∈ ([.bootSelect, .bootConfirm, .castoff, .bootModReset, .bootRecovery] :
        List (BitVec 64 → Instr)), exec (q w) s = .next (discardReg s .KST_BOOT_CTL [])) ∧
      (slotReady s k = false → exec (.bootSelect w) s = .next (discardReg s .KST_BOOT_CTL [])) ∧
      (only KST_BOOT_CTL.SELECT → slotReady s k = true → Answers (.bootSelect w) s (fun u =>
        u.boot = { s.boot with trial := some k, fall := false } ∧ sl u k KST_SLOT.TRIAL = 1 ∧
        mfind u.store (regAddr .KST_SLOT [k]) = some (BitVec.ofNat 64 (u.rd .KST_SLOT [k])))) ∧
      (only KST_BOOT_CTL.CONFIRM → trialOpen s = true → s.boot.event = 11 → Answers (.bootConfirm w) s (fun u =>
        u.boot.dflt = slot ∧ sl u slot KST_SLOT.CONFIRMED = 1 ∧ sl u slot KST_SLOT.TRIAL = 0 ∧
        sl u slot KST_SLOT.FAIL_CNT = 0)) ∧
      (only KST_BOOT_CTL.CONFIRM → (trialOpen s = false ∨ s.boot.event ≠ 11) → exec (.bootConfirm w) s = .next (p KST_BOOT_CTL.CONFIRM)) ∧
      (only KST_BOOT_CTL.CASTOFF → exec (.castoff w) s = .next (castOffAsk (p KST_BOOT_CTL.CASTOFF) none)) ∧
      (only KST_BOOT_CTL.MOD_RESET → exec (.bootModReset w) s = .next (moduleReset (p KST_BOOT_CTL.MOD_RESET))) ∧
      (only KST_BOOT_CTL.RECOVERY → exec (.bootRecovery w) s =
        .next { p KST_BOOT_CTL.RECOVERY with boot := { s.boot with rcvy := true } })) ∧
    (s.boot.event ≠ 11 ∨ trialOpen s = false ∨ s.boot.off = 6 → exec .trialExpire s = .next s) ∧
    (s.boot.event = 11 → trialOpen s = true → s.boot.off = 0 →
      (s.bit .KST_RAS_STAT [] KST_RAS_STAT.CONT_ACTIVE = false → AnswersBy castOffBegin .trialExpire s (fun v =>
        v.boot.offReset = true ∧ v.boot.dflt = 1 - slot ∧ v.boot.fall = true ∧ sl v slot KST_SLOT.TRIAL = 0 ∧
        sl v slot KST_SLOT.FAIL_CNT = min 255 (sl s slot KST_SLOT.FAIL_CNT + 1) % 2 ^ 8)) ∧
      (s.bit .KST_RAS_STAT [] KST_RAS_STAT.CONT_ACTIVE = true → Answers .trialExpire s (fun u =>
        u.boot.off = 8 ∧ u.boot.offReset = true ∧ u.boot.dflt = 1 - slot))) ∧
    (s.boot.event = 11 → trialOpen s = true → s.boot.off ≠ 0 → s.boot.off ≠ 6 → Answers .trialExpire s (fun u =>
      u.boot.off = s.boot.off ∧ u.boot.offReset = true ∧ u.boot.dflt = 1 - slot ∧ u.boot.fall = true)) ∧
    (s.boot.off ≠ 1 → exec .castoffDrainTimeout s = .next s) ∧
    (s.boot.off = 1 → Answers .castoffDrainTimeout s (fun u => u.boot.off = 2 ∧
      (s.q.disps = [] → s.tiles = [] → u = { s with out := u.out, boot := u.boot }))) ∧
    (∀ r : Bool, (castOffEnd s).boot.offReset = r → (s.boot.off = 3 ∨ (s.boot.off = 2 ∧ drained s = true)) →
      exec .castoffDone s = .next (if r then moduleReset (castOffEnd s) else castOffEnd s)) ∧
    ((castOffEnd s).boot.off = 6 ∧ (castOffEnd s).fld .KST_BOOT_STAT [] KST_BOOT_STAT.STAGE = 10) ∧
    (¬ (s.boot.off = 3 ∨ (s.boot.off = 2 ∧ drained s = true)) → exec .castoffDone s = .next s)

/-- O49. R470 to R479: Cast-on passes its events in order, each with its STAGE; a slot whose checks fail counts a failure and the
other is tried; with none left, or a directory that cannot be read, the module enters Recovery; RUN not reached in time is
the failure of its slot. -/
def Obligations.CastOn : Prop :=
  ∀ (s : State) (v : Nat) (puf : Bool) (fails : List Nat), s.up = true →
    let go := exec (.castOnStageDone v puf fails) s
    let slot := s.fld .KST_BOOT_STAT [] KST_BOOT_STAT.SLOT
    let ev := s.boot.event
    let st (u : State) (f : Fld) := u.fld .KST_BOOT_STAT [] f
    let at_ (e stage : Nat) := Answers (.castOnStageDone v puf fails) s (fun u => u.boot.event = e ∧ st u KST_BOOT_STAT.STAGE = stage)
    (castOnGoes s = false → go = .next s ∧ exec .castOnTimeout s = .next s) ∧
    (castOnGoes s = true →
      (ev = 1 → v = 2 → go = .next (enterRecovery s 4)) ∧
      (ev = 1 → v ≠ 2 → slotChoice s = none → go = .next (enterRecovery s 1)) ∧
      (∀ k, ev = 1 → v ≠ 2 → v ≠ 1 → slotChoice s = some k → k < 2 → Answers (.castOnStageDone v puf fails) s (fun u =>
        u.boot.event = 2 ∧ st u KST_BOOT_STAT.SLOT = k ∧
        st u KST_BOOT_STAT.BOOT_CNT = satAdd KST_BOOT_STAT.BOOT_CNT (st s KST_BOOT_STAT.BOOT_CNT) 1)) ∧
      (∀ k, ev = 1 → v = 1 → slotChoice s = some k → k < 2 → AnswersBy (slotFail · k) (.castOnStageDone v puf fails) s
        (fun x => st x KST_BOOT_STAT.SLOT = k)) ∧
      (ev = 2 ∨ ev = 4 → v = 1 → go = .next (slotFail s slot)) ∧
      (ev = 2 → v ≠ 1 → puf = true → Answers (.castOnStageDone v puf fails) s (fun u => u.boot.event = 3 ∧
        st u KST_BOOT_STAT.STAGE = 1 ∧ (∀ h, h < 4 → hartRuns u h = true) ∧
        u.bit .KST_ID_STAT [] KST_ID_STAT.PUF_OK = true ∧ u.bit .KST_ID_STAT [] KST_ID_STAT.DEVID_READY = true)) ∧
      (ev = 2 → v ≠ 1 → puf = false → AnswersBy (recordAt · (unitKst 0x41) 6 0 0 none) (.castOnStageDone v puf fails) s
        (fun x => x.boot.event = 3 ∧ st x KST_BOOT_STAT.STAGE = 1 ∧ x.bit .KST_ID_STAT [] KST_ID_STAT.PUF_FAIL = true)) ∧
      (ev = 3 → v = 2 → go = .next (slotFail s slot)) ∧
      (ev = 3 → v ≠ 2 → at_ 4 2) ∧
      (ev = 4 → v ≠ 1 → cldTrained s = false → go = .next s) ∧
      (ev = 4 → v ≠ 1 → cldTrained s = true → Answers (.castOnStageDone v puf fails) s (fun u => u.boot.event = 5 ∧
        u.pwr.mode = (castOnAt (loadStore s) 5 3).fld .KST_PWR_MODE [] KST_PWR_MODE.MODE)) ∧
      (ev = 5 → at_ 6 4) ∧
      (ev = 5 → s.boot.cold = true → Answers (.castOnStageDone v puf fails) s (fun u => (∀ p, hbmByte u p = 0) ∧
        u.mem.pz = [] ∧ u.mem.er = [] ∧ ∀ n, n < 8192 → u.rd .HBM_FCLASS [n] = 2 ^ 64 - 1)) ∧
      (ev = 5 → ∀ k, k < s.asm.stacks → Answers (.castOnStageDone v puf fails) s (fun u =>
        let was := s.fld .HBM_STK_STAT [k] HBM_STK_STAT.STATE
        u.fld .HBM_STK_STAT [k] HBM_STK_STAT.STATE = if was = 2 then 2 else if was = 3 ∨ was = 4 then 4 else 1)) ∧
      (ev = 6 → hbmOff s = true → go = .next s) ∧
      (ev = 6 → hbmOff s = false → go = .next (castOnPlace s)) ∧
      (ev = 7 → go = .next (castOnTiles s fails)) ∧
      (ev = 7 → ∀ p, p < 8 → (castOnTiles s fails).bit .SPAN_CACHE_CTL [p] SPAN_CACHE_CTL.EN = true ∧
        (castOnTiles s fails).bit .SPAN_CACHE_STAT [p] SPAN_CACHE_STAT.INV_CLEAN = true) ∧
      (ev = 8 → at_ 9 6) ∧
      (ev = 8 → Answers (.castOnStageDone v puf fails) s (fun u =>
        u.clc.mode = s.fld .P0_CLC_CFG [] P0_CLC_CFG.MODE)) ∧
      (ev = 9 → at_ 10 7) ∧
      (ev = 10 → Answers (.castOnStageDone v puf fails) s (fun u => u.boot.event = 11 ∧ st u KST_BOOT_STAT.STAGE = 8 ∧
        u.boot.trial = none ∧ u.boot.fall = false ∧ u = { s with regs := u.regs, boot := u.boot })) ∧
      (ev = 0 ∨ 11 ≤ ev → go = .next s ∧ exec .castOnTimeout s = .next s) ∧
      (∀ k, ev = 1 → slotChoice s = some k → exec .castOnTimeout s = .next (slotFail s k)) ∧
      (ev = 1 → slotChoice s = none → exec .castOnTimeout s = .next (enterRecovery s 1)) ∧
      (2 ≤ ev → ev ≤ 10 → exec .castOnTimeout s = .next (slotFail s slot))) ∧
    (∀ cause, cause < 256 → st (enterRecovery s cause) KST_BOOT_STAT.STAGE = 15 ∧
      st (enterRecovery s cause) KST_BOOT_STAT.RCVY_CAUSE = cause ∧ hartRuns (enterRecovery s cause) 0 = true ∧
      ∀ h, 1 ≤ h → h < 4 → hartRuns (enterRecovery s cause) h = false)

/-! Management. -/

/-- O50. R380, R480 to R484 (the message codes are presumed, log 108): KMH0 answers on the management bus and
nothing else does; control messages set and read the endpoint number; a vendor message becomes a call, or is answered with
PERMISSION (0x0E) where its stage does not allow it, or is dropped while one is under way; SPDM requests are answered in
order, need the device secret, and those that need a signature the Alias key. -/
def Obligations.Management : Prop :=
  ∀ s : State,
    let nil (i : Instr) := exec i s = .next s
    let fail (i : Instr) (c : Nat) := exec i s = .next (s.send (.mctp 5 [0x7F, c]))
    let signed (i : Instr) := s.bit .KST_ID_STAT [] KST_ID_STAT.ALIAS_READY = true →
      Answers i s (fun u => u.freeCtr = s.freeCtr + 1 ∧
        ∃ l, u.out = s.out ++ [.mctp 5 (l ++ [(Config.freeWord s.freeCtr).toNat])])
    let rows := ([(.getVersion, 0), (.getCapabilities, 1), (.negotiateAlgorithms true true, 2), (.getDigests, 3),
      (.getCertificate 0, 3), (.challenge 0, 3), (.getMeasurements 0 false, 3)] : List (Instr × Nat))
    (s.up = true → (s.boot.event = 11 → s.bit .KST_ID_STAT [] KST_ID_STAT.PUF_OK = true → hartRuns s 0 = true →
        Answers .aliasKeyReady s (fun u => u.bit .KST_ID_STAT [] KST_ID_STAT.ALIAS_READY = true ∧
          u = { s with regs := u.regs } ∧ RegsKept [regAddr .KST_ID_STAT []] s u)) ∧
      (s.boot.event ≠ 11 ∨ s.bit .KST_ID_STAT [] KST_ID_STAT.PUF_OK = false ∨ hartRuns s 0 = false → nil .aliasKeyReady)) ∧
    (mctpUp s = false → (∀ r ∈ rows, nil r.1) ∧ (∀ c e, nil (.mctpControlMsg c e)) ∧ ∀ c, nil (.mctpVendorMsg c)) ∧
    (mctpUp s = true →
      (∀ eid, Answers (.mctpControlMsg 1 eid) s (fun u => u.boot = { s.boot with eid := eid % 256 } ∧
          u.out = s.out ++ [.mctp 0 [1, 0, eid % 256]]) ∧
        exec (.mctpControlMsg 2 eid) s = .next (s.send (.mctp 0 [2, 0, s.boot.eid])) ∧
        ∀ cmd, cmd ≠ 1 → cmd ≠ 2 → exec (.mctpControlMsg cmd eid) s = .next (s.send (.mctp 0 [cmd, 5]))) ∧
      (∀ code, let ok := code ∈ mctpCalls (s.fld .KST_BOOT_STAT [] KST_BOOT_STAT.STAGE)
        (¬ ok → exec (.mctpVendorMsg code) s = .next (s.send (.mctp 0x7E [0x0E]))) ∧
        (ok → callOf s 257 ≠ none → nil (.mctpVendorMsg code)) ∧
        (ok → callOf s 257 = none → Answers (.mctpVendorMsg code) s (fun u =>
          u.kst.calls = s.kst.calls ++ [⟨257, code, false, 0, false, false, none, []⟩] ∧
          u = { s with kst := { s.kst with calls := u.kst.calls } }))) ∧
      (s.bit .KST_ID_STAT [] KST_ID_STAT.PUF_OK = false → ∀ r ∈ rows, fail r.1 0x05) ∧
      (s.bit .KST_ID_STAT [] KST_ID_STAT.PUF_OK = true →
        (∀ r ∈ rows, s.boot.spdm < r.2 → fail r.1 0x04) ∧
        Answers .getVersion s (fun u => u.boot.spdm = 1 ∧ u.out = s.out ++ [.mctp 5 [0x04, 0x13]]) ∧
        (1 ≤ s.boot.spdm → Answers .getCapabilities s (fun u => u.boot.spdm = max 2 s.boot.spdm ∧
          u.out = s.out ++ [.mctp 5 [0x61, 0x16]])) ∧
        (2 ≤ s.boot.spdm → Answers (.negotiateAlgorithms true true) s (fun u => u.boot.spdm = 3) ∧
          fail (.negotiateAlgorithms false true) 0x01 ∧ fail (.negotiateAlgorithms true false) 0x01) ∧
        (3 ≤ s.boot.spdm →
          (∀ i ∈ ([.getDigests, .getCertificate 0] : List Instr), Answers i s (fun u => u.freeCtr = s.freeCtr + 1 ∧
            ∃ l, u.out = s.out ++ [.mctp 5 (l ++ [(Config.freeWord s.freeCtr).toNat])])) ∧
          (∀ k, k ≠ 0 → fail (.getCertificate k) 0x01 ∧ fail (.challenge k) 0x01) ∧
          signed (.challenge 0) ∧
          (s.bit .KST_ID_STAT [] KST_ID_STAT.ALIAS_READY = false → fail (.challenge 0) 0x42 ∧
            ∀ i, i ≤ 8 → fail (.getMeasurements i true) 0x42) ∧
          (∀ i, i ≤ 8 ∨ i = 255 → signed (.getMeasurements i true)) ∧
          exec (.getMeasurements 0 false) s = .next (s.send (.mctp 5 [0x60, 0, 8])) ∧
          (∀ i, (1 ≤ i ∧ i ≤ 8) ∨ i = 255 → Answers (.getMeasurements i false) s (fun u => u.freeCtr = s.freeCtr + 1 ∧
            u.out = s.out ++ [.mctp 5 [0x60, i, 8, (Config.freeWord s.freeCtr).toNat]])) ∧
          (∀ i sign, 8 < i → i ≠ 255 → fail (.getMeasurements i sign) 0x01))))

/-! Power and clocks of the module. -/

/-- O51. R13, R432, R433, R487 to R491, R494, R500: PWR_EN, the converter, PWR_GOOD and MOD_RESET_N bring the module up and take
it down in the order of R489 and R490; a tripped module stays off until PWR_EN has been low for a second; an input outside
its range alerts or removes power; a reset pulse under 1 microsecond is ignored; a lost reference is held and then stops the
module until it is stable. -/
def Obligations.ModulePowerAndReset : Prop :=
  ∀ s : State,
    let b := s.board
    let nil (i : Instr) := exec i s = .next s
    let on : Board := { b with pwrEn := true, pwrGood := true, convOn := true, lowHold := false, rstHold := false,
                               alertInt := false }
    (b.tripped = true → nil .coldReset) ∧
    (b.tripped = false → b.rstLow = false → exec .coldReset s = .next (Sys2Proof.Machine.coldReset { s with board := on })) ∧
    (b.tripped = false → b.rstLow = true → exec .coldReset s = .next (coldState (commitCut { s with board := on }))) ∧
    (let u := Sys2Proof.Machine.coldReset s
     u.boot.event = 1 ∧ u.boot.cold = true ∧ u.tiles = [] ∧ u.mem.hbm = [] ∧ u.mem.lines = [] ∧ u.q = State.reset.q ∧
     u.pending = s.pending ∧ u.clk = State.reset.clk) ∧
    (∀ (ns : Nat) (held strap : Bool),
      (powered s = false → exec (.moduleReset ns held strap) s =
        .next { s with board := { b with rstLow := b.rstLow || held } }) ∧
      (powered s = true → (b.rstLow = true ∨ (ns < 1000 ∧ held = false)) → nil (.moduleReset ns held strap)) ∧
      (powered s = true → b.rstLow = false → held = true → exec (.moduleReset ns held strap) s = .next (resetHeld s)) ∧
      (powered s = true → b.rstLow = false → 2000 ≤ ns → held = false → exec (.moduleReset ns held strap) s =
        .next (Sys2Proof.Machine.moduleReset { s with board := { b with strap := strap, rstHold := false } })) ∧
      (powered s = true → b.rstLow = false → 1000 ≤ ns → ns < 2000 → held = false →
        let s1 := { s with freeCtr := s.freeCtr + 1 }
        exec (.moduleReset ns held strap) s = .next (if Config.freeBit s.freeCtr then
          Sys2Proof.Machine.moduleReset { s1 with board := { b with strap := strap, rstHold := false } } else s1)) ∧
      (b.rstLow = false → nil (.modResetRelease strap)) ∧
      (b.rstLow = true →
        let s1 := { s with board := { b with rstLow := false, strap := strap } }
        exec (.modResetRelease strap) s = .next (if powered s = false then s1
          else if s.boot.event = 0 then castOnStart (linksCold s1) true else castOnStart s1 false))) ∧
    (b.pwrEn = true → nil .pwrEnRise) ∧
    (b.pwrEn = false → exec .pwrEnRise s =
      .next { s with board := { b with pwrEn := true, convOn := !b.lowHold && !b.tripped } }) ∧
    (b.convOn = true → b.pwrGood = false → Answers .pwrGoodRise s (fun u => u.board.pwrGood = true ∧
      u.board.rstHold = !b.rstLow ∧ u.boot.event = 0 ∧ u.tiles = [] ∧ ∃ l, u.out = l ++ [.pin 2 1])) ∧
    (b.convOn = false ∨ b.pwrGood = true → nil .pwrGoodRise) ∧
    (powered s = false ∨ b.rstHold = false → nil .pwrGoodResetDelayExpire) ∧
    (powered s = true → b.rstHold = true → s.boot.event = 0 → exec .pwrGoodResetDelayExpire s =
      .next (castOnStart (linksCold { s with board := { b with rstHold := false } }) true)) ∧
    (powered s = true → b.rstHold = true → s.boot.event ≠ 0 → exec .pwrGoodResetDelayExpire s =
      .next { s with board := { b with rstHold := false } }) ∧
    (b.pwrEn = false → nil .pwrEnFall) ∧
    (b.pwrEn = true → Answers .pwrEnFall s (fun u => u.board.pwrEn = false ∧ u.board.pwrGood = false ∧
      u.board.convOn = false ∧ u.board.lowHold = true ∧ u.out = s.out ++ (if powered s then [.pin 2 0] else []) ∧
      u = { s with board := u.board, out := u.out })) ∧
    (b.lowHold = false → nil .pwrEnLowHoldExpire) ∧
    (b.lowHold = true → b.pwrEn = true → exec .pwrEnLowHoldExpire s =
      .next { s with board := { b with lowHold := false, convOn := !b.tripped } }) ∧
    (b.lowHold = true → b.pwrEn = false → Answers .pwrEnLowHoldExpire s (fun u =>
      u.board = { b with lowHold := false, tripped := false } ∧ u.out = s.out ++ (if b.tripped then [.pin 1 1] else []))) ∧
    (∀ (dv : Nat) (held : Bool),
      (b.convOn = false → nil (.vinOutOfRange dv held)) ∧
      (b.convOn = true → held = true → dv < 430 ∨ 570 < dv → Answers (.vinOutOfRange dv held) s (fun u =>
        u.board.convOn = false ∧ u.board.pwrGood = (if powered s then false else b.pwrGood))) ∧
      (b.convOn = true → ¬ (held = true ∧ (dv < 430 ∨ 570 < dv)) → dv < 460 → s.up = true → b.alertInt = false →
        b.alertExt = false → exec (.vinOutOfRange dv held) s =
          .next (alertAssert { s with board := { b with alertInt := true } })) ∧
      (460 ≤ dv → dv ≤ 570 → nil (.vinOutOfRange dv held))) ∧
    (b.pwrEn = true → b.convOn = false → b.lowHold = false → b.tripped = false → exec .converterRestart s =
      .next { s with board := { b with convOn := true } }) ∧
    (b.pwrEn = false ∨ b.convOn = true ∨ b.lowHold = true ∨ b.tripped = true → nil .converterRestart) ∧
    (∀ v i o, s.up = true → hartRuns s 1 = true → v < 1024 → i < 128 → o < 128 →
      Answers (.boardSensorRead (some v) (some (i, o))) s (fun u => u.fld .KST_BOARD_STAT [] KST_BOARD_STAT.VIN_DV = v ∧
        u.fld .KST_BOARD_STAT [] KST_BOARD_STAT.IN_C = i ∧ u.fld .KST_BOARD_STAT [] KST_BOARD_STAT.OUT_C = o ∧
        u = { s with regs := u.regs } ∧ RegsKept [regAddr .KST_BOARD_STAT []] s u)) ∧
    (s.up = true → hartRuns s 1 = false → ∀ v c, nil (.boardSensorRead v c)) ∧
    (s.up = true → nil (.boardSensorRead none none)) ∧
    (s.up = false ∨ s.pwr.ref ≠ 0 → exec .refClockLoss s = .next { s with board := { b with refOk := false } }) ∧
    (s.up = true → s.pwr.ref ≠ 1 → nil .refHoldExpire) ∧ (s.pwr.ref ≠ 1 → nil .refClockReturn) ∧
    (s.up = true → s.pwr.ref = 0 → Answers .refClockLoss s (fun u => u.pwr = { s.pwr with ref := 1 } ∧
      u.board = { b with refOk := false } ∧ u.bit .TNS_EVENT [] TNS_EVENT.REF_LOST = true)) ∧
    (s.up = true → s.pwr.ref = 1 → Answers .refHoldExpire s (fun u => u.pwr.ref = 2 ∧ u.up = false)) ∧
    (s.pwr.ref = 1 → exec .refClockReturn s = .next { s with pwr := { s.pwr with ref := 0 }, board := { b with refOk := true } }) ∧
    (let s1 := { s with board := { b with refOk := true }, pwr := { s.pwr with ref := 0 } }
     (powered s = true → s.pwr.ref = 2 → b.rstLow = false → exec .refClockStable s = .next (Sys2Proof.Machine.moduleReset s1)) ∧
     (powered s = false ∨ s.pwr.ref ≠ 2 ∨ b.rstLow = true → exec .refClockStable s = .next s1))

/-! Service calls. -/

/-- O52. R28, R382, R385 and the controls tables: each call that reads registers returns OK with their values from word 16 of its
block and changes nothing, and PERMISSION where a register copy is not there; no call row acts before its turn, and a context
mailbox gets PERMISSION for what its context does not own. -/
def Obligations.CallsThatRead : Prop :=
  ∀ (s : State) (m : Nat), let val (p : RegId × List Nat) : BitVec 64 := BitVec.ofNat 64 (regSeen s p.1 p.2)
    let tc (t : Nat) : Bool := tileCtx s t == m
    let rc (r : Nat) : Bool := s.fld .RING_CTL [r] RING_CTL.CTX_ID == m
    (∀ t p k c : Nat, ∀ q ∈ ([
        (.svcModInfo m, 0x0001, false, [(.KST_ASSY_INFO, [])]),
        (.svcMmaStats m t, 0x0402, tc t, [(.TILE_MMA_STAT, tix t), (.TILE_MMA_PERF, tix t), (.TILE_MMA_KSTEP, tix t)]),
        (.svcTileMap m p, 0x0403, false, [(.SPAN_SPARE_MAP, [p]), (.SPAN_TILE_LOST, [p])]),
        (.svcTileStatus m t, 0x0501, tc t, [(.TILE_STAT, tix t), (.TILE_EXC, tix t), (.TILE_EXC_ADDR, tix t),
          (.TILE_MOVE_STAT, tix t), (.TILE_EPOCH, tix t)]),
        (.svcRevokeLog m k, 0x0805, false, [(.KST_REVOKE_CNT, []), (.KST_REVOKE_ENT, [k])]),
        (.svcEpochStat m p, 0x0806, false, [(.PIER_EPOCH_STAT, [p])]),
        (.svcLatStats m p k, 0x0808, false, [(.LAT_FLAGS, [p]), (.LAT_STAT, [p]), (.LAT_Q_STAT, [p, k])]),
        (.svcOrdStats m t, 0x0902, false, [(.KST_ORD_STAT, []), (.TILE_MOVE_STAT, tix t)]),
        (.svcLinkStatus m 0 p k, 0x0903, false, [if p < 8 then (.SPAN_DIE_INFO, [p]) else
          if p = 8 then (.KST_DIE_INFO, []) else (.PIER_DIE_INFO, [p - 9]),
          ((cldRegs p k).1, (cldRegs p k).2.2.2), ((cldRegs p k).2.1, (cldRegs p k).2.2.2)]),
        (.svcLinkStatus m 1 k p, 0x0903, false, [(.CLX_LINK_STAT, [k / 6, k % 6]), (.CLX_LINK_ERR, [k / 6, k % 6])]),
        (.svcLinkStatus m 2 k p, 0x0903, false, [(.CLX_LOST, [k])]),
        (.svcCohStats m p c, 0x0A01, false, (if p = 12 then [(.FAR_HOME_DIR_STAT, []), (.FAR_HOME_DIR_CNT, []),
          (.FAR_HOME_DIR_ERR, [])] else [(.HBM_HOME_DIR_STAT, [p]), (.HBM_HOME_DIR_CNT, [p]), (.HBM_HOME_DIR_ERR, [p])]) ++
          (cohStat c).toList),
        (.svcCacheStats m p, 0x0B04, false, [(.SPAN_CACHE_STAT, [p]), (.SPAN_CACHE_PERF, [p]), (.SPAN_CMAINT_STAT, [p])]),
        (.svcHbmStats m p k, 0x0C03, false, [(.HBM_STK_STAT, [p]), (.HBM_THR_STAT, [p]), (.HBM_ERR_CNT, [p]),
          (.HBM_PPR_STAT, [p]), (.HBM_SCRUB_STAT, []), (.HBM_REGION, [k])]),
        (.svcTrestleStats m p, 0x0D0A, false, [(.TR_Q_STAT, [p]), (.TR_STAT, [p]), (.TR_FLAGS, [p])]),
        (.svcRingStatus m k, 0x0E05, rc k, [(.RING_STAT, [k])]),
        (.svcClcStatus m, 0x0E09, false, [(.P0_CLC_STAT, []), (.P0_CLC_ERR, []), (.KST_PARK, [])]),
        (.svcPwrStats m p, 0x1103, false, [(.TNS_EST, []), (.TNS_EVENT, []), (.TNS_DEFER, []), (.SPAN_PWR_STAT, [p]),
          (.SPAN_DROOP_STAT, [p])]),
        (.svcRetireTbl m k none, 0x1203, false, [(.KST_RETIRE, [k])]),
        (.svcRasStatus m, 0x1208, false, [(.KST_RAS_STAT, []), (.KST_CORE_RETIRED, [])]),
        (.svcGaugeStatus m, 0x1209, false, [(.KST_GAUGE_STAT, []), (.KST_GAUGE_REQ, [])]),
        (.svcBootStatus m, 0x1306, false, [(.KST_BOOT_STAT, []), (.KST_SLOT, [0]), (.KST_SLOT, [1]), (.KST_SET_STAT, [])]),
        (.svcIdStatus m, 0x1309, false, [(.KST_ID_STAT, [])]),
        (.svcBoardStatus m, 0x1401, false, [(.KST_BOARD_STAT, [])])] :
          List (Instr × Nat × Bool × List (RegId × List Nat))),
      CallGate q.1 s m q.2.1 q.2.2.1 ∧
      (∀ c, CallReady s m q.2.1 c → (m < 256 → q.2.2.1 = true) →
        ((∀ x ∈ q.2.2.2, regThere s x.1 x.2 = true) → Returns q.1 s m 0 s (q.2.2.2.map val)) ∧
        ((∃ x ∈ q.2.2.2, regThere s x.1 x.2 = false) → Returns q.1 s m 0x0E s []))) ∧
    (∀ c n unit : Nat, CallGate (.svcCoreStatus m c) s m 0x0F01 false ∧ CallGate (.svcPoolStats m c) s m 0x0D03 (c == m) ∧
      CallGate (.svcErrLog m n unit) s m 0x1201 false) ∧
    (∀ c : Nat, ∀ d, CallReady s m 0x0F01 d → 256 ≤ m →
      regThere s .KST_CORE_STAT [c] = true → regThere s .KST_HART_STAT [] = true →
      let o := [val (.KST_CORE_STAT, [c]), val (.KST_HART_STAT, [])]
      (coreRetired s c = false → Returns (.svcCoreStatus m c) s m 0 s o) ∧
      (coreRetired s c = true → ∃ x, Returns (.svcCoreStatus m c) s m 0 { s with freeCtr := s.freeCtr + 1 } (o ++ [x]))) ∧
    (∀ c : Nat, ∀ d, CallReady s m 0x0D03 d → (m < 256 → c = m) → regThere s .CTX_POOL [c] = true →
      regThere s .PLC_POOL_STAT [] = true → regThere s .PLC_STAT [] = true →
      Returns (.svcPoolStats m c) s m 0 s
        ([(.CTX_POOL, [c]), (.PLC_POOL_STAT, []), (.PLC_STAT, [])].map val ++ [BitVec.ofNat 64 (pinnedOf s c)])) ∧
    (∀ n unit : Nat, ∀ d, CallReady s m 0x1201 d → 256 ≤ m →
      let b := bankOf unit
      let l := [(b.1, b.2.2.2.2), (b.2.1, b.2.2.2.2), (b.2.2.1, b.2.2.2.2), (b.2.2.2.1, b.2.2.2.2)]
      let s1 := s.setFld .KST_ERR_LOG_IDX [] ⟨11, 0⟩ n
      (4096 ≤ n → Returns (.svcErrLog m n unit) s m 0x0E s []) ∧
      (n < 4096 → (∀ x ∈ l, regThere s x.1 x.2 = true) → Returns (.svcErrLog m n unit) s m 0 s
        ([val (.KST_ERR_SUM, []), val (.KST_ERR_LOG_STAT, [])] ++
          (List.range 4).map (fun k => BitVec.ofNat 64 (logWord s1 k)) ++ l.map val)) ∧
      (n < 4096 → (∃ x ∈ l, regThere s x.1 x.2 = false) → Returns (.svcErrLog m n unit) s m 0x0E s []))

/-- O53. R28, R382, R385 and the controls tables: each call that writes registers writes what a register write of the same value
does, and returns OK; where the register copy is not there, the block has its owner elsewhere or the write would be discarded,
it returns PERMISSION and changes nothing. -/
def Obligations.CallsThatWrite : Prop :=
  ∀ (s : State) (m : Nat), let tc (t : Nat) : Bool := tileCtx s t == m
    let rc (r : Nat) : Bool := s.fld .RING_CTL [r] RING_CTL.CTX_ID == m
    let lc (n : Nat) : Bool := s.fld .KST_COLL_ID [n] KST_COLL_ID.CTX_ID == m
    let kept (r : RegId) (ix : List Nat) (fs : List (Fld × Nat)) : Nat :=
      fs.foldl (fun w f => fput w f.1 f.2) (effWrite (regInfo r).flds (s.rd r ix) 0 64 0)
    let wrote (r : RegId) (ix : List Nat) (w : Nat) : Option State := regWrote s r ix w
    (∀ (ts : List Nat) (n : Nat) (w : BitVec 64),
      let put (r : RegId) (jx : List Nat) (old : Bool) (u : State) (t : Nat) : Option (State × List (BitVec 64)) :=
        (regWrote u r (tix t ++ jx) w.toNat).map (fun v =>
          (v, if old then [BitVec.ofNat 64 (regSeen u r (tix t ++ jx))] else []))
      ∀ q ∈ ([
        (.svcFmtDesc m ts n w, 0x0301, fun u t => (regWrote u .FMT_DESC (tix t ++ [n])
          (if n = 15 then u.rd .FMT_DESC (tix t ++ [15]) / 65536 * 65536 + w.toNat % 65536 else w.toNat)).map (·, [])),
        (.svcFmtUser m ts w, 0x0302, put .FMT_DESC [15] false), (.svcSrSeed m ts w, 0x0303, put .TILE_SR_SEED [] false),
        (.svcFmtFlags m ts w, 0x0304, put .TILE_FMT_FLAGS [] true), (.svcFmtReport m ts w, 0x0305, put .TILE_FMT_CTL [] false),
        (.svcAmax m ts n true w, 0x0306, put .TILE_AMAX [n] true),
        (.svcAmax m ts n false w, 0x0306, fun u t => if regThere u .TILE_AMAX (tix t ++ [n]) then
          some (u, [BitVec.ofNat 64 (regSeen u .TILE_AMAX (tix t ++ [n]))]) else none)] :
          List (Instr × Nat × (State → Nat → Option (State × List (BitVec 64))))),
      CallGate q.1 s m q.2.1 (tilesOf s ts m) ∧
      (∀ d, CallReady s m q.2.1 d → (m < 256 → tilesOf s ts m = true) →
        ((∃ t ∈ ts, tileIdle s t = false ∧ s.tstate t ≠ 7) → exec q.1 s = .next s) ∧
        ((∀ t ∈ ts, tileIdle s t = true ∨ s.tstate t = 7) →
          (∀ u o, tilesDone q.2.2 ts s = some (u, o) → Returns q.1 s m 0 u o) ∧
          (tilesDone q.2.2 ts s = none → Returns q.1 s m 0x0E s [])))) ∧
    (∀ (n c p : Nat) (w : BitVec 64), ∀ q ∈ ([
        (.svcHbmScrub m w, 0x0C02, false, true, .HBM_SCRUB_CTL, [], w.toNat),
        (.svcFarPool m w, 0x0D01, false, !s.held 1, .PLC_FAR_CFG, [], w.toNat),
        (.svcPlaceTune m w, 0x0D04, false, !s.held 1, .PLC_AGE_CTL, [], w.toNat),
        (.svcCoreReset m c w, 0x0F02, false, true, .KST_CORE_CTL, [c], w.toNat),
        (.svcQsExclude m p w, 0x0F04, false, true, .KST_QS_EXCL, [p], w.toNat),
        (.svcLinkRoute m n w none, 0x1001, false, true, .CLX_RT, [n], w.toNat),
        (.svcErrClear m n w, 0x1202, false, true, (bankOf n).1, (bankOf n).2.2.2.2, w.toNat),
        (.svcRetireTbl m n (some w), 0x1203, false, !s.held 4, .KST_RETIRE, [n], w.toNat),
        (.svcGaugeCfg m w, 0x1204, false, !s.held 3, .KST_GAUGE_CTL, [], w.toNat),
        (.svcGaugeRun m w, 0x1205, false, s.held 3, .KST_GAUGE_REQ, [], fput w.toNat KST_GAUGE_REQ.GO 1)] :
          List (Instr × Nat × Bool × Bool × RegId × List Nat × Nat)),
      CallGate q.1 s m q.2.1 q.2.2.1 ∧
      (∀ d, CallReady s m q.2.1 d → (m < 256 → q.2.2.1 = true) →
        (∀ u, q.2.2.2.1 = true → wrote q.2.2.2.2.1 q.2.2.2.2.2.1 q.2.2.2.2.2.2 = some u → Returns q.1 s m 0 u []) ∧
        (q.2.2.2.1 = false ∨ wrote q.2.2.2.2.1 q.2.2.2.2.2.1 q.2.2.2.2.2.2 = none → Returns q.1 s m 0x0E s []))) ∧
    (∀ (t n c p x y : Nat) (b : Bool), ∀ q ∈ ([
        (.svcPwrMode m x, 0x0101, false, true, .KST_PWR_MODE, [], [(KST_PWR_MODE.MODE, x)]),
        (.svcIntegrityMode m c x, 0x0102, c == m, true, .CTX_MODE, [c], [(CTX_MODE.INTEG, x)]),
        (.svcActProtect m c x, 0x0103, c == m, true, .CTX_MODE, [c], [(CTX_MODE.ACT_PROT, x)]),
        (.svcOrderMode m c x, 0x0104, c == m, true, .CTX_MODE, [c], [(CTX_MODE.ORDER, x)]),
        (.svcRawHbmAttr m x y, 0x0205, false, true, .RAW_HBM_ATTR, [], [(RAW_HBM_ATTR.RTYPE, x), (RAW_HBM_ATTR.BAR_EN, y)]),
        (.svcRawHostWin m x y, 0x0206, false, true, .RAW_HOST_CFG, [], [(RAW_HOST_CFG.EN, x), (RAW_HOST_CFG.BASE, y)]),
        (.svcModId m x y, 0x0207, false, true, .KST_MOD_ID, [], [(KST_MOD_ID.MOD_ID, x), (KST_MOD_ID.VALID, y)]),
        (.svcMmaTest m t x y, 0x0401, tc t, true, .TILE_MMA_CTL, tix t,
          [(TILE_MMA_CTL.GATE_DIS, x), (TILE_MMA_CTL.INJ_ONCE, y)]),
        (.svcTilePreempt m t b, 0x0502, tc t, s.held 3, .TILE_CTL, tix t,
          [(if b then TILE_CTL.RESTORE else TILE_CTL.PREEMPT, 1)]),
        (.svcTileDisable m t x, 0x0503, tc t, true, .TILE_CTL, tix t, [(TILE_CTL.DISABLE, x)]),
        (.svcTileReset m t, 0x0504, tc t, true, .TILE_CTL, tix t, [(TILE_CTL.RESET, 1)]),
        (.svcCollRelease m n, 0x0802, lc n, true, .KST_COLL_ID, [n], [(KST_COLL_ID.VALID, 0)]),
        (.svcCollAbort m n, 0x0803, lc n, true, .KST_COLL_ID, [n], [(KST_COLL_ID.ABORT, 1)]),
        (.svcCollPhase m n x, 0x0804, lc n, true, .KST_COLL_ID, [n], [(KST_COLL_ID.ACTIVE, x)]),
        (.svcLatDisable m p n x, 0x0807, false, true, .LAT_Q_CTL, [p, n], [(LAT_Q_CTL.DISABLE, 1), (LAT_Q_CTL.ABORT_EN, x)]),
        (.svcRsvGran m c x, 0x0901, c == m, true, .CTX_RSV_CTL, [c], [(CTX_RSV_CTL.GRAN, x)]),
        (.svcCohTest m n x y, 0x0A02, false, true, if n = 12 then .FAR_HOME_DIR_CTL else .HBM_HOME_DIR_CTL,
          if n = 12 then [] else [n], [(HOME_DIR_CTL.INJ_CE, x), (HOME_DIR_CTL.INJ_UE, y)]),
        (.svcPoolSet m c x y, 0x0D02, false, !s.held 1, .CTX_POOL, [c], [(CTX_POOL.RESERVE, x), (CTX_POOL.LIMIT, y)]),
        (.svcTrestleDisable m p x, 0x0D09, false, !s.held 2, .TR_CTL, [p], [(TR_CTL.DISABLE, 1), (TR_CTL.ABORT_EN, x)]),
        (.svcRingDisable m n x, 0x0E04, rc n, true, .RING_CTL, [n], [(RING_CTL.DISABLE, 1), (RING_CTL.ABORT_EN, x)]),
        (.svcClcCfg m x y, 0x0E06, false, true, .P0_CLC_CFG, [], [(P0_CLC_CFG.MODE, x), (P0_CLC_CFG.DRAIN_MS, y)]),
        (.svcClcReset m, 0x0E07, false, true, .P0_CLC_CFG, [], [(P0_CLC_CFG.EP_RESET, 1)]),
        (.svcLinkRetrain m false n y, 0x1002, false, true, .CLX_LINK_CTL, [n / 6, n % 6], [(CLX_LINK_CTL.RETRAIN, 1)]),
        (.svcLinkRetrain m true n y, 0x1002, false, true, (cldRegs n y).2.2.1, (cldRegs n y).2.2.2, [(CLD_PORT_CTL.RETRAIN, 1)]),
        (.svcLinkEnable m n x, 0x1003, false, true, .CLX_LINK_CTL, [n / 6, n % 6], [(CLX_LINK_CTL.EN, x)]),
        (.svcLinkTest m n p x, 0x1004, false, true, (cldRegs n p).2.2.1, (cldRegs n p).2.2.2, [(CLD_PORT_CTL.MAX_WIDTH, x)]),
        (.svcPwrCap m x, 0x1101, false, true, .TNS_CAP, [], [(TNS_CAP.USER_CAP_W, x)]),
        (.svcContTest m, 0x1206, false, true, .KST_RAS_CTL, [], [(KST_RAS_CTL.CONT_REQ, 1)]),
        (.svcRasResume m, 0x1207, false, true, .KST_RAS_CTL, [], [(KST_RAS_CTL.CONT_RESUME, 1)]),
        (.svcSettingsDefault m, 0x1302, false, true, .KST_SET_CTL, [], [(KST_SET_CTL.DEFAULT, 1)])] :
          List (Instr × Nat × Bool × Bool × RegId × List Nat × List (Fld × Nat))),
      CallGate q.1 s m q.2.1 q.2.2.1 ∧
      (∀ d, CallReady s m q.2.1 d → (m < 256 → q.2.2.1 = true) →
        let w := kept q.2.2.2.2.1 q.2.2.2.2.2.1 q.2.2.2.2.2.2
        (∀ u, q.2.2.2.1 = true → wrote q.2.2.2.2.1 q.2.2.2.2.2.1 w = some u → Returns q.1 s m 0 u []) ∧
        (q.2.2.2.1 = false ∨ wrote q.2.2.2.2.1 q.2.2.2.2.2.1 w = none → Returns q.1 s m 0x0E s []))) ∧
    (∀ (n h : Nat) (p : Option Nat) (w x : BitVec 64), ∀ q ∈ ([
        (.svcHbmThrottle m n w h, 0x0C01, false),
        (.svcLinkRoute m n w (some h), 0x1001, false), (.svcReattach m n, 0x0E08, false), (.svcCorePower m n, 0x0F03, false),
        (.svcPdSet m p n, 0x1102, false), (.svcTrestleCfg m n w x h, 0x0D07, false)] : List (Instr × Nat × Bool)),
      CallGate q.1 s m q.2.1 q.2.2) ∧
    (∀ (n h : Nat) (w : BitVec 64), ∀ q ∈ ([
        (.svcHbmThrottle m n w h, 0x0C01, .HBM_THR_CURVE, [n], .HBM_THR_CTL),
        (.svcLinkRoute m n w (some h), 0x1001, .CLX_RT, [n], .CLX_STAY_CFG)] :
          List (Instr × Nat × RegId × List Nat × RegId)),
      ∀ (d : Call), CallReady s m q.2.1 d → 256 ≤ m →
      (∀ u v, wrote q.2.2.1 q.2.2.2.1 w.toNat = some u →
        regWrote u q.2.2.2.2 [] h = some v → Returns q.1 s m 0 v []) ∧
      (∀ u, wrote q.2.2.1 q.2.2.2.1 w.toNat = some u →
        regWrote u q.2.2.2.2 [] h = none → Returns q.1 s m 0x0E s []) ∧
      (wrote q.2.2.1 q.2.2.2.1 w.toNat = none → Returns q.1 s m 0x0E s [])) ∧
    (∀ (e : Nat) (d : Call), CallReady s m 0x0E08 d → 256 ≤ m →
      (s.bit .KST_PARK [] KST_PARK.PARKED = true → s.fld .KST_PARK [] KST_PARK.EPOCH = e →
        Returns (.svcReattach m e) s m 0 (reattach s) []) ∧
      (s.bit .KST_PARK [] KST_PARK.PARKED = false ∨ s.fld .KST_PARK [] KST_PARK.EPOCH ≠ e →
        Returns (.svcReattach m e) s m 0x0E s [])) ∧
    (∀ (off : Nat) (d : Call), CallReady s m 0x0F03 d → 256 ≤ m → off < 256 →
      (s.held 0 = false → offsOk s 64 8 off = true → Returns (.svcCorePower m off) s m 0
        (applyOff (s.setFld .KST_PD_CTL [] KST_PD_CTL.CORE_PD_OFF off) 64 8 off) []) ∧
      (s.held 0 = true ∨ offsOk s 64 8 off = false → Returns (.svcCorePower m off) s m 0x0E s [])) ∧
    (∀ (off : Nat) (d : Call), CallReady s m 0x1102 d → 256 ≤ m →
      (s.held 0 = true → ∀ p, Returns (.svcPdSet m p off) s m 0x0E s []) ∧
      (∀ p, s.held 0 = false → p < 8 → off < 256 → offsOk s (8 * p) 8 off = true → Returns (.svcPdSet m (some p) off) s m 0
        (applyOff (s.setFld .SPAN_PWR_CTL [p] SPAN_PWR_CTL.PD_OFF off) (8 * p) 8 off) []) ∧
      (∀ p, s.held 0 = false → off < 256 → (8 ≤ p ∨ offsOk s (8 * p) 8 off = false) →
        Returns (.svcPdSet m (some p) off) s m 0x0E s []) ∧
      (s.held 0 = false → off < 2 ^ (2 * s.asm.piers) → Returns (.svcPdSet m none off) s m 0
        (applyOff (s.setFld .KST_PD_CTL [] KST_PD_CTL.PIER_PD_OFF off) 72 (2 * s.asm.piers) off) [])) ∧
    (∀ (p ways : Nat) (x y : BitVec 64) (d : Call) (u v : State), CallReady s m 0x0D07 d → 256 ≤ m →
      let cw := fput (fput 0 SPAN_CACHE_CTL.EN (v.fld .SPAN_CACHE_CTL [p] SPAN_CACHE_CTL.EN)) SPAN_CACHE_CTL.SKEIN_WAYS ways
      (s.held 2 = true ∨ wrote .TR_WIN [p] x.toNat = none → Returns (.svcTrestleCfg m p x y ways) s m 0x0E s []) ∧
      (wrote .TR_WIN [p] x.toNat = some u → regWrote u .TR_SYNC [p] y.toNat = none →
        Returns (.svcTrestleCfg m p x y ways) s m 0x0E s []) ∧
      (s.held 2 = false → wrote .TR_WIN [p] x.toNat = some u →
        regWrote u .TR_SYNC [p] y.toNat = some v → ways < 16 →
        (refusedBy v (cacheCtlWrite v p cw) ≠ none → Returns (.svcTrestleCfg m p x y ways) s m 0 (cacheCtlWrite v p cw) []) ∧
        (refusedBy v (cacheCtlWrite v p cw) = none → Returns (.svcTrestleCfg m p x y ways) s m 0x0E s [])))

/-- O54. R24, R28, R39, R50 to R54, R203, R214, R326 to R332, R348: the calls on objects, pages, frames, copies and Stay windows.
An allocation takes a run of free pages and an ID not in use; a call that must wait changes nothing yet; one refused returns
PERMISSION and changes nothing. -/
def Obligations.CallsOnMemory : Prop :=
  ∀ (s : State) (m : Nat),
    let rdy (code : Nat) (own : Bool) : Prop := (∃ d, CallReady s m code d) ∧ (m < 256 → own = true)
    (∀ (c k p n id x y : Nat) (attr : BitVec 16) (w v : BitVec 64) (b : Bool) (ext : Ext) (win : Option (BitVec 64)), ∀ q ∈ ([
        (.svcMemAlloc m c k p n attr w, 0x0201, c == m), (.svcMemFree m id, 0x0202, objCtx s id == m),
        (.svcPageAttr m p attr, 0x0203, peCtx (ptEntry s p) == m && attr.toNat / 256 == m),
        (.svcPageSetClass m p b, 0x0204, peCtx (ptEntry s p) == m), (.svcRawReserve m k n b, 0x0D05, false),
        (.svcObjRepair m id w ext, 0x0D06, objCtx s id == m), (.svcCopy m w v n ext, 0x0208, true),
        (.svcCntOffset m k x y, 0x0105, false), (.svcStayAlloc m n c x y, 0x0701, c == m),
        (.svcCollRegister m n w v 0 win ext, 0x0801, fget w.toNat KST_COLL_ID.CTX_ID == m)] : List (Instr × Nat × Bool)),
      CallGate q.1 s m q.2.1 q.2.2) ∧
    (∀ (n b : Nat) (u : State), takeRun s n = some (b, u) →
      runFree s b n = true ∧ u = { s with freeCtr := u.freeCtr }) ∧
    (∀ (id : Nat) (u : State), takeObj s = some (id, u) →
      0 < id ∧ id < 65536 ∧ id ∉ objIds s ∧ u = { s with freeCtr := u.freeCtr }) ∧
    (∀ (c kind pol n : Nat) (attr : BitVec 16) (rep : BitVec 64), rdy 0x0201 (c == m) →
      let i : Instr := .svcMemAlloc m c kind pol n attr rep
      let sound := s.held 1 = false ∧ c < 256 ∧ kind < 5 ∧ pol < 4 ∧ 0 < n ∧ n < 1048576 ∧ attr.toNat / 2 % 4 ≠ 3 ∧
        (pol = 0 → pinnedOf s c + n ≤ s.fld .CTX_POOL [c] CTX_POOL.RESERVE)
      let made (v : State) (b id : Nat) : State := setObjWord (setObjWord (setObjWord (setObjWord v id 1 rep) id 2 0) id 3 0)
        id 0 (objWord0 b n kind pol c)
      (¬ sound → Returns i s m 0x0E s []) ∧
      (sound → takeRun s n = none → Returns i s m 0x0E s []) ∧
      (∀ b u, sound → takeRun s n = some (b, u) → takeObj u = none → Returns i s m 0x0E s []) ∧
      (∀ b u id v, sound → takeRun s n = some (b, u) → takeObj u = some (id, v) →
        let pl := placeAll (made v b id) (newEntry (made v b id) c kind attr) pol ((List.range n).map (b + ·))
        (pl = .wait → exec i s = .next s) ∧
        (pl = .no → Returns i s m 0x0E s []) ∧
        (∀ w, pl = .ok w → contStarted w = false →
          Returns i s m 0 (setObjWord w id 2 (BitVec.ofNat 64 (resident w b n)))
            [BitVec.ofNat 64 id, BitVec.ofNat 64 (b * 2097152)]) ∧
        (∀ w, pl = .ok w → contStarted w = true → exec i s = .next (callDone w m none [])))) ∧
    (∀ id : Nat, rdy 0x0202 (objCtx s id == m) →
      let sound := s.held 1 = false ∧ id ≠ 0 ∧ id < 65536 ∧ objValid s id = true
      let ps := (ptPages s).filter (fun p => decide (objPage s id ≤ p) && decide (p < objPage s id + objPages s id))
      let gone := ps.foldl (fun v p => setEntry (recallPage v (peLoc (ptEntry v p)) (peFrame (ptEntry v p))) p
        (entPut (ptEntry v p) 0 0 0)) s
      (¬ sound → Returns (.svcMemFree m id) s m 0x0E s []) ∧
      (sound → (∃ p ∈ ps, peMoving (ptEntry s p) = true) → exec (.svcMemFree m id) s = .next s) ∧
      (sound → (∀ p ∈ ps, peMoving (ptEntry s p) = false) →
        Returns (.svcMemFree m id) s m 0 (plcRun (setObjWord gone id 0 (entPut (objWord gone id 0) 53 53 0))) [])) ∧
    (∀ (p : Nat) (attr : BitVec 16), rdy 0x0203 (peCtx (ptEntry s p) == m && attr.toNat / 256 == m) → let e := ptEntry s p
      let sound := p < 1048576 ∧ peValid e = true ∧ attr.getLsbD 0 = true
      (sound → Returns (.svcPageAttr m p attr) s m 0 (setEntry s p (entPut e 15 0 attr.toNat)) []) ∧
      (¬ sound → Returns (.svcPageAttr m p attr) s m 0x0E s [])) ∧
    (∀ (p : Nat) (cls : Bool), rdy 0x0204 (peCtx (ptEntry s p) == m) → let e := ptEntry s p
      let sound := p < 1048576 ∧ peValid e = true
      let r := recallPage s false (peFrame e)
      let i : Instr := .svcPageSetClass m p cls
      (¬ sound → Returns i s m 0x0E s []) ∧
      (sound → peMoving e = true → exec i s = .next s) ∧
      (sound → peMoving e = false → peLoc e = true → Returns i s m 0 (setEntry s p (entPut e 3 3 (b2n cls))) []) ∧
      (sound → peMoving e = false → peLoc e = false → frameErr r (peFrame e) = none →
        Returns i s m 0 (setEntry (recodeFrame r (peFrame e) cls) p (entPut e 3 3 (b2n cls))) []) ∧
      (∀ x, sound → peMoving e = false → peLoc e = false → frameErr r (peFrame e) = some x →
        exec i s = .next (callDone (consume r x) m none []))) ∧
    (∀ f n : Nat, rdy 0x0D05 false → let fs := (List.range n).map (f + ·)
      let u := { s with plc := { s.plc with raw := fs.foldl sins s.plc.raw } }
      let fits := (∀ x ∈ fs, x ∈ freeIn s (frameRegion s x)) ∧ reserveSum u ≤ poolCount u
      (s.held 1 = true → ∀ b, Returns (.svcRawReserve m f n b) s m 0x0E s []) ∧
      (s.held 1 = false → fits → Returns (.svcRawReserve m f n true) s m 0 u []) ∧
      (s.held 1 = false → ¬ fits → Returns (.svcRawReserve m f n true) s m 0x0E s []) ∧
      (s.held 1 = false → (∀ x ∈ fs, x ∈ s.plc.raw) → Returns (.svcRawReserve m f n false) s m 0
        (plcRun { s with plc := { s.plc with raw := fs.foldl sdel s.plc.raw } }) []) ∧
      (s.held 1 = false → (∃ x ∈ fs, x ∉ s.plc.raw) → Returns (.svcRawReserve m f n false) s m 0x0E s [])) ∧
    (∀ (id : Nat) (src : BitVec 64) (ext : Ext), rdy 0x0D06 (objCtx s id == m) →
      let a := if src = 0 then (objWord s id 1).toNat else src.toNat
      let sound := s.held 1 = false ∧ id ≠ 0 ∧ id < 65536 ∧ objValid s id = true ∧ a ≠ 0
      let i : Instr := .svcObjRepair m id src ext
      let r := repairAll s id a ext (List.range (objPages s id))
      (¬ sound → Returns i s m 0x0E s []) ∧
      (sound → r = none → exec i s = .next s) ∧
      (∀ u st, sound → r = some (u, st) → contStarted u = true → exec i s = .next (callDone u m none [])) ∧
      (∀ u st, sound → r = some (u, st) → contStarted u = false → st ≠ 0 → Returns i s m st s []) ∧
      (∀ u, sound → r = some (u, 0) → contStarted u = false → Returns i s m 0
        (setObjWord (setObjWord u id 0 (entPut (objWord u id 0) 54 54 0)) id 2
          (BitVec.ofNat 64 (resident u (objPage u id) (objPages u id)))) [])) ∧
    (∀ (dst src : BitVec 64) (n : Nat) (ext : Ext), rdy 0x0208 true →
      let i : Instr := .svcCopy m dst src n ext
      let q : Rq := if m < 256 then .eng m unitSvc else .core 0
      let r := copyRead s q src n ext
      (r = .wait → exec i s = .next s) ∧
      (∀ u, r = .cont u → exec i s = .next (callDone u m none [])) ∧
      (∀ u bs st, r = .got u bs st → copyWrite u q dst bs st ext = none → exec i s = .next s) ∧
      (∀ u bs st v x, r = .got u bs st → copyWrite u q dst bs st ext = some (v, x) →
        (contStarted v = true → exec i s = .next (callDone v m none [])) ∧
        (contStarted v = false → x ≠ 0 → Returns i s m x v []) ∧
        (contStarted v = false → x = 0 → (∃ d, some (d, true) ∈ bs) → Returns i s m 4 v []) ∧
        (contStarted v = false → x = 0 → (∀ d, some (d, true) ∉ bs) → Returns i s m 0 v []))) ∧
    (∀ dest rt remote : Nat, rdy 0x0105 false → let sent := if dest < 32768 then staySend s 2 dest 0xF4 [] else none
      let i : Instr := .svcCntOffset m dest rt remote
      (sent = none → Returns i s m 3 s []) ∧
      (∀ u, sent = some u →
        let off : Int := (remote : Int) - ((u.kstFc - rt + u.kstFc) / 2 : Nat)
        let drift : BitVec 64 := match mfind u.kst.offs dest with
          | some (fc, o) => if fc = u.kstFc then Config.freeValue u.freeCtr else Config.driftFormat (off - o) (u.kstFc - fc)
          | none => Config.freeValue u.freeCtr
        Returns i s m 0
          { u with freeCtr := u.freeCtr + 1, kst := { u.kst with offs := mins u.kst.offs dest (u.kstFc, off) } }
          [BitVec.ofInt 64 off, BitVec.ofNat 64 (rt / 2), drift])) ∧
    (∀ n c sc kc : Nat, rdy 0x0701 (c == m) → let i : Instr := .svcStayAlloc m n c sc kc
      let sound := n < 64 ∧ collValid s n = false ∧ sc ≤ 1024 ∧ kc ≤ 4096
      (¬ sound → Returns i s m 0x0E s []) ∧
      (sound → freeBase s 0 sc 1024 = none → Returns i s m 0x0E s []) ∧
      (∀ sb u kb v, sound → freeBase s 0 sc 1024 = some (sb, u) → freeBase u 8 kc 4096 = some (kb, v) →
        let w := winWord sb sc kb kc
        Returns i s m 0 (initWin (v.wr .KST_COLL_WIN [n] w) w) [BitVec.ofNat 64 w])) ∧
    (∀ (n : Nat) (id memb buf : BitVec 64) (win : Option (BitVec 64)) (ext : Ext), rdy 0x0801 (fget id.toNat KST_COLL_ID.CTX_ID == m) →
      let i : Instr := .svcCollRegister m n id memb buf win ext
      let u := match win with
        | some w => s.plain .KST_COLL_WIN [n] w.toNat
        | none => s
      let v := (u.plain .KST_COLL_MEMB [n] memb.toNat).plain .KST_COLL_BUF [n] buf.toNat
      let r := refusedBy v (collIdWrite v n (fput id.toNat KST_COLL_ID.VALID 1) ext)
      (64 ≤ n ∨ collValid s n = true → Returns i s m 0x0E s []) ∧
      (n < 64 → collValid s n = false → r = none → Returns i s m 0x0E s []) ∧
      (∀ w, n < 64 → collValid s n = false → r = some w → collValid w n = true → Returns i s m 0 w []) ∧
      (∀ w, n < 64 → collValid s n = false → r = some w → collValid w n = false → exec i s = .next s))

/-- O55. R28, R287, R294, R297, R340, R359, R367, R467, R470 to R476, R485: the calls on Span caches, Trestle rings, command rings,
settings, images and resets. -/
def Obligations.CallsOnUnits : Prop :=
  ∀ (s : State) (m : Nat),
    let rdy (code : Nat) (own : Bool) : Prop := (∃ d, CallReady s m code d) ∧ (m < 256 → own = true)
    let en (p : Nat) : Bool := s.bit .SPAN_CACHE_CTL [p] SPAN_CACHE_CTL.EN
    let rc (r : Nat) : Bool := s.fld .RING_CTL [r] RING_CTL.CTX_ID == m
    let mine (w : BitVec 64) (a len : Nat) : Bool := fget w.toNat SPAN_CMAINT_CTL.TARGET == 0 &&
      decide (a + len * 128 ≤ 0x20000000000) && (pagesOf a (len * 128)).all (fun p => peCtx (ptEntry s p) == m)
    (∀ (p r k a len st : Nat) (w x y : BitVec 64) (b c : Bool) (base : Option (BitVec 64)) (d : BitVec 512) (set : List ImgHdr),
      ∀ q ∈ ([(.svcCacheMaint m p w a len st, 0x0B01, mine w a len), (.svcSpanCacheDisable m p st, 0x0B02, false),
        (.svcSpanCacheEnable m p, 0x0B03, false), (.svcTrestlePost m p base d, 0x0D08, false),
        (.svcRingCreate m r x y w, 0x0E01, fget w.toNat RING_CTL.CTX_ID == m), (.svcRingDestroy m r, 0x0E02, rc r),
        (.svcDispatchAbort m r k, 0x0E03, rc r), (.svcSettingsStore m, 0x1301, false),
        (.svcImageWrite m k b c set, 0x1303, false), (.svcImageSelect m k, 0x1304, false), (.svcImageConfirm m, 0x1305, false),
        (.svcModReset m b, 0x1307, false), (.svcCastoff m, 0x1308, false)] : List (Instr × Nat × Bool)),
      CallGate q.1 s m q.2.1 q.2.2) ∧
    (∀ (p : Nat) (w : BitVec 64) (a len st : Nat), rdy 0x0B01 (mine w a len) → let i : Instr := .svcCacheMaint m p w a len st
      let r := cmaintOnce s p w.toNat a len st
      (8 ≤ p ∨ a % 128 ≠ 0 → Returns i s m 0x0E s []) ∧
      (p < 8 → a % 128 = 0 → r = none → exec i s = .next s) ∧
      (∀ u x, p < 8 → a % 128 = 0 → r = some (u, x) → Returns i s m x u [])) ∧
    (∀ p st : Nat, rdy 0x0B02 false → let i : Instr := .svcSpanCacheDisable m p st
      let quiet := ∀ k < 64, tileIdle s (p * 64 + k) = true ∨ s.tstate (p * 64 + k) = 7
      let r := cmaintOnce s p (allWays 3) 0 0 st
      (8 ≤ p → Returns i s m 0x0E s []) ∧
      (p < 8 → en p = false → Returns i s m 0 s []) ∧
      (p < 8 → en p = true → ¬ quiet → exec i s = .next s) ∧
      (p < 8 → en p = true → quiet → r = none → exec i s = .next s) ∧
      (∀ u x, p < 8 → en p = true → quiet → r = some (u, x) → ∃ v, Returns i s m x v [] ∧
        v.fld .SPAN_CACHE_CTL [p] SPAN_CACHE_CTL.EN = 0 ∧ v = { u with regs := v.regs } ∧
        RegsKept [regAddr .SPAN_CACHE_CTL [p], regAddr .SPAN_CACHE_STAT [p]] u v)) ∧
    (∀ p : Nat, rdy 0x0B03 false → let i : Instr := .svcSpanCacheEnable m p
      let r := cmaintOnce s p (allWays 2) 0 0 0
      (8 ≤ p → Returns i s m 0x0E s []) ∧
      (p < 8 → en p = true → Returns i s m 0 s []) ∧
      (p < 8 → en p = false → r = none → exec i s = .next s) ∧
      (∀ u x, p < 8 → en p = false → r = some (u, x) → Returns i s m x (u.setFld .SPAN_CACHE_CTL [p] SPAN_CACHE_CTL.EN 1) [])) ∧
    (∀ (p : Nat) (base : Option (BitVec 64)) (d : BitVec 512), rdy 0x0D08 false → let i : Instr := .svcTrestlePost m p base d
      let ring : Option State := match base with
        | none => some s
        | some w => (refusedBy s (trBaseWrite s p w.toNat)).bind (fun u =>
            refusedBy u (trCtlWrite u p (fput (fput 0 TR_CTL.EN 1) TR_CTL.GO 1)))
      (ring = none → Returns i s m 0x0E s []) ∧
      (∀ u, ring = some u → let x := u.trs p
        let size := trSize u p
        let room := p < 8 ∧ s.held 2 = false ∧ u.bit .TR_CTL [p] TR_CTL.EN = true ∧ x.posted - x.started + 1 < size
        let v : BitVec 512 := BitVec.ofNat 512 (fput d.toNat ⟨63, 56⟩ (x.posted % 256))
        let at' := u.fld .TR_Q_BASE [p] LAT_Q_BASE.BASE * 64 + x.tail % size * 64
        (¬ room → Returns i s m 0x0E s []) ∧
        (room → Returns i s m 0 (trDbWrite (fwWriteBytes u at' ((List.range 64).map (fun k => v.extractLsb' (8 * k) 8))) p
          (fput 0 LAT_DB.TAIL ((x.tail + 1) % size))) []))) ∧
    (∀ (r : Nat) (base cpl ctl : BitVec 64), rdy 0x0E01 (fget ctl.toNat RING_CTL.CTX_ID == m) → let i : Instr := .svcRingCreate m r base cpl ctl
      let wr (v : State) (g : RegId) (w : Nat) : Option State := regWrote v g [r] w
      let made := (wr s .RING_BASE base.toNat).bind (fun u => (wr u .RING_CPL cpl.toNat).bind (fun v =>
        wr v .RING_CTL (fput ctl.toNat RING_CTL.EN 1)))
      (4096 ≤ r ∨ s.bit .RING_CTL [r] RING_CTL.EN = true → Returns i s m 0x0E s []) ∧
      (r < 4096 → s.bit .RING_CTL [r] RING_CTL.EN = false → made = none → Returns i s m 0x0E s []) ∧
      (∀ u, r < 4096 → s.bit .RING_CTL [r] RING_CTL.EN = false → made = some u → Returns i s m 0 u [])) ∧
    (∀ r : Nat, rdy 0x0E02 (rc r) → let w := fput (effWrite (regInfo .RING_CTL).flds (s.rd .RING_CTL [r]) 0 64 0) RING_CTL.EN 0
      (4096 ≤ r ∨ ringRuns s r = true → Returns (.svcRingDestroy m r) s m 0x0E s []) ∧
      (r < 4096 → ringRuns s r = false → regWrote s .RING_CTL [r] w = none → Returns (.svcRingDestroy m r) s m 0x0E s []) ∧
      (∀ u, r < 4096 → ringRuns s r = false → regWrote s .RING_CTL [r] w = some u →
        Returns (.svcRingDestroy m r) s m 0 u [])) ∧
    (∀ r seq : Nat, rdy 0x0E03 (rc r) →
      (4096 ≤ r → Returns (.svcDispatchAbort m r seq) s m 0x0E s []) ∧
      (r < 4096 → seq < 2 ^ 32 → Returns (.svcDispatchAbort m r seq) s m (abortSeq s r seq).2
        (skipRecorded 4096 (abortSeq s r seq).1 r) [])) ∧
    (rdy 0x1301 false → exec (.svcSettingsStore m) s =
      .next (callDone (storeAsk s (some m)).1 m (storeAsk s (some m)).2 [])) ∧
    (∀ (k : Nat) (first last : Bool) (set : List ImgHdr), rdy 0x1303 false → let i : Instr := .svcImageWrite m k first last set
      let boot (f : Fld) := s.fld .KST_BOOT_STAT [] f
      let noSet := boot KST_BOOT_STAT.STAGE = 15 ∧ boot KST_BOOT_STAT.RCVY_CAUSE = 1
      let sound := k < 2 ∧ (k ≠ boot KST_BOOT_STAT.SLOT ∨ noSet) ∧ (first = true ∨ s.bit .KST_SLOT [k] KST_SLOT.WRITING = true)
      let sl (v : State) (f : Fld) := v.fld .KST_SLOT [k] f
      let done := s.setFld .KST_SLOT [k] KST_SLOT.WRITING 0
      (¬ sound → Returns i s m 0x0E s []) ∧
      (sound → first = true → last = false → ∃ u, Returns i s m 0 u [] ∧ sl u KST_SLOT.WRITING = 1 ∧
        sl u KST_SLOT.READY = 0 ∧ sl u KST_SLOT.TRIAL = 0 ∧ sl u KST_SLOT.CONFIRMED = 0) ∧
      (sound → first = false → last = false → Returns i s m 0 s []) ∧
      (sound → first = false → last = true → setFits done set = true → ∃ u, Returns i s m 0 u [] ∧ sl u KST_SLOT.WRITING = 0 ∧
        sl u KST_SLOT.READY = 1 ∧ sl u KST_SLOT.FAIL_CNT = 0) ∧
      (sound → first = false → last = true → setFits done set = false →
        Returns i s m 0x0E done []) ∧
      (sound → first = true → last = true → setFits done set = true → ∃ u, Returns i s m 0 u [] ∧ sl u KST_SLOT.WRITING = 0 ∧
        sl u KST_SLOT.READY = 1 ∧ sl u KST_SLOT.FAIL_CNT = 0) ∧
      (sound → first = true → last = true → setFits done set = false → ∃ u, Returns i s m 0x0E u [] ∧
        sl u KST_SLOT.WRITING = 0 ∧ sl u KST_SLOT.READY = 0)) ∧
    (∀ k : Nat, rdy 0x1304 false →
      (k < 2 → slotReady s k = true → Returns (.svcImageSelect m k) s m 0 (slotSelect s k) []) ∧
      (2 ≤ k ∨ slotReady s k = false → Returns (.svcImageSelect m k) s m 0x0E s [])) ∧
    (rdy 0x1305 false → let open' := trialOpen s = true ∧ s.boot.event = 11
      (open' → Returns (.svcImageConfirm m) s m 0 (trialConfirm s) []) ∧
      (¬ open' → Returns (.svcImageConfirm m) s m 0x0E s [])) ∧
    (rdy 0x1307 false → Returns (.svcModReset m false) s m 0 (moduleReset s) [] ∧
      Returns (.svcModReset m true) s m 0 (moduleReset { s with boot := { s.boot with rcvy := true } }) []) ∧
    (rdy 0x1308 false → exec (.svcCastoff m) s = .next (callDone (castOffAsk s (some m)) m none []))

/-! Whole-machine rules. -/

/-- O56. R129: Register p0 always reads as all ones, and writes to it are ignored. No other register is fixed: every other
predicate register, every scalar and every vector register of a tile reads as what was last written to it. -/
def Obligations.PredicateZero : Prop :=
  ∀ x : Tile, x.p 0 = BitVec.allOnes 512 ∧ (∀ v, x.setP 0 v = x) ∧
    (∀ n v k, n ≠ 0 → (x.setP n v).p k = if k = n then v else x.p k) ∧
    (∀ n v k, (x.setS n v).s k = if k = n then v else x.s k) ∧
    (∀ n v k, (x.setV n v).v k = if k = n then v else x.v k)

/-- O57. R149: TILE_ENTRY, TILE_ARG, TILE_SAVE_BASE, TILE_IMEM_SRC and TILE_IMEM_LOAD are written only while the tile is IDLE
(0), SAVED (4) or LOST (7); other writes are discarded and logged. -/
def Obligations.TileSetupRegisters : Prop :=
  ∀ (s : State) (t who id a : Nat) (d : BitVec 64) (ext : Ext), s.live = true → t < 512 → a % 8 = 0 →
    ∀ r ∈ [RegId.TILE_ENTRY, .TILE_ARG, .TILE_SAVE_BASE, .TILE_IMEM_SRC, .TILE_IMEM_LOAD],
      regSel s.asm a = .reg r (tix t) →
      let eff := effWrite (regInfo r).flds (s.rd r (tix t)) d.toNat 0 63
      (s.tstate t ∉ [0, 4, 7] → exec (.registerWrite who id a 8 d ext) s = .next (discardReg s r (tix t))) ∧
      (s.tstate t ∈ [0, 4, 7] → tilePowered s t = true → s.bit .TILE_STAT (tix t) TILE_STAT.RESETTING = false →
        s.bit .TILE_IMEM_LOAD (tix t) TILE_IMEM_LOAD.BUSY = false →
        (r = .TILE_IMEM_LOAD → fget eff TILE_IMEM_LOAD.GO = 0) →
        exec (.registerWrite who id a 8 d ext) s = .next (s.plain r (tix t) eff))

/-- O58. R13, R25, R31, R41, R78, R128, R476: right after a cold reset no command waits, Cast-on stands at its first event with
KMH0 alone running and can go on, every mode but the power mode has its default, no policy is taken over, the module has no ID in force, every tile is IDLE, and every
byte memory is in its canonical form. -/
def Obligations.ResetState : Prop :=
  let s := State.reset
  s.pending = [] ∧ s.boot.event = 1 ∧ s.fld .KST_BOOT_STAT [] KST_BOOT_STAT.STAGE = 0 ∧
  s.fld .KST_HART_STAT [] KST_HART_STAT.RUN = 1 ∧ castOnGoes s = true ∧
  s.rd .KST_POLICY_OWN [] = 0 ∧ s.rd .KST_MOD_ID [] = 0 ∧ s.rd .KST_FC_CNT [] = 0 ∧ s.rd .CLX_STAY_CFG [] = 16 ∧
  (∀ c, c < 256 → s.rd .CTX_MODE [c] = 0) ∧
  (∀ t, t < 512 → s.tstate t = 0 ∧ s.rd .TILE_CTL (tix t) = 0 ∧ s.rd .TILE_EXC (tix t) = 0 ∧
    s.rd .TILE_FMT_FLAGS (tix t) = 0 ∧ s.rd .TILE_SR_SEED (tix t) = 0x9E3779B97F4A7C15 ∧ Memory.wf (s.tile t).mem = true) ∧
  (∀ r, r < 4096 → s.rd .RING_CTL [r] = 0) ∧
  (∀ p, p < 8 → s.rd .SPAN_CACHE_CTL [p] = 0 ∧ s.rd .TR_CTL [p] = 0 ∧ s.rd .TR_WIN [p] = 2) ∧
  s.mem.hbm = [] ∧ s.epochs = [] ∧ s.out = [] ∧ s.ras.log = []

/-- O59. R128, R129, R175: every instruction that works within its tile leaves the memory of every tile in its canonical form,
whatever its outcome. -/
def Obligations.TileMemoryStaysCanonical : Prop :=
  ∀ (s u : State) (t : Nat) (f : InsS) (g : InsV) (v : BitVec 64) (i : Instr),
    i ∈ ([.nop t f, .li t f v, .br t f, .jal t f, .jalr t f, .tcr t f, .vcmp t g, .vcvt t g, .vred t g, .vsplat t g, .vget t g,
        .vmov t g, .plogic t g, .vgather t g, .vscatter t g] : List Instr) ++
      scalarOps.map (fun p => p.1 t f) ++ elementOps.map (fun p => p.1 t g) ++ tableOps.map (fun p => p.1 t g) →
    (∀ k, Memory.wf (s.tile k).mem = true) → exec i s = .next u → ∀ k, Memory.wf (u.tile k).mem = true

/-- O60. R152, R153, R163 to R165, R180, R187, R189, R196, R198: every encoded instruction decodes to its fields, with its opcode
and word count, and every legal instruction word is the encoding of its fields. -/
def Obligations.InstructionWords : Prop :=
  (∀ (o : Nat) (f : InsS), o < 256 → decS (encS o f) = f ∧ opcOf (encS o f) = o ∧ w2Of (encS o f) = false) ∧
  (∀ f : InsS, decS (encLi f) = f ∧ opcOf (encLi f) = 0x0F ∧ w2Of (encLi f) = true) ∧
  (∀ (o : Nat) (f : InsV), o < 256 → decV (encV o f) = f ∧ opcOf (encV o f) = o ∧ w2Of (encV o f) = false) ∧
  (∀ f : InsMma, decMma (encMma f).1 (encMma f).2 = f ∧ opcOf (encMma f).1 = 0x80 ∧ w2Of (encMma f).1 = true) ∧
  (∀ f : InsDrain, decDrain (encDrain f).1 (encDrain f).2 = f ∧ opcOf (encDrain f).1 = 0x81 ∧ w2Of (encDrain f).1 = true) ∧
  (∀ f : InsMov, decMov (encMov f).1 (encMov f).2 = f ∧ opcOf (encMov f).1 = 0xC0 ∧ w2Of (encMov f).1 = true) ∧
  (∀ f : InsFence, decFence (encFence f) = f ∧ opcOf (encFence f) = 0xC1 ∧ w2Of (encFence f) = false) ∧
  (∀ (o : Nat) (f : InsRsv), o < 256 → decRsv (encRsv o f) = f ∧ opcOf (encRsv o f) = o ∧ w2Of (encRsv o f) = false) ∧
  (∀ (o : Nat) (f : InsStay), o < 256 → decStay (encStay o f) = f ∧ opcOf (encStay o f) = o ∧ w2Of (encStay o f) = false) ∧
  (∀ w0 w1 : BitVec 64, insnLegal w0 w1 = true →
    let o := opcOf w0
    (o ≤ 0x16 → o ≠ 0x0F → encS o (decS w0) = w0) ∧
    (o = 0x0F → encLi (decS w0) = w0) ∧
    (0x40 ≤ o → o ≤ 0x5A → encV o (decV w0) = w0) ∧
    (o = 0x80 → encMma (decMma w0 w1) = (w0, w1)) ∧
    (o = 0x81 → encDrain (decDrain w0 w1) = (w0, w1)) ∧
    (o = 0x82 → encAroll (w0.extractLsb' 12 4) = w0) ∧
    (o = 0xC0 → encMov (decMov w0 w1) = (w0, w1)) ∧
    (o = 0xC1 → encFence (decFence w0) = w0) ∧
    (o = 0xC2 ∨ o = 0xC3 → encRsv o (decRsv w0) = w0) ∧
    (o = 0xC4 → encEcut (w0.extractLsb' 9 3) (w0.extractLsb' 12 5) = w0) ∧
    (0xD0 ≤ o → o ≤ 0xD6 → encStay o (decStay w0) = w0))
end

