-- ==== Sys2Proof/Laws/Maps.lean ====
section
/-!
SUPPORT. Laws/Maps.lean: the laws of the sparse maps: what a read gives after a write, for every list, and that a
write keeps the canonical form.
-/

namespace Sys2Proof.Machine

theorem mfind_mdel_self {α : Type} (m : List (Nat × α)) (k : Nat) : mfind (mdel m k) k = none := by
  induction m with
  | nil => rfl
  | cons p r ih =>
    obtain ⟨j, v⟩ := p
    by_cases h : j = k
    · simp [mdel, h, ih]
    · simp [mdel, mfind, h, ih]

theorem mfind_mdel_ne {α : Type} (m : List (Nat × α)) {k j : Nat} (hjk : j ≠ k) :
    mfind (mdel m k) j = mfind m j := by
  induction m with
  | nil => rfl
  | cons p r ih =>
    obtain ⟨i, v⟩ := p
    by_cases h : i = k
    · have : ¬ i = j := fun e => hjk (e ▸ h)
      simp [mdel, mfind, h, ih, this, Ne.symm hjk]
    · simp [mdel, mfind, h, ih]

theorem mfind_mput_self {α : Type} (m : List (Nat × α)) (k : Nat) (x : α) (h : mfind m k = none) :
    mfind (mput m k x) k = some x := by
  induction m with
  | nil => simp [mput, mfind]
  | cons p r ih =>
    obtain ⟨j, v⟩ := p
    by_cases hj : j = k
    · simp [mfind, hj] at h
    · simp only [mfind, hj, if_false] at h
      by_cases hl : k < j
      · simp [mput, hl, mfind]
      · simp [mput, hl, mfind, hj, ih h]

theorem mfind_mput_ne {α : Type} (m : List (Nat × α)) {k j : Nat} (x : α) (hjk : j ≠ k) :
    mfind (mput m k x) j = mfind m j := by
  induction m with
  | nil => simp [mput, mfind, Ne.symm hjk]
  | cons p r ih =>
    obtain ⟨i, v⟩ := p
    by_cases hl : k < i
    · simp [mput, hl, mfind, Ne.symm hjk]
    · simp [mput, hl, mfind, ih]

@[simp] theorem mfind_mins_self {α : Type} (m : List (Nat × α)) (k : Nat) (x : α) :
    mfind (mins m k x) k = some x := mfind_mput_self _ _ _ (mfind_mdel_self _ _)

theorem mfind_mins_ne {α : Type} (m : List (Nat × α)) {k j : Nat} (x : α) (hjk : j ≠ k) :
    mfind (mins m k x) j = mfind m j := by
  rw [mins, mfind_mput_ne _ _ hjk, mfind_mdel_ne _ hjk]

theorem mget_eq {α : Type} (d : α) (m : List (Nat × α)) (k : Nat) : mget d m k = (mfind m k).getD d := by
  induction m with
  | nil => rfl
  | cons p r ih =>
    obtain ⟨j, v⟩ := p
    by_cases h : j = k <;> simp [mget, mfind, h, ih]

theorem mfind_mset_self {α : Type} [DecidableEq α] (d : α) (m : List (Nat × α)) (k : Nat) (x : α) :
    (mfind (mset d m k x) k).getD d = x := by
  unfold mset
  split
  · simp [mfind_mdel_self, *]
  · simp

theorem mfind_mset_ne {α : Type} [DecidableEq α] (d : α) (m : List (Nat × α)) {k j : Nat} (x : α) (hjk : j ≠ k) :
    mfind (mset d m k x) j = mfind m j := by
  unfold mset
  split
  · exact mfind_mdel_ne _ hjk
  · exact mfind_mins_ne _ _ hjk

@[simp] theorem mget_mset_self {α : Type} [DecidableEq α] (d : α) (m : List (Nat × α)) (k : Nat) (x : α) :
    mget d (mset d m k x) k = x := by
  rw [mget_eq, mfind_mset_self]

theorem mget_mset_ne {α : Type} [DecidableEq α] (d : α) (m : List (Nat × α)) {k j : Nat} (x : α) (hjk : j ≠ k) :
    mget d (mset d m k x) j = mget d m j := by
  rw [mget_eq, mget_eq, mfind_mset_ne _ _ _ hjk]

theorem mget_mset {α : Type} [DecidableEq α] (d : α) (m : List (Nat × α)) (k j : Nat) (x : α) :
    mget d (mset d m k x) j = if j = k then x else mget d m j := by
  by_cases h : j = k
  · subst h; simp
  · simp [h, mget_mset_ne _ _ _ h]

theorem mdel_mput {α : Type} (m : List (Nat × α)) (k : Nat) (x : α) (h : mfind m k = none) :
    mdel (mput m k x) k = m := by
  induction m with
  | nil => simp [mput, mdel]
  | cons p r ih =>
    obtain ⟨j, v⟩ := p
    by_cases hj : j = k
    · simp [mfind, hj] at h
    · simp only [mfind, hj, if_false] at h
      have hd : ∀ (l : List (Nat × α)), mfind l k = none → mdel l k = l := by
        intro l
        induction l with
        | nil => intro; rfl
        | cons q r ih =>
          obtain ⟨i, w⟩ := q
          intro hl
          by_cases hi : i = k
          · simp [mfind, hi] at hl
          · simp only [mfind, hi, if_false] at hl
            simp [mdel, hi, ih hl]
      by_cases hl : k < j
      · simp [mput, hl, mdel, hj, hd r h]
      · simp [mput, hl, mdel, hj, ih h]
theorem mdel_mdel {α : Type} (m : List (Nat × α)) (k : Nat) : mdel (mdel m k) k = mdel m k := by
  induction m with
  | nil => rfl
  | cons p r ih =>
    obtain ⟨j, v⟩ := p
    by_cases hj : j = k <;> simp [mdel, hj, ih]
theorem mset_mset {α : Type} [DecidableEq α] (d : α) (m : List (Nat × α)) (k : Nat) (x y : α) :
    mset d (mset d m k x) k y = mset d m k y := by
  have h : mdel (mset d m k x) k = mdel m k := by
    unfold mset
    split
    · exact mdel_mdel _ _
    · unfold mins; rw [mdel_mput _ _ _ (mfind_mdel_self _ _)]
  rw [show mset d (mset d m k x) k y = if y = d then mdel (mset d m k x) k else mput (mdel (mset d m k x) k) k y from rfl, h]
  rfl
/-! The canonical form. -/

theorem mwfFrom_mono {α : Type} [DecidableEq α] (d : α) {a b : Nat} (hab : a ≤ b) (m : List (Nat × α))
    (h : mwfFrom d b m = true) : mwfFrom d a m = true := by
  cases m with
  | nil => rfl
  | cons p r =>
    obtain ⟨j, v⟩ := p
    simp only [mwfFrom, Bool.and_eq_true, decide_eq_true_eq] at h ⊢
    exact ⟨⟨by omega, h.1.2⟩, h.2⟩

theorem mdel_of_below {α : Type} [DecidableEq α] (d : α) {k lo : Nat} (hk : k < lo) (m : List (Nat × α))
    (h : mwfFrom d lo m = true) : mdel m k = m := by
  induction m generalizing lo with
  | nil => rfl
  | cons p r ih =>
    obtain ⟨j, v⟩ := p
    simp only [mwfFrom, Bool.and_eq_true, decide_eq_true_eq] at h
    have : ¬ j = k := by omega
    simp [mdel, this, ih (lo := j + 1) (by omega) h.2]

theorem mwfFrom_mdel {α : Type} [DecidableEq α] (d : α) (lo k : Nat) (m : List (Nat × α))
    (h : mwfFrom d lo m = true) : mwfFrom d lo (mdel m k) = true := by
  induction m generalizing lo with
  | nil => rfl
  | cons p r ih =>
    obtain ⟨j, v⟩ := p
    simp only [mwfFrom, Bool.and_eq_true, decide_eq_true_eq] at h
    by_cases hj : j = k
    · simp only [mdel, hj, if_true]
      exact mwfFrom_mono d (by omega) _ (ih (lo := j + 1) h.2)
    · simp only [mdel, hj, if_false, mwfFrom, Bool.and_eq_true, decide_eq_true_eq]
      exact ⟨h.1, ih (lo := j + 1) h.2⟩

theorem mwfFrom_mput {α : Type} [DecidableEq α] (d : α) (lo k : Nat) (x : α) (m : List (Nat × α)) (hlo : lo ≤ k)
    (hx : x ≠ d) (h : mwfFrom d lo m = true) (hn : mfind m k = none) : mwfFrom d lo (mput m k x) = true := by
  induction m generalizing lo with
  | nil => simp [mput, mwfFrom, hlo, hx]
  | cons p r ih =>
    obtain ⟨j, v⟩ := p
    by_cases hj : j = k
    · simp [mfind, hj] at hn
    · simp only [mfind, hj, if_false] at hn
      simp only [mwfFrom, Bool.and_eq_true, decide_eq_true_eq] at h
      by_cases hl : k < j
      · simp only [mput, hl, if_true, mwfFrom, Bool.and_eq_true, decide_eq_true_eq]
        exact ⟨⟨hlo, hx⟩, ⟨by omega, h.1.2⟩, h.2⟩
      · simp only [mput, hl, if_false, mwfFrom, Bool.and_eq_true, decide_eq_true_eq]
        exact ⟨h.1, ih (lo := j + 1) (by omega) h.2 hn⟩

theorem mwfFrom_mset {α : Type} [DecidableEq α] (d : α) (lo k : Nat) (x : α) (m : List (Nat × α)) (hlo : lo ≤ k)
    (h : mwfFrom d lo m = true) : mwfFrom d lo (mset d m k x) = true := by
  unfold mset
  split
  · exact mwfFrom_mdel d lo k m h
  · exact mwfFrom_mput d lo k x _ hlo (by assumption) (mwfFrom_mdel d lo k m h) (mfind_mdel_self m k)

/-- Every write of a sparse map keeps its canonical form. -/
theorem mwf_mset {α : Type} [DecidableEq α] (d : α) (k : Nat) (x : α) (m : List (Nat × α)) (h : mwf d m = true) :
    mwf d (mset d m k x) = true := mwfFrom_mset d 0 k x m (Nat.zero_le _) h

/-- So does a write of consecutive bytes. -/
theorem mwf_mbytes (bs : List (BitVec 8)) (a : Nat) (m : List (Nat × BitVec 8)) (h : mwf 0 m = true) :
    mwf 0 (mbytes m a bs) = true := by
  induction bs generalizing a m with
  | nil => exact h
  | cons b r ih => exact ih (a + 1) _ (mwf_mset 0 a b m h)

/-- What a byte reads after consecutive bytes have been written. -/
theorem mget_mbytes (bs : List (BitVec 8)) (a k : Nat) (m : List (Nat × BitVec 8)) :
    mget 0 (mbytes m a bs) k = if a ≤ k ∧ k < a + bs.length then bs.getD (k - a) 0 else mget 0 m k := by
  induction bs generalizing a m with
  | nil =>
    have : ¬ (a ≤ k ∧ k < a + ([] : List (BitVec 8)).length) := by simp
    rw [if_neg this]; rfl
  | cons b r ih =>
    simp only [mbytes, ih, List.length_cons]
    by_cases h1 : a + 1 ≤ k ∧ k < a + 1 + r.length
    · have h2 : a ≤ k ∧ k < a + (r.length + 1) := by omega
      rw [if_pos h1, if_pos h2]
      have : k - a = (k - (a + 1)) + 1 := by omega
      rw [this]; simp
    · rw [if_neg h1, mget_mset]
      by_cases h3 : k = a
      · subst h3; simp
      · have h2 : ¬ (a ≤ k ∧ k < a + (r.length + 1)) := by omega
        rw [if_neg h3, if_neg h2]

end Sys2Proof.Machine
end

