-- ==== Sys2Proof/Laws/Regs.lean ====
section
/-!
SUPPORT. Laws/Regs.lean: what a register or a field reads after a write of it or of another register.
-/

namespace Sys2Proof.Machine

@[simp] theorem wr_asm (s : State) (r : RegId) (ix : List Nat) (v : Nat) : (s.wr r ix v).asm = s.asm := rfl

/-- A register reads what the hardware wrote, cut to 64 bits. -/
theorem rd_wr_self (s : State) (r : RegId) (ix : List Nat) (v : Nat) : (s.wr r ix v).rd r ix = v % 2 ^ 64 := by
  have h := mfind_mset_self ((regInfo r).rst s.asm ix) s.regs (regAddr r ix) (BitVec.ofNat 64 v)
  unfold State.rd State.wr
  generalize hm : mfind (mset ((regInfo r).rst s.asm ix) s.regs (regAddr r ix) (BitVec.ofNat 64 v)) (regAddr r ix) = o
    at h ⊢
  cases o with
  | none => simp only [Option.getD_none] at h; simp only [h, BitVec.toNat_ofNat]
  | some w => simp only [Option.getD_some] at h; simp only [h, BitVec.toNat_ofNat]

/-- A register at another address is not touched. -/
theorem rd_wr_ne (s : State) {r q : RegId} {ix jx : List Nat} (v : Nat) (h : regAddr q jx ≠ regAddr r ix) :
    (s.wr r ix v).rd q jx = s.rd q jx := by
  unfold State.rd State.wr
  simp only [mfind_mset_ne _ _ _ h]

/-- A register is always below 2^64. -/
theorem rd_lt (s : State) (r : RegId) (ix : List Nat) : s.rd r ix < 2 ^ 64 := by
  unfold State.rd
  split
  · exact BitVec.isLt _
  · exact BitVec.isLt _

/-! Fields of numbers. -/

theorem fget_lt (w : Nat) (f : Fld) : fget w f < 2 ^ (f.hi + 1 - f.lo) := Nat.mod_lt _ (Nat.two_pow_pos _)

theorem fput_testBit (w : Nat) (f : Fld) (v i : Nat) (h : f.lo ≤ f.hi + 1) :
    (fput w f v).testBit i =
      if f.lo ≤ i ∧ i ≤ f.hi then v.testBit (i - f.lo) else w.testBit i := by
  unfold fput
  have e1 : w % 2 ^ f.lo + v % 2 ^ (f.hi + 1 - f.lo) * 2 ^ f.lo + (w >>> (f.hi + 1)) * 2 ^ (f.hi + 1) =
      2 ^ (f.hi + 1) * (w >>> (f.hi + 1)) + (2 ^ f.lo * (v % 2 ^ (f.hi + 1 - f.lo)) + w % 2 ^ f.lo) := by
    rw [Nat.mul_comm (2 ^ (f.hi + 1)), Nat.mul_comm (2 ^ f.lo)]; omega
  have hlt : 2 ^ f.lo * (v % 2 ^ (f.hi + 1 - f.lo)) + w % 2 ^ f.lo < 2 ^ (f.hi + 1) := by
    have h1 : v % 2 ^ (f.hi + 1 - f.lo) < 2 ^ (f.hi + 1 - f.lo) := Nat.mod_lt _ (Nat.two_pow_pos _)
    have h2 : w % 2 ^ f.lo < 2 ^ f.lo := Nat.mod_lt _ (Nat.two_pow_pos _)
    have h3 : 2 ^ (f.hi + 1) = 2 ^ f.lo * 2 ^ (f.hi + 1 - f.lo) := by
      rw [← Nat.pow_add]; congr 1; omega
    rw [h3]
    calc 2 ^ f.lo * (v % 2 ^ (f.hi + 1 - f.lo)) + w % 2 ^ f.lo
        < 2 ^ f.lo * (v % 2 ^ (f.hi + 1 - f.lo)) + 2 ^ f.lo := by omega
      _ = 2 ^ f.lo * (v % 2 ^ (f.hi + 1 - f.lo) + 1) := by rw [Nat.mul_add, Nat.mul_one]
      _ ≤ 2 ^ f.lo * 2 ^ (f.hi + 1 - f.lo) := Nat.mul_le_mul_left _ h1
  rw [e1, Nat.testBit_two_pow_mul_add _ hlt]
  by_cases hi : i < f.hi + 1
  · rw [if_pos hi, Nat.testBit_two_pow_mul_add _ (Nat.mod_lt _ (Nat.two_pow_pos _))]
    by_cases hl : i < f.lo
    · have : ¬ (f.lo ≤ i ∧ i ≤ f.hi) := by omega
      rw [if_pos hl, if_neg this, Nat.testBit_mod_two_pow]
      simp [hl]
    · have : f.lo ≤ i ∧ i ≤ f.hi := by omega
      rw [if_neg hl, if_pos this, Nat.testBit_mod_two_pow]
      have : i - f.lo < f.hi + 1 - f.lo := by omega
      simp [this]
  · have : ¬ (f.lo ≤ i ∧ i ≤ f.hi) := by omega
    rw [if_neg hi, if_neg this, Nat.testBit_shiftRight]
    congr 1; omega

theorem fget_testBit (w : Nat) (f : Fld) (i : Nat) :
    (fget w f).testBit i = (decide (i < f.hi + 1 - f.lo) && w.testBit (f.lo + i)) := by
  unfold fget
  rw [Nat.testBit_mod_two_pow, Nat.testBit_shiftRight]

/-- A field reads what was put into it. -/
theorem fget_fput_self (w : Nat) (f : Fld) (v : Nat) (h : f.lo ≤ f.hi + 1) :
    fget (fput w f v) f = v % 2 ^ (f.hi + 1 - f.lo) := by
  apply Nat.eq_of_testBit_eq
  intro i
  rw [fget_testBit, Nat.testBit_mod_two_pow, fput_testBit _ _ _ _ h]
  by_cases hi : i < f.hi + 1 - f.lo
  · have : f.lo ≤ f.lo + i ∧ f.lo + i ≤ f.hi := by omega
    simp [hi, this]
  · simp [hi]

/-- A disjoint field is not touched. -/
theorem fget_fput_ne (w : Nat) (f g : Fld) (v : Nat) (h : f.lo ≤ f.hi + 1) (hd : g.hi < f.lo ∨ f.hi < g.lo) :
    fget (fput w f v) g = fget w g := by
  apply Nat.eq_of_testBit_eq
  intro i
  rw [fget_testBit, fget_testBit, fput_testBit _ _ _ _ h]
  by_cases hi : i < g.hi + 1 - g.lo
  · have : ¬ (f.lo ≤ g.lo + i ∧ g.lo + i ≤ f.hi) := by omega
    rw [if_neg this]
  · simp [hi]

theorem fput_lt (w : Nat) (f : Fld) (v : Nat) (h : f.lo ≤ f.hi + 1) (hf : f.hi < 64) (hw : w < 2 ^ 64) :
    fput w f v < 2 ^ 64 := by
  apply Nat.lt_pow_two_of_testBit
  intro i hi
  rw [fput_testBit _ _ _ _ h]
  have : ¬ (f.lo ≤ i ∧ i ≤ f.hi) := by omega
  rw [if_neg this]
  exact Nat.testBit_lt_two_pow (Nat.lt_of_lt_of_le hw (Nat.pow_le_pow_right (by omega) hi))

/-! Fields of registers. -/

@[simp] theorem setFld_asm (s : State) (r : RegId) (ix : List Nat) (f : Fld) (v : Nat) :
    (s.setFld r ix f v).asm = s.asm := rfl

theorem rd_setFld_self (s : State) (r : RegId) (ix : List Nat) (f : Fld) (v : Nat) (h : f.lo ≤ f.hi + 1)
    (hf : f.hi < 64) : (s.setFld r ix f v).rd r ix = fput (s.rd r ix) f v := by
  rw [State.setFld, rd_wr_self, Nat.mod_eq_of_lt (fput_lt _ _ _ h hf (rd_lt _ _ _))]

theorem rd_setFld_ne (s : State) {r q : RegId} {ix jx : List Nat} (f : Fld) (v : Nat)
    (h : regAddr q jx ≠ regAddr r ix) : (s.setFld r ix f v).rd q jx = s.rd q jx := rd_wr_ne _ _ h

/-- A field reads what the hardware put into it. -/
theorem fld_setFld_self (s : State) (r : RegId) (ix : List Nat) (f : Fld) (v : Nat) (h : f.lo ≤ f.hi + 1)
    (hf : f.hi < 64) : (s.setFld r ix f v).fld r ix f = v % 2 ^ (f.hi + 1 - f.lo) := by
  rw [State.fld, rd_setFld_self _ _ _ _ _ h hf, fget_fput_self _ _ _ h]

/-- A disjoint field of the same register is not touched. -/
theorem fld_setFld_other (s : State) (r : RegId) (ix : List Nat) (f g : Fld) (v : Nat) (h : f.lo ≤ f.hi + 1)
    (hf : f.hi < 64) (hd : g.hi < f.lo ∨ f.hi < g.lo) : (s.setFld r ix f v).fld r ix g = s.fld r ix g := by
  rw [State.fld, rd_setFld_self _ _ _ _ _ h hf, fget_fput_ne _ _ _ _ h hd, State.fld]

/-- A field of a register at another address is not touched. -/
theorem fld_setFld_ne (s : State) {r q : RegId} {ix jx : List Nat} (f g : Fld) (v : Nat)
    (h : regAddr q jx ≠ regAddr r ix) : (s.setFld r ix f v).fld q jx g = s.fld q jx g := by
  rw [State.fld, rd_setFld_ne _ _ _ h, State.fld]

theorem fld_wr_ne (s : State) {r q : RegId} {ix jx : List Nat} (g : Fld) (v : Nat)
    (h : regAddr q jx ≠ regAddr r ix) : (s.wr r ix v).fld q jx g = s.fld q jx g := by
  rw [State.fld, rd_wr_ne _ _ h, State.fld]

/-- A hardware write changes the list of registers alone, and there its own address alone. -/
theorem wr_regs (s : State) (r : RegId) (ix : List Nat) (v a : Nat) (h : a ≠ regAddr r ix) :
    mfind (s.wr r ix v).regs a = mfind s.regs a := mfind_mset_ne _ _ _ h

theorem setFld_regs (s : State) (r : RegId) (ix : List Nat) (f : Fld) (v a : Nat) (h : a ≠ regAddr r ix) :
    mfind (s.setFld r ix f v).regs a = mfind s.regs a := mfind_mset_ne _ _ _ h

end Sys2Proof.Machine
end

