-- ==== Sys2Proof/Laws/Frames.lean ====
section
/-!
SUPPORT. Laws/Frames.lean: the components of the state that the simple updates leave alone (true by rfl), and what
they do to a tile.
-/

namespace Sys2Proof.Machine

@[simp] theorem wr_pending (s : State) (r : RegId) (ix : List Nat) (v : Nat) :
    (s.wr r ix v).pending = s.pending := rfl
@[simp] theorem wr_freeCtr (s : State) (r : RegId) (ix : List Nat) (v : Nat) :
    (s.wr r ix v).freeCtr = s.freeCtr := rfl
@[simp] theorem wr_board (s : State) (r : RegId) (ix : List Nat) (v : Nat) :
    (s.wr r ix v).board = s.board := rfl
@[simp] theorem wr_clk (s : State) (r : RegId) (ix : List Nat) (v : Nat) :
    (s.wr r ix v).clk = s.clk := rfl
@[simp] theorem wr_ras (s : State) (r : RegId) (ix : List Nat) (v : Nat) :
    (s.wr r ix v).ras = s.ras := rfl
@[simp] theorem wr_tiles (s : State) (r : RegId) (ix : List Nat) (v : Nat) :
    (s.wr r ix v).tiles = s.tiles := rfl
@[simp] theorem wr_epochs (s : State) (r : RegId) (ix : List Nat) (v : Nat) :
    (s.wr r ix v).epochs = s.epochs := rfl
@[simp] theorem wr_out (s : State) (r : RegId) (ix : List Nat) (v : Nat) :
    (s.wr r ix v).out = s.out := rfl
@[simp] theorem wr_mem (s : State) (r : RegId) (ix : List Nat) (v : Nat) :
    (s.wr r ix v).mem = s.mem := rfl
@[simp] theorem wr_store (s : State) (r : RegId) (ix : List Nat) (v : Nat) :
    (s.wr r ix v).store = s.store := rfl
@[simp] theorem wr_stay (s : State) (r : RegId) (ix : List Nat) (v : Nat) :
    (s.wr r ix v).stay = s.stay := rfl
@[simp] theorem wr_gate (s : State) (r : RegId) (ix : List Nat) (v : Nat) :
    (s.wr r ix v).gate = s.gate := rfl
@[simp] theorem wr_lat (s : State) (r : RegId) (ix : List Nat) (v : Nat) :
    (s.wr r ix v).lat = s.lat := rfl
@[simp] theorem wr_hbmx (s : State) (r : RegId) (ix : List Nat) (v : Nat) :
    (s.wr r ix v).hbmx = s.hbmx := rfl
@[simp] theorem wr_plc (s : State) (r : RegId) (ix : List Nat) (v : Nat) :
    (s.wr r ix v).plc = s.plc := rfl
@[simp] theorem wr_tr (s : State) (r : RegId) (ix : List Nat) (v : Nat) :
    (s.wr r ix v).tr = s.tr := rfl
@[simp] theorem wr_q (s : State) (r : RegId) (ix : List Nat) (v : Nat) :
    (s.wr r ix v).q = s.q := rfl
@[simp] theorem wr_clc (s : State) (r : RegId) (ix : List Nat) (v : Nat) :
    (s.wr r ix v).clc = s.clc := rfl
@[simp] theorem wr_kst (s : State) (r : RegId) (ix : List Nat) (v : Nat) :
    (s.wr r ix v).kst = s.kst := rfl
@[simp] theorem wr_links (s : State) (r : RegId) (ix : List Nat) (v : Nat) :
    (s.wr r ix v).links = s.links := rfl
@[simp] theorem wr_pwr (s : State) (r : RegId) (ix : List Nat) (v : Nat) :
    (s.wr r ix v).pwr = s.pwr := rfl
@[simp] theorem wr_boot (s : State) (r : RegId) (ix : List Nat) (v : Nat) :
    (s.wr r ix v).boot = s.boot := rfl
@[simp] theorem setFld_pending (s : State) (r : RegId) (ix : List Nat) (f : Fld) (v : Nat) :
    (s.setFld r ix f v).pending = s.pending := rfl
@[simp] theorem setFld_freeCtr (s : State) (r : RegId) (ix : List Nat) (f : Fld) (v : Nat) :
    (s.setFld r ix f v).freeCtr = s.freeCtr := rfl
@[simp] theorem setFld_board (s : State) (r : RegId) (ix : List Nat) (f : Fld) (v : Nat) :
    (s.setFld r ix f v).board = s.board := rfl
@[simp] theorem setFld_clk (s : State) (r : RegId) (ix : List Nat) (f : Fld) (v : Nat) :
    (s.setFld r ix f v).clk = s.clk := rfl
@[simp] theorem setFld_ras (s : State) (r : RegId) (ix : List Nat) (f : Fld) (v : Nat) :
    (s.setFld r ix f v).ras = s.ras := rfl
@[simp] theorem setFld_tiles (s : State) (r : RegId) (ix : List Nat) (f : Fld) (v : Nat) :
    (s.setFld r ix f v).tiles = s.tiles := rfl
@[simp] theorem setFld_epochs (s : State) (r : RegId) (ix : List Nat) (f : Fld) (v : Nat) :
    (s.setFld r ix f v).epochs = s.epochs := rfl
@[simp] theorem setFld_out (s : State) (r : RegId) (ix : List Nat) (f : Fld) (v : Nat) :
    (s.setFld r ix f v).out = s.out := rfl
@[simp] theorem setFld_mem (s : State) (r : RegId) (ix : List Nat) (f : Fld) (v : Nat) :
    (s.setFld r ix f v).mem = s.mem := rfl
@[simp] theorem setFld_store (s : State) (r : RegId) (ix : List Nat) (f : Fld) (v : Nat) :
    (s.setFld r ix f v).store = s.store := rfl
@[simp] theorem setFld_stay (s : State) (r : RegId) (ix : List Nat) (f : Fld) (v : Nat) :
    (s.setFld r ix f v).stay = s.stay := rfl
@[simp] theorem setFld_gate (s : State) (r : RegId) (ix : List Nat) (f : Fld) (v : Nat) :
    (s.setFld r ix f v).gate = s.gate := rfl
@[simp] theorem setFld_lat (s : State) (r : RegId) (ix : List Nat) (f : Fld) (v : Nat) :
    (s.setFld r ix f v).lat = s.lat := rfl
@[simp] theorem setFld_hbmx (s : State) (r : RegId) (ix : List Nat) (f : Fld) (v : Nat) :
    (s.setFld r ix f v).hbmx = s.hbmx := rfl
@[simp] theorem setFld_plc (s : State) (r : RegId) (ix : List Nat) (f : Fld) (v : Nat) :
    (s.setFld r ix f v).plc = s.plc := rfl
@[simp] theorem setFld_tr (s : State) (r : RegId) (ix : List Nat) (f : Fld) (v : Nat) :
    (s.setFld r ix f v).tr = s.tr := rfl
@[simp] theorem setFld_q (s : State) (r : RegId) (ix : List Nat) (f : Fld) (v : Nat) :
    (s.setFld r ix f v).q = s.q := rfl
@[simp] theorem setFld_clc (s : State) (r : RegId) (ix : List Nat) (f : Fld) (v : Nat) :
    (s.setFld r ix f v).clc = s.clc := rfl
@[simp] theorem setFld_kst (s : State) (r : RegId) (ix : List Nat) (f : Fld) (v : Nat) :
    (s.setFld r ix f v).kst = s.kst := rfl
@[simp] theorem setFld_links (s : State) (r : RegId) (ix : List Nat) (f : Fld) (v : Nat) :
    (s.setFld r ix f v).links = s.links := rfl
@[simp] theorem setFld_pwr (s : State) (r : RegId) (ix : List Nat) (f : Fld) (v : Nat) :
    (s.setFld r ix f v).pwr = s.pwr := rfl
@[simp] theorem setFld_boot (s : State) (r : RegId) (ix : List Nat) (f : Fld) (v : Nat) :
    (s.setFld r ix f v).boot = s.boot := rfl
@[simp] theorem satInc_asm (s : State) (r : RegId) (ix : List Nat) (f : Fld) (v : Nat) :
    (s.satInc r ix f v).asm = s.asm := rfl
@[simp] theorem satInc_pending (s : State) (r : RegId) (ix : List Nat) (f : Fld) (v : Nat) :
    (s.satInc r ix f v).pending = s.pending := rfl
@[simp] theorem satInc_freeCtr (s : State) (r : RegId) (ix : List Nat) (f : Fld) (v : Nat) :
    (s.satInc r ix f v).freeCtr = s.freeCtr := rfl
@[simp] theorem satInc_board (s : State) (r : RegId) (ix : List Nat) (f : Fld) (v : Nat) :
    (s.satInc r ix f v).board = s.board := rfl
@[simp] theorem satInc_clk (s : State) (r : RegId) (ix : List Nat) (f : Fld) (v : Nat) :
    (s.satInc r ix f v).clk = s.clk := rfl
@[simp] theorem satInc_ras (s : State) (r : RegId) (ix : List Nat) (f : Fld) (v : Nat) :
    (s.satInc r ix f v).ras = s.ras := rfl
@[simp] theorem satInc_tiles (s : State) (r : RegId) (ix : List Nat) (f : Fld) (v : Nat) :
    (s.satInc r ix f v).tiles = s.tiles := rfl
@[simp] theorem satInc_epochs (s : State) (r : RegId) (ix : List Nat) (f : Fld) (v : Nat) :
    (s.satInc r ix f v).epochs = s.epochs := rfl
@[simp] theorem satInc_out (s : State) (r : RegId) (ix : List Nat) (f : Fld) (v : Nat) :
    (s.satInc r ix f v).out = s.out := rfl
@[simp] theorem satInc_mem (s : State) (r : RegId) (ix : List Nat) (f : Fld) (v : Nat) :
    (s.satInc r ix f v).mem = s.mem := rfl
@[simp] theorem satInc_store (s : State) (r : RegId) (ix : List Nat) (f : Fld) (v : Nat) :
    (s.satInc r ix f v).store = s.store := rfl
@[simp] theorem satInc_stay (s : State) (r : RegId) (ix : List Nat) (f : Fld) (v : Nat) :
    (s.satInc r ix f v).stay = s.stay := rfl
@[simp] theorem satInc_gate (s : State) (r : RegId) (ix : List Nat) (f : Fld) (v : Nat) :
    (s.satInc r ix f v).gate = s.gate := rfl
@[simp] theorem satInc_lat (s : State) (r : RegId) (ix : List Nat) (f : Fld) (v : Nat) :
    (s.satInc r ix f v).lat = s.lat := rfl
@[simp] theorem satInc_hbmx (s : State) (r : RegId) (ix : List Nat) (f : Fld) (v : Nat) :
    (s.satInc r ix f v).hbmx = s.hbmx := rfl
@[simp] theorem satInc_plc (s : State) (r : RegId) (ix : List Nat) (f : Fld) (v : Nat) :
    (s.satInc r ix f v).plc = s.plc := rfl
@[simp] theorem satInc_tr (s : State) (r : RegId) (ix : List Nat) (f : Fld) (v : Nat) :
    (s.satInc r ix f v).tr = s.tr := rfl
@[simp] theorem satInc_q (s : State) (r : RegId) (ix : List Nat) (f : Fld) (v : Nat) :
    (s.satInc r ix f v).q = s.q := rfl
@[simp] theorem satInc_clc (s : State) (r : RegId) (ix : List Nat) (f : Fld) (v : Nat) :
    (s.satInc r ix f v).clc = s.clc := rfl
@[simp] theorem satInc_kst (s : State) (r : RegId) (ix : List Nat) (f : Fld) (v : Nat) :
    (s.satInc r ix f v).kst = s.kst := rfl
@[simp] theorem satInc_links (s : State) (r : RegId) (ix : List Nat) (f : Fld) (v : Nat) :
    (s.satInc r ix f v).links = s.links := rfl
@[simp] theorem satInc_pwr (s : State) (r : RegId) (ix : List Nat) (f : Fld) (v : Nat) :
    (s.satInc r ix f v).pwr = s.pwr := rfl
@[simp] theorem satInc_boot (s : State) (r : RegId) (ix : List Nat) (f : Fld) (v : Nat) :
    (s.satInc r ix f v).boot = s.boot := rfl
@[simp] theorem wrapInc_asm (s : State) (r : RegId) (ix : List Nat) (f : Fld) (v : Nat) :
    (s.wrapInc r ix f v).asm = s.asm := rfl
@[simp] theorem wrapInc_pending (s : State) (r : RegId) (ix : List Nat) (f : Fld) (v : Nat) :
    (s.wrapInc r ix f v).pending = s.pending := rfl
@[simp] theorem wrapInc_freeCtr (s : State) (r : RegId) (ix : List Nat) (f : Fld) (v : Nat) :
    (s.wrapInc r ix f v).freeCtr = s.freeCtr := rfl
@[simp] theorem wrapInc_board (s : State) (r : RegId) (ix : List Nat) (f : Fld) (v : Nat) :
    (s.wrapInc r ix f v).board = s.board := rfl
@[simp] theorem wrapInc_clk (s : State) (r : RegId) (ix : List Nat) (f : Fld) (v : Nat) :
    (s.wrapInc r ix f v).clk = s.clk := rfl
@[simp] theorem wrapInc_ras (s : State) (r : RegId) (ix : List Nat) (f : Fld) (v : Nat) :
    (s.wrapInc r ix f v).ras = s.ras := rfl
@[simp] theorem wrapInc_tiles (s : State) (r : RegId) (ix : List Nat) (f : Fld) (v : Nat) :
    (s.wrapInc r ix f v).tiles = s.tiles := rfl
@[simp] theorem wrapInc_epochs (s : State) (r : RegId) (ix : List Nat) (f : Fld) (v : Nat) :
    (s.wrapInc r ix f v).epochs = s.epochs := rfl
@[simp] theorem wrapInc_out (s : State) (r : RegId) (ix : List Nat) (f : Fld) (v : Nat) :
    (s.wrapInc r ix f v).out = s.out := rfl
@[simp] theorem wrapInc_mem (s : State) (r : RegId) (ix : List Nat) (f : Fld) (v : Nat) :
    (s.wrapInc r ix f v).mem = s.mem := rfl
@[simp] theorem wrapInc_store (s : State) (r : RegId) (ix : List Nat) (f : Fld) (v : Nat) :
    (s.wrapInc r ix f v).store = s.store := rfl
@[simp] theorem wrapInc_stay (s : State) (r : RegId) (ix : List Nat) (f : Fld) (v : Nat) :
    (s.wrapInc r ix f v).stay = s.stay := rfl
@[simp] theorem wrapInc_gate (s : State) (r : RegId) (ix : List Nat) (f : Fld) (v : Nat) :
    (s.wrapInc r ix f v).gate = s.gate := rfl
@[simp] theorem wrapInc_lat (s : State) (r : RegId) (ix : List Nat) (f : Fld) (v : Nat) :
    (s.wrapInc r ix f v).lat = s.lat := rfl
@[simp] theorem wrapInc_hbmx (s : State) (r : RegId) (ix : List Nat) (f : Fld) (v : Nat) :
    (s.wrapInc r ix f v).hbmx = s.hbmx := rfl
@[simp] theorem wrapInc_plc (s : State) (r : RegId) (ix : List Nat) (f : Fld) (v : Nat) :
    (s.wrapInc r ix f v).plc = s.plc := rfl
@[simp] theorem wrapInc_tr (s : State) (r : RegId) (ix : List Nat) (f : Fld) (v : Nat) :
    (s.wrapInc r ix f v).tr = s.tr := rfl
@[simp] theorem wrapInc_q (s : State) (r : RegId) (ix : List Nat) (f : Fld) (v : Nat) :
    (s.wrapInc r ix f v).q = s.q := rfl
@[simp] theorem wrapInc_clc (s : State) (r : RegId) (ix : List Nat) (f : Fld) (v : Nat) :
    (s.wrapInc r ix f v).clc = s.clc := rfl
@[simp] theorem wrapInc_kst (s : State) (r : RegId) (ix : List Nat) (f : Fld) (v : Nat) :
    (s.wrapInc r ix f v).kst = s.kst := rfl
@[simp] theorem wrapInc_links (s : State) (r : RegId) (ix : List Nat) (f : Fld) (v : Nat) :
    (s.wrapInc r ix f v).links = s.links := rfl
@[simp] theorem wrapInc_pwr (s : State) (r : RegId) (ix : List Nat) (f : Fld) (v : Nat) :
    (s.wrapInc r ix f v).pwr = s.pwr := rfl
@[simp] theorem wrapInc_boot (s : State) (r : RegId) (ix : List Nat) (f : Fld) (v : Nat) :
    (s.wrapInc r ix f v).boot = s.boot := rfl
@[simp] theorem send_asm (s : State) (m : OutMsg) :
    (s.send m).asm = s.asm := rfl
@[simp] theorem send_pending (s : State) (m : OutMsg) :
    (s.send m).pending = s.pending := rfl
@[simp] theorem send_freeCtr (s : State) (m : OutMsg) :
    (s.send m).freeCtr = s.freeCtr := rfl
@[simp] theorem send_regs (s : State) (m : OutMsg) :
    (s.send m).regs = s.regs := rfl
@[simp] theorem send_board (s : State) (m : OutMsg) :
    (s.send m).board = s.board := rfl
@[simp] theorem send_clk (s : State) (m : OutMsg) :
    (s.send m).clk = s.clk := rfl
@[simp] theorem send_ras (s : State) (m : OutMsg) :
    (s.send m).ras = s.ras := rfl
@[simp] theorem send_tiles (s : State) (m : OutMsg) :
    (s.send m).tiles = s.tiles := rfl
@[simp] theorem send_epochs (s : State) (m : OutMsg) :
    (s.send m).epochs = s.epochs := rfl
@[simp] theorem send_mem (s : State) (m : OutMsg) :
    (s.send m).mem = s.mem := rfl
@[simp] theorem send_store (s : State) (m : OutMsg) :
    (s.send m).store = s.store := rfl
@[simp] theorem send_stay (s : State) (m : OutMsg) :
    (s.send m).stay = s.stay := rfl
@[simp] theorem send_gate (s : State) (m : OutMsg) :
    (s.send m).gate = s.gate := rfl
@[simp] theorem send_lat (s : State) (m : OutMsg) :
    (s.send m).lat = s.lat := rfl
@[simp] theorem send_hbmx (s : State) (m : OutMsg) :
    (s.send m).hbmx = s.hbmx := rfl
@[simp] theorem send_plc (s : State) (m : OutMsg) :
    (s.send m).plc = s.plc := rfl
@[simp] theorem send_tr (s : State) (m : OutMsg) :
    (s.send m).tr = s.tr := rfl
@[simp] theorem send_q (s : State) (m : OutMsg) :
    (s.send m).q = s.q := rfl
@[simp] theorem send_clc (s : State) (m : OutMsg) :
    (s.send m).clc = s.clc := rfl
@[simp] theorem send_kst (s : State) (m : OutMsg) :
    (s.send m).kst = s.kst := rfl
@[simp] theorem send_links (s : State) (m : OutMsg) :
    (s.send m).links = s.links := rfl
@[simp] theorem send_pwr (s : State) (m : OutMsg) :
    (s.send m).pwr = s.pwr := rfl
@[simp] theorem send_boot (s : State) (m : OutMsg) :
    (s.send m).boot = s.boot := rfl
@[simp] theorem setTile_asm (s : State) (t : Nat) (x : Tile) :
    (s.setTile t x).asm = s.asm := rfl
@[simp] theorem setTile_pending (s : State) (t : Nat) (x : Tile) :
    (s.setTile t x).pending = s.pending := rfl
@[simp] theorem setTile_freeCtr (s : State) (t : Nat) (x : Tile) :
    (s.setTile t x).freeCtr = s.freeCtr := rfl
@[simp] theorem setTile_regs (s : State) (t : Nat) (x : Tile) :
    (s.setTile t x).regs = s.regs := rfl
@[simp] theorem setTile_board (s : State) (t : Nat) (x : Tile) :
    (s.setTile t x).board = s.board := rfl
@[simp] theorem setTile_clk (s : State) (t : Nat) (x : Tile) :
    (s.setTile t x).clk = s.clk := rfl
@[simp] theorem setTile_ras (s : State) (t : Nat) (x : Tile) :
    (s.setTile t x).ras = s.ras := rfl
@[simp] theorem setTile_epochs (s : State) (t : Nat) (x : Tile) :
    (s.setTile t x).epochs = s.epochs := rfl
@[simp] theorem setTile_out (s : State) (t : Nat) (x : Tile) :
    (s.setTile t x).out = s.out := rfl
@[simp] theorem setTile_mem (s : State) (t : Nat) (x : Tile) :
    (s.setTile t x).mem = s.mem := rfl
@[simp] theorem setTile_store (s : State) (t : Nat) (x : Tile) :
    (s.setTile t x).store = s.store := rfl
@[simp] theorem setTile_stay (s : State) (t : Nat) (x : Tile) :
    (s.setTile t x).stay = s.stay := rfl
@[simp] theorem setTile_gate (s : State) (t : Nat) (x : Tile) :
    (s.setTile t x).gate = s.gate := rfl
@[simp] theorem setTile_lat (s : State) (t : Nat) (x : Tile) :
    (s.setTile t x).lat = s.lat := rfl
@[simp] theorem setTile_hbmx (s : State) (t : Nat) (x : Tile) :
    (s.setTile t x).hbmx = s.hbmx := rfl
@[simp] theorem setTile_plc (s : State) (t : Nat) (x : Tile) :
    (s.setTile t x).plc = s.plc := rfl
@[simp] theorem setTile_tr (s : State) (t : Nat) (x : Tile) :
    (s.setTile t x).tr = s.tr := rfl
@[simp] theorem setTile_q (s : State) (t : Nat) (x : Tile) :
    (s.setTile t x).q = s.q := rfl
@[simp] theorem setTile_clc (s : State) (t : Nat) (x : Tile) :
    (s.setTile t x).clc = s.clc := rfl
@[simp] theorem setTile_kst (s : State) (t : Nat) (x : Tile) :
    (s.setTile t x).kst = s.kst := rfl
@[simp] theorem setTile_links (s : State) (t : Nat) (x : Tile) :
    (s.setTile t x).links = s.links := rfl
@[simp] theorem setTile_pwr (s : State) (t : Nat) (x : Tile) :
    (s.setTile t x).pwr = s.pwr := rfl
@[simp] theorem setTile_boot (s : State) (t : Nat) (x : Tile) :
    (s.setTile t x).boot = s.boot := rfl
@[simp] theorem setFlags_asm (s : State) (t : Nat) (f : FFlags) :
    (s.setFlags t f).asm = s.asm := rfl
@[simp] theorem setFlags_pending (s : State) (t : Nat) (f : FFlags) :
    (s.setFlags t f).pending = s.pending := rfl
@[simp] theorem setFlags_freeCtr (s : State) (t : Nat) (f : FFlags) :
    (s.setFlags t f).freeCtr = s.freeCtr := rfl
@[simp] theorem setFlags_board (s : State) (t : Nat) (f : FFlags) :
    (s.setFlags t f).board = s.board := rfl
@[simp] theorem setFlags_clk (s : State) (t : Nat) (f : FFlags) :
    (s.setFlags t f).clk = s.clk := rfl
@[simp] theorem setFlags_ras (s : State) (t : Nat) (f : FFlags) :
    (s.setFlags t f).ras = s.ras := rfl
@[simp] theorem setFlags_tiles (s : State) (t : Nat) (f : FFlags) :
    (s.setFlags t f).tiles = s.tiles := rfl
@[simp] theorem setFlags_epochs (s : State) (t : Nat) (f : FFlags) :
    (s.setFlags t f).epochs = s.epochs := rfl
@[simp] theorem setFlags_out (s : State) (t : Nat) (f : FFlags) :
    (s.setFlags t f).out = s.out := rfl
@[simp] theorem setFlags_mem (s : State) (t : Nat) (f : FFlags) :
    (s.setFlags t f).mem = s.mem := rfl
@[simp] theorem setFlags_store (s : State) (t : Nat) (f : FFlags) :
    (s.setFlags t f).store = s.store := rfl
@[simp] theorem setFlags_stay (s : State) (t : Nat) (f : FFlags) :
    (s.setFlags t f).stay = s.stay := rfl
@[simp] theorem setFlags_gate (s : State) (t : Nat) (f : FFlags) :
    (s.setFlags t f).gate = s.gate := rfl
@[simp] theorem setFlags_lat (s : State) (t : Nat) (f : FFlags) :
    (s.setFlags t f).lat = s.lat := rfl
@[simp] theorem setFlags_hbmx (s : State) (t : Nat) (f : FFlags) :
    (s.setFlags t f).hbmx = s.hbmx := rfl
@[simp] theorem setFlags_plc (s : State) (t : Nat) (f : FFlags) :
    (s.setFlags t f).plc = s.plc := rfl
@[simp] theorem setFlags_tr (s : State) (t : Nat) (f : FFlags) :
    (s.setFlags t f).tr = s.tr := rfl
@[simp] theorem setFlags_q (s : State) (t : Nat) (f : FFlags) :
    (s.setFlags t f).q = s.q := rfl
@[simp] theorem setFlags_clc (s : State) (t : Nat) (f : FFlags) :
    (s.setFlags t f).clc = s.clc := rfl
@[simp] theorem setFlags_kst (s : State) (t : Nat) (f : FFlags) :
    (s.setFlags t f).kst = s.kst := rfl
@[simp] theorem setFlags_links (s : State) (t : Nat) (f : FFlags) :
    (s.setFlags t f).links = s.links := rfl
@[simp] theorem setFlags_pwr (s : State) (t : Nat) (f : FFlags) :
    (s.setFlags t f).pwr = s.pwr := rfl
@[simp] theorem setFlags_boot (s : State) (t : Nat) (f : FFlags) :
    (s.setFlags t f).boot = s.boot := rfl
@[simp] theorem setTstate_asm (s : State) (t st : Nat) :
    (s.setTstate t st).asm = s.asm := rfl
@[simp] theorem setTstate_pending (s : State) (t st : Nat) :
    (s.setTstate t st).pending = s.pending := rfl
@[simp] theorem setTstate_freeCtr (s : State) (t st : Nat) :
    (s.setTstate t st).freeCtr = s.freeCtr := rfl
@[simp] theorem setTstate_board (s : State) (t st : Nat) :
    (s.setTstate t st).board = s.board := rfl
@[simp] theorem setTstate_clk (s : State) (t st : Nat) :
    (s.setTstate t st).clk = s.clk := rfl
@[simp] theorem setTstate_ras (s : State) (t st : Nat) :
    (s.setTstate t st).ras = s.ras := rfl
@[simp] theorem setTstate_tiles (s : State) (t st : Nat) :
    (s.setTstate t st).tiles = s.tiles := rfl
@[simp] theorem setTstate_epochs (s : State) (t st : Nat) :
    (s.setTstate t st).epochs = s.epochs := rfl
@[simp] theorem setTstate_out (s : State) (t st : Nat) :
    (s.setTstate t st).out = s.out := rfl
@[simp] theorem setTstate_mem (s : State) (t st : Nat) :
    (s.setTstate t st).mem = s.mem := rfl
@[simp] theorem setTstate_store (s : State) (t st : Nat) :
    (s.setTstate t st).store = s.store := rfl
@[simp] theorem setTstate_stay (s : State) (t st : Nat) :
    (s.setTstate t st).stay = s.stay := rfl
@[simp] theorem setTstate_gate (s : State) (t st : Nat) :
    (s.setTstate t st).gate = s.gate := rfl
@[simp] theorem setTstate_lat (s : State) (t st : Nat) :
    (s.setTstate t st).lat = s.lat := rfl
@[simp] theorem setTstate_hbmx (s : State) (t st : Nat) :
    (s.setTstate t st).hbmx = s.hbmx := rfl
@[simp] theorem setTstate_plc (s : State) (t st : Nat) :
    (s.setTstate t st).plc = s.plc := rfl
@[simp] theorem setTstate_tr (s : State) (t st : Nat) :
    (s.setTstate t st).tr = s.tr := rfl
@[simp] theorem setTstate_q (s : State) (t st : Nat) :
    (s.setTstate t st).q = s.q := rfl
@[simp] theorem setTstate_clc (s : State) (t st : Nat) :
    (s.setTstate t st).clc = s.clc := rfl
@[simp] theorem setTstate_kst (s : State) (t st : Nat) :
    (s.setTstate t st).kst = s.kst := rfl
@[simp] theorem setTstate_links (s : State) (t st : Nat) :
    (s.setTstate t st).links = s.links := rfl
@[simp] theorem setTstate_pwr (s : State) (t st : Nat) :
    (s.setTstate t st).pwr = s.pwr := rfl
@[simp] theorem setTstate_boot (s : State) (t st : Nat) :
    (s.setTstate t st).boot = s.boot := rfl
@[simp] theorem popHead_asm (s : State) (t : Nat) (m : Strm) :
    (popHead s t m).asm = s.asm := rfl
@[simp] theorem popHead_pending (s : State) (t : Nat) (m : Strm) :
    (popHead s t m).pending = s.pending := rfl
@[simp] theorem popHead_freeCtr (s : State) (t : Nat) (m : Strm) :
    (popHead s t m).freeCtr = s.freeCtr := rfl
@[simp] theorem popHead_regs (s : State) (t : Nat) (m : Strm) :
    (popHead s t m).regs = s.regs := rfl
@[simp] theorem popHead_board (s : State) (t : Nat) (m : Strm) :
    (popHead s t m).board = s.board := rfl
@[simp] theorem popHead_clk (s : State) (t : Nat) (m : Strm) :
    (popHead s t m).clk = s.clk := rfl
@[simp] theorem popHead_ras (s : State) (t : Nat) (m : Strm) :
    (popHead s t m).ras = s.ras := rfl
@[simp] theorem popHead_epochs (s : State) (t : Nat) (m : Strm) :
    (popHead s t m).epochs = s.epochs := rfl
@[simp] theorem popHead_out (s : State) (t : Nat) (m : Strm) :
    (popHead s t m).out = s.out := rfl
@[simp] theorem popHead_mem (s : State) (t : Nat) (m : Strm) :
    (popHead s t m).mem = s.mem := rfl
@[simp] theorem popHead_store (s : State) (t : Nat) (m : Strm) :
    (popHead s t m).store = s.store := rfl
@[simp] theorem popHead_stay (s : State) (t : Nat) (m : Strm) :
    (popHead s t m).stay = s.stay := rfl
@[simp] theorem popHead_gate (s : State) (t : Nat) (m : Strm) :
    (popHead s t m).gate = s.gate := rfl
@[simp] theorem popHead_lat (s : State) (t : Nat) (m : Strm) :
    (popHead s t m).lat = s.lat := rfl
@[simp] theorem popHead_hbmx (s : State) (t : Nat) (m : Strm) :
    (popHead s t m).hbmx = s.hbmx := rfl
@[simp] theorem popHead_plc (s : State) (t : Nat) (m : Strm) :
    (popHead s t m).plc = s.plc := rfl
@[simp] theorem popHead_tr (s : State) (t : Nat) (m : Strm) :
    (popHead s t m).tr = s.tr := rfl
@[simp] theorem popHead_q (s : State) (t : Nat) (m : Strm) :
    (popHead s t m).q = s.q := rfl
@[simp] theorem popHead_clc (s : State) (t : Nat) (m : Strm) :
    (popHead s t m).clc = s.clc := rfl
@[simp] theorem popHead_kst (s : State) (t : Nat) (m : Strm) :
    (popHead s t m).kst = s.kst := rfl
@[simp] theorem popHead_links (s : State) (t : Nat) (m : Strm) :
    (popHead s t m).links = s.links := rfl
@[simp] theorem popHead_pwr (s : State) (t : Nat) (m : Strm) :
    (popHead s t m).pwr = s.pwr := rfl
@[simp] theorem popHead_boot (s : State) (t : Nat) (m : Strm) :
    (popHead s t m).boot = s.boot := rfl

@[simp] theorem tile_setTile_self (s : State) (t : Nat) (x : Tile) : (s.setTile t x).tile t = x := by
  simp [State.tile, State.setTile]

theorem tile_setTile_ne (s : State) {t k : Nat} (x : Tile) (h : k ≠ t) : (s.setTile t x).tile k = s.tile k := by
  simp [State.tile, State.setTile, mget_mset_ne _ _ _ h]

theorem tile_setTile (s : State) (t k : Nat) (x : Tile) :
    (s.setTile t x).tile k = if k = t then x else s.tile k := by
  by_cases h : k = t
  · subst h; simp
  · simp [h, tile_setTile_ne]

theorem setTile_setTile (s : State) (t : Nat) (x y : Tile) : (s.setTile t x).setTile t y = s.setTile t y := by
  simp [State.setTile, mset_mset]

theorem tile_congr {s u : State} (h : u.tiles = s.tiles) (t : Nat) : u.tile t = s.tile t := by
  simp [State.tile, h]

@[simp] theorem tile_wr (s : State) (r : RegId) (ix : List Nat) (v t : Nat) : (s.wr r ix v).tile t = s.tile t := rfl
@[simp] theorem tile_setFld (s : State) (r : RegId) (ix : List Nat) (f : Fld) (v t : Nat) :
    (s.setFld r ix f v).tile t = s.tile t := rfl
@[simp] theorem tile_satInc (s : State) (r : RegId) (ix : List Nat) (f : Fld) (v t : Nat) :
    (s.satInc r ix f v).tile t = s.tile t := rfl
@[simp] theorem tile_wrapInc (s : State) (r : RegId) (ix : List Nat) (f : Fld) (v t : Nat) :
    (s.wrapInc r ix f v).tile t = s.tile t := rfl
@[simp] theorem tile_send (s : State) (m : OutMsg) (t : Nat) : (s.send m).tile t = s.tile t := rfl
@[simp] theorem tile_setFlags (s : State) (k : Nat) (f : FFlags) (t : Nat) : (s.setFlags k f).tile t = s.tile t := rfl
@[simp] theorem rd_setTile (s : State) (t : Nat) (x : Tile) (r : RegId) (ix : List Nat) :
    (s.setTile t x).rd r ix = s.rd r ix := rfl
@[simp] theorem fld_setTile (s : State) (t : Nat) (x : Tile) (r : RegId) (ix : List Nat) (f : Fld) :
    (s.setTile t x).fld r ix f = s.fld r ix f := rfl

end Sys2Proof.Machine
end

