-- ==== Sys2Proof/Laws/State.lean ====
section
/-!
SUPPORT. Laws/State.lean: one lemma per field per update of the state (true by rfl), so that no later proof
unfolds a record update.
-/

namespace Sys2Proof.Machine

@[simp] theorem State.set_asm_asm (s : State) (x : Assembly) :
    ({ s with asm := x } : State).asm = x := rfl
@[simp] theorem State.set_asm_pending (s : State) (x : Assembly) :
    ({ s with asm := x } : State).pending = s.pending := rfl
@[simp] theorem State.set_asm_freeCtr (s : State) (x : Assembly) :
    ({ s with asm := x } : State).freeCtr = s.freeCtr := rfl
@[simp] theorem State.set_asm_regs (s : State) (x : Assembly) :
    ({ s with asm := x } : State).regs = s.regs := rfl
@[simp] theorem State.set_asm_board (s : State) (x : Assembly) :
    ({ s with asm := x } : State).board = s.board := rfl
@[simp] theorem State.set_asm_clk (s : State) (x : Assembly) :
    ({ s with asm := x } : State).clk = s.clk := rfl
@[simp] theorem State.set_asm_ras (s : State) (x : Assembly) :
    ({ s with asm := x } : State).ras = s.ras := rfl
@[simp] theorem State.set_asm_tiles (s : State) (x : Assembly) :
    ({ s with asm := x } : State).tiles = s.tiles := rfl
@[simp] theorem State.set_asm_epochs (s : State) (x : Assembly) :
    ({ s with asm := x } : State).epochs = s.epochs := rfl
@[simp] theorem State.set_asm_out (s : State) (x : Assembly) :
    ({ s with asm := x } : State).out = s.out := rfl
@[simp] theorem State.set_asm_mem (s : State) (x : Assembly) :
    ({ s with asm := x } : State).mem = s.mem := rfl
@[simp] theorem State.set_asm_store (s : State) (x : Assembly) :
    ({ s with asm := x } : State).store = s.store := rfl
@[simp] theorem State.set_asm_stay (s : State) (x : Assembly) :
    ({ s with asm := x } : State).stay = s.stay := rfl
@[simp] theorem State.set_asm_gate (s : State) (x : Assembly) :
    ({ s with asm := x } : State).gate = s.gate := rfl
@[simp] theorem State.set_asm_lat (s : State) (x : Assembly) :
    ({ s with asm := x } : State).lat = s.lat := rfl
@[simp] theorem State.set_asm_hbmx (s : State) (x : Assembly) :
    ({ s with asm := x } : State).hbmx = s.hbmx := rfl
@[simp] theorem State.set_asm_plc (s : State) (x : Assembly) :
    ({ s with asm := x } : State).plc = s.plc := rfl
@[simp] theorem State.set_asm_tr (s : State) (x : Assembly) :
    ({ s with asm := x } : State).tr = s.tr := rfl
@[simp] theorem State.set_asm_q (s : State) (x : Assembly) :
    ({ s with asm := x } : State).q = s.q := rfl
@[simp] theorem State.set_asm_clc (s : State) (x : Assembly) :
    ({ s with asm := x } : State).clc = s.clc := rfl
@[simp] theorem State.set_asm_kst (s : State) (x : Assembly) :
    ({ s with asm := x } : State).kst = s.kst := rfl
@[simp] theorem State.set_asm_links (s : State) (x : Assembly) :
    ({ s with asm := x } : State).links = s.links := rfl
@[simp] theorem State.set_asm_pwr (s : State) (x : Assembly) :
    ({ s with asm := x } : State).pwr = s.pwr := rfl
@[simp] theorem State.set_asm_boot (s : State) (x : Assembly) :
    ({ s with asm := x } : State).boot = s.boot := rfl
@[simp] theorem State.set_pending_asm (s : State) (x : List Instr) :
    ({ s with pending := x } : State).asm = s.asm := rfl
@[simp] theorem State.set_pending_pending (s : State) (x : List Instr) :
    ({ s with pending := x } : State).pending = x := rfl
@[simp] theorem State.set_pending_freeCtr (s : State) (x : List Instr) :
    ({ s with pending := x } : State).freeCtr = s.freeCtr := rfl
@[simp] theorem State.set_pending_regs (s : State) (x : List Instr) :
    ({ s with pending := x } : State).regs = s.regs := rfl
@[simp] theorem State.set_pending_board (s : State) (x : List Instr) :
    ({ s with pending := x } : State).board = s.board := rfl
@[simp] theorem State.set_pending_clk (s : State) (x : List Instr) :
    ({ s with pending := x } : State).clk = s.clk := rfl
@[simp] theorem State.set_pending_ras (s : State) (x : List Instr) :
    ({ s with pending := x } : State).ras = s.ras := rfl
@[simp] theorem State.set_pending_tiles (s : State) (x : List Instr) :
    ({ s with pending := x } : State).tiles = s.tiles := rfl
@[simp] theorem State.set_pending_epochs (s : State) (x : List Instr) :
    ({ s with pending := x } : State).epochs = s.epochs := rfl
@[simp] theorem State.set_pending_out (s : State) (x : List Instr) :
    ({ s with pending := x } : State).out = s.out := rfl
@[simp] theorem State.set_pending_mem (s : State) (x : List Instr) :
    ({ s with pending := x } : State).mem = s.mem := rfl
@[simp] theorem State.set_pending_store (s : State) (x : List Instr) :
    ({ s with pending := x } : State).store = s.store := rfl
@[simp] theorem State.set_pending_stay (s : State) (x : List Instr) :
    ({ s with pending := x } : State).stay = s.stay := rfl
@[simp] theorem State.set_pending_gate (s : State) (x : List Instr) :
    ({ s with pending := x } : State).gate = s.gate := rfl
@[simp] theorem State.set_pending_lat (s : State) (x : List Instr) :
    ({ s with pending := x } : State).lat = s.lat := rfl
@[simp] theorem State.set_pending_hbmx (s : State) (x : List Instr) :
    ({ s with pending := x } : State).hbmx = s.hbmx := rfl
@[simp] theorem State.set_pending_plc (s : State) (x : List Instr) :
    ({ s with pending := x } : State).plc = s.plc := rfl
@[simp] theorem State.set_pending_tr (s : State) (x : List Instr) :
    ({ s with pending := x } : State).tr = s.tr := rfl
@[simp] theorem State.set_pending_q (s : State) (x : List Instr) :
    ({ s with pending := x } : State).q = s.q := rfl
@[simp] theorem State.set_pending_clc (s : State) (x : List Instr) :
    ({ s with pending := x } : State).clc = s.clc := rfl
@[simp] theorem State.set_pending_kst (s : State) (x : List Instr) :
    ({ s with pending := x } : State).kst = s.kst := rfl
@[simp] theorem State.set_pending_links (s : State) (x : List Instr) :
    ({ s with pending := x } : State).links = s.links := rfl
@[simp] theorem State.set_pending_pwr (s : State) (x : List Instr) :
    ({ s with pending := x } : State).pwr = s.pwr := rfl
@[simp] theorem State.set_pending_boot (s : State) (x : List Instr) :
    ({ s with pending := x } : State).boot = s.boot := rfl
@[simp] theorem State.set_freeCtr_asm (s : State) (x : Nat) :
    ({ s with freeCtr := x } : State).asm = s.asm := rfl
@[simp] theorem State.set_freeCtr_pending (s : State) (x : Nat) :
    ({ s with freeCtr := x } : State).pending = s.pending := rfl
@[simp] theorem State.set_freeCtr_freeCtr (s : State) (x : Nat) :
    ({ s with freeCtr := x } : State).freeCtr = x := rfl
@[simp] theorem State.set_freeCtr_regs (s : State) (x : Nat) :
    ({ s with freeCtr := x } : State).regs = s.regs := rfl
@[simp] theorem State.set_freeCtr_board (s : State) (x : Nat) :
    ({ s with freeCtr := x } : State).board = s.board := rfl
@[simp] theorem State.set_freeCtr_clk (s : State) (x : Nat) :
    ({ s with freeCtr := x } : State).clk = s.clk := rfl
@[simp] theorem State.set_freeCtr_ras (s : State) (x : Nat) :
    ({ s with freeCtr := x } : State).ras = s.ras := rfl
@[simp] theorem State.set_freeCtr_tiles (s : State) (x : Nat) :
    ({ s with freeCtr := x } : State).tiles = s.tiles := rfl
@[simp] theorem State.set_freeCtr_epochs (s : State) (x : Nat) :
    ({ s with freeCtr := x } : State).epochs = s.epochs := rfl
@[simp] theorem State.set_freeCtr_out (s : State) (x : Nat) :
    ({ s with freeCtr := x } : State).out = s.out := rfl
@[simp] theorem State.set_freeCtr_mem (s : State) (x : Nat) :
    ({ s with freeCtr := x } : State).mem = s.mem := rfl
@[simp] theorem State.set_freeCtr_store (s : State) (x : Nat) :
    ({ s with freeCtr := x } : State).store = s.store := rfl
@[simp] theorem State.set_freeCtr_stay (s : State) (x : Nat) :
    ({ s with freeCtr := x } : State).stay = s.stay := rfl
@[simp] theorem State.set_freeCtr_gate (s : State) (x : Nat) :
    ({ s with freeCtr := x } : State).gate = s.gate := rfl
@[simp] theorem State.set_freeCtr_lat (s : State) (x : Nat) :
    ({ s with freeCtr := x } : State).lat = s.lat := rfl
@[simp] theorem State.set_freeCtr_hbmx (s : State) (x : Nat) :
    ({ s with freeCtr := x } : State).hbmx = s.hbmx := rfl
@[simp] theorem State.set_freeCtr_plc (s : State) (x : Nat) :
    ({ s with freeCtr := x } : State).plc = s.plc := rfl
@[simp] theorem State.set_freeCtr_tr (s : State) (x : Nat) :
    ({ s with freeCtr := x } : State).tr = s.tr := rfl
@[simp] theorem State.set_freeCtr_q (s : State) (x : Nat) :
    ({ s with freeCtr := x } : State).q = s.q := rfl
@[simp] theorem State.set_freeCtr_clc (s : State) (x : Nat) :
    ({ s with freeCtr := x } : State).clc = s.clc := rfl
@[simp] theorem State.set_freeCtr_kst (s : State) (x : Nat) :
    ({ s with freeCtr := x } : State).kst = s.kst := rfl
@[simp] theorem State.set_freeCtr_links (s : State) (x : Nat) :
    ({ s with freeCtr := x } : State).links = s.links := rfl
@[simp] theorem State.set_freeCtr_pwr (s : State) (x : Nat) :
    ({ s with freeCtr := x } : State).pwr = s.pwr := rfl
@[simp] theorem State.set_freeCtr_boot (s : State) (x : Nat) :
    ({ s with freeCtr := x } : State).boot = s.boot := rfl
@[simp] theorem State.set_regs_asm (s : State) (x : List (Nat × BitVec 64)) :
    ({ s with regs := x } : State).asm = s.asm := rfl
@[simp] theorem State.set_regs_pending (s : State) (x : List (Nat × BitVec 64)) :
    ({ s with regs := x } : State).pending = s.pending := rfl
@[simp] theorem State.set_regs_freeCtr (s : State) (x : List (Nat × BitVec 64)) :
    ({ s with regs := x } : State).freeCtr = s.freeCtr := rfl
@[simp] theorem State.set_regs_regs (s : State) (x : List (Nat × BitVec 64)) :
    ({ s with regs := x } : State).regs = x := rfl
@[simp] theorem State.set_regs_board (s : State) (x : List (Nat × BitVec 64)) :
    ({ s with regs := x } : State).board = s.board := rfl
@[simp] theorem State.set_regs_clk (s : State) (x : List (Nat × BitVec 64)) :
    ({ s with regs := x } : State).clk = s.clk := rfl
@[simp] theorem State.set_regs_ras (s : State) (x : List (Nat × BitVec 64)) :
    ({ s with regs := x } : State).ras = s.ras := rfl
@[simp] theorem State.set_regs_tiles (s : State) (x : List (Nat × BitVec 64)) :
    ({ s with regs := x } : State).tiles = s.tiles := rfl
@[simp] theorem State.set_regs_epochs (s : State) (x : List (Nat × BitVec 64)) :
    ({ s with regs := x } : State).epochs = s.epochs := rfl
@[simp] theorem State.set_regs_out (s : State) (x : List (Nat × BitVec 64)) :
    ({ s with regs := x } : State).out = s.out := rfl
@[simp] theorem State.set_regs_mem (s : State) (x : List (Nat × BitVec 64)) :
    ({ s with regs := x } : State).mem = s.mem := rfl
@[simp] theorem State.set_regs_store (s : State) (x : List (Nat × BitVec 64)) :
    ({ s with regs := x } : State).store = s.store := rfl
@[simp] theorem State.set_regs_stay (s : State) (x : List (Nat × BitVec 64)) :
    ({ s with regs := x } : State).stay = s.stay := rfl
@[simp] theorem State.set_regs_gate (s : State) (x : List (Nat × BitVec 64)) :
    ({ s with regs := x } : State).gate = s.gate := rfl
@[simp] theorem State.set_regs_lat (s : State) (x : List (Nat × BitVec 64)) :
    ({ s with regs := x } : State).lat = s.lat := rfl
@[simp] theorem State.set_regs_hbmx (s : State) (x : List (Nat × BitVec 64)) :
    ({ s with regs := x } : State).hbmx = s.hbmx := rfl
@[simp] theorem State.set_regs_plc (s : State) (x : List (Nat × BitVec 64)) :
    ({ s with regs := x } : State).plc = s.plc := rfl
@[simp] theorem State.set_regs_tr (s : State) (x : List (Nat × BitVec 64)) :
    ({ s with regs := x } : State).tr = s.tr := rfl
@[simp] theorem State.set_regs_q (s : State) (x : List (Nat × BitVec 64)) :
    ({ s with regs := x } : State).q = s.q := rfl
@[simp] theorem State.set_regs_clc (s : State) (x : List (Nat × BitVec 64)) :
    ({ s with regs := x } : State).clc = s.clc := rfl
@[simp] theorem State.set_regs_kst (s : State) (x : List (Nat × BitVec 64)) :
    ({ s with regs := x } : State).kst = s.kst := rfl
@[simp] theorem State.set_regs_links (s : State) (x : List (Nat × BitVec 64)) :
    ({ s with regs := x } : State).links = s.links := rfl
@[simp] theorem State.set_regs_pwr (s : State) (x : List (Nat × BitVec 64)) :
    ({ s with regs := x } : State).pwr = s.pwr := rfl
@[simp] theorem State.set_regs_boot (s : State) (x : List (Nat × BitVec 64)) :
    ({ s with regs := x } : State).boot = s.boot := rfl
@[simp] theorem State.set_board_asm (s : State) (x : Board) :
    ({ s with board := x } : State).asm = s.asm := rfl
@[simp] theorem State.set_board_pending (s : State) (x : Board) :
    ({ s with board := x } : State).pending = s.pending := rfl
@[simp] theorem State.set_board_freeCtr (s : State) (x : Board) :
    ({ s with board := x } : State).freeCtr = s.freeCtr := rfl
@[simp] theorem State.set_board_regs (s : State) (x : Board) :
    ({ s with board := x } : State).regs = s.regs := rfl
@[simp] theorem State.set_board_board (s : State) (x : Board) :
    ({ s with board := x } : State).board = x := rfl
@[simp] theorem State.set_board_clk (s : State) (x : Board) :
    ({ s with board := x } : State).clk = s.clk := rfl
@[simp] theorem State.set_board_ras (s : State) (x : Board) :
    ({ s with board := x } : State).ras = s.ras := rfl
@[simp] theorem State.set_board_tiles (s : State) (x : Board) :
    ({ s with board := x } : State).tiles = s.tiles := rfl
@[simp] theorem State.set_board_epochs (s : State) (x : Board) :
    ({ s with board := x } : State).epochs = s.epochs := rfl
@[simp] theorem State.set_board_out (s : State) (x : Board) :
    ({ s with board := x } : State).out = s.out := rfl
@[simp] theorem State.set_board_mem (s : State) (x : Board) :
    ({ s with board := x } : State).mem = s.mem := rfl
@[simp] theorem State.set_board_store (s : State) (x : Board) :
    ({ s with board := x } : State).store = s.store := rfl
@[simp] theorem State.set_board_stay (s : State) (x : Board) :
    ({ s with board := x } : State).stay = s.stay := rfl
@[simp] theorem State.set_board_gate (s : State) (x : Board) :
    ({ s with board := x } : State).gate = s.gate := rfl
@[simp] theorem State.set_board_lat (s : State) (x : Board) :
    ({ s with board := x } : State).lat = s.lat := rfl
@[simp] theorem State.set_board_hbmx (s : State) (x : Board) :
    ({ s with board := x } : State).hbmx = s.hbmx := rfl
@[simp] theorem State.set_board_plc (s : State) (x : Board) :
    ({ s with board := x } : State).plc = s.plc := rfl
@[simp] theorem State.set_board_tr (s : State) (x : Board) :
    ({ s with board := x } : State).tr = s.tr := rfl
@[simp] theorem State.set_board_q (s : State) (x : Board) :
    ({ s with board := x } : State).q = s.q := rfl
@[simp] theorem State.set_board_clc (s : State) (x : Board) :
    ({ s with board := x } : State).clc = s.clc := rfl
@[simp] theorem State.set_board_kst (s : State) (x : Board) :
    ({ s with board := x } : State).kst = s.kst := rfl
@[simp] theorem State.set_board_links (s : State) (x : Board) :
    ({ s with board := x } : State).links = s.links := rfl
@[simp] theorem State.set_board_pwr (s : State) (x : Board) :
    ({ s with board := x } : State).pwr = s.pwr := rfl
@[simp] theorem State.set_board_boot (s : State) (x : Board) :
    ({ s with board := x } : State).boot = s.boot := rfl
@[simp] theorem State.set_clk_asm (s : State) (x : Clk) :
    ({ s with clk := x } : State).asm = s.asm := rfl
@[simp] theorem State.set_clk_pending (s : State) (x : Clk) :
    ({ s with clk := x } : State).pending = s.pending := rfl
@[simp] theorem State.set_clk_freeCtr (s : State) (x : Clk) :
    ({ s with clk := x } : State).freeCtr = s.freeCtr := rfl
@[simp] theorem State.set_clk_regs (s : State) (x : Clk) :
    ({ s with clk := x } : State).regs = s.regs := rfl
@[simp] theorem State.set_clk_board (s : State) (x : Clk) :
    ({ s with clk := x } : State).board = s.board := rfl
@[simp] theorem State.set_clk_clk (s : State) (x : Clk) :
    ({ s with clk := x } : State).clk = x := rfl
@[simp] theorem State.set_clk_ras (s : State) (x : Clk) :
    ({ s with clk := x } : State).ras = s.ras := rfl
@[simp] theorem State.set_clk_tiles (s : State) (x : Clk) :
    ({ s with clk := x } : State).tiles = s.tiles := rfl
@[simp] theorem State.set_clk_epochs (s : State) (x : Clk) :
    ({ s with clk := x } : State).epochs = s.epochs := rfl
@[simp] theorem State.set_clk_out (s : State) (x : Clk) :
    ({ s with clk := x } : State).out = s.out := rfl
@[simp] theorem State.set_clk_mem (s : State) (x : Clk) :
    ({ s with clk := x } : State).mem = s.mem := rfl
@[simp] theorem State.set_clk_store (s : State) (x : Clk) :
    ({ s with clk := x } : State).store = s.store := rfl
@[simp] theorem State.set_clk_stay (s : State) (x : Clk) :
    ({ s with clk := x } : State).stay = s.stay := rfl
@[simp] theorem State.set_clk_gate (s : State) (x : Clk) :
    ({ s with clk := x } : State).gate = s.gate := rfl
@[simp] theorem State.set_clk_lat (s : State) (x : Clk) :
    ({ s with clk := x } : State).lat = s.lat := rfl
@[simp] theorem State.set_clk_hbmx (s : State) (x : Clk) :
    ({ s with clk := x } : State).hbmx = s.hbmx := rfl
@[simp] theorem State.set_clk_plc (s : State) (x : Clk) :
    ({ s with clk := x } : State).plc = s.plc := rfl
@[simp] theorem State.set_clk_tr (s : State) (x : Clk) :
    ({ s with clk := x } : State).tr = s.tr := rfl
@[simp] theorem State.set_clk_q (s : State) (x : Clk) :
    ({ s with clk := x } : State).q = s.q := rfl
@[simp] theorem State.set_clk_clc (s : State) (x : Clk) :
    ({ s with clk := x } : State).clc = s.clc := rfl
@[simp] theorem State.set_clk_kst (s : State) (x : Clk) :
    ({ s with clk := x } : State).kst = s.kst := rfl
@[simp] theorem State.set_clk_links (s : State) (x : Clk) :
    ({ s with clk := x } : State).links = s.links := rfl
@[simp] theorem State.set_clk_pwr (s : State) (x : Clk) :
    ({ s with clk := x } : State).pwr = s.pwr := rfl
@[simp] theorem State.set_clk_boot (s : State) (x : Clk) :
    ({ s with clk := x } : State).boot = s.boot := rfl
@[simp] theorem State.set_ras_asm (s : State) (x : Ras) :
    ({ s with ras := x } : State).asm = s.asm := rfl
@[simp] theorem State.set_ras_pending (s : State) (x : Ras) :
    ({ s with ras := x } : State).pending = s.pending := rfl
@[simp] theorem State.set_ras_freeCtr (s : State) (x : Ras) :
    ({ s with ras := x } : State).freeCtr = s.freeCtr := rfl
@[simp] theorem State.set_ras_regs (s : State) (x : Ras) :
    ({ s with ras := x } : State).regs = s.regs := rfl
@[simp] theorem State.set_ras_board (s : State) (x : Ras) :
    ({ s with ras := x } : State).board = s.board := rfl
@[simp] theorem State.set_ras_clk (s : State) (x : Ras) :
    ({ s with ras := x } : State).clk = s.clk := rfl
@[simp] theorem State.set_ras_ras (s : State) (x : Ras) :
    ({ s with ras := x } : State).ras = x := rfl
@[simp] theorem State.set_ras_tiles (s : State) (x : Ras) :
    ({ s with ras := x } : State).tiles = s.tiles := rfl
@[simp] theorem State.set_ras_epochs (s : State) (x : Ras) :
    ({ s with ras := x } : State).epochs = s.epochs := rfl
@[simp] theorem State.set_ras_out (s : State) (x : Ras) :
    ({ s with ras := x } : State).out = s.out := rfl
@[simp] theorem State.set_ras_mem (s : State) (x : Ras) :
    ({ s with ras := x } : State).mem = s.mem := rfl
@[simp] theorem State.set_ras_store (s : State) (x : Ras) :
    ({ s with ras := x } : State).store = s.store := rfl
@[simp] theorem State.set_ras_stay (s : State) (x : Ras) :
    ({ s with ras := x } : State).stay = s.stay := rfl
@[simp] theorem State.set_ras_gate (s : State) (x : Ras) :
    ({ s with ras := x } : State).gate = s.gate := rfl
@[simp] theorem State.set_ras_lat (s : State) (x : Ras) :
    ({ s with ras := x } : State).lat = s.lat := rfl
@[simp] theorem State.set_ras_hbmx (s : State) (x : Ras) :
    ({ s with ras := x } : State).hbmx = s.hbmx := rfl
@[simp] theorem State.set_ras_plc (s : State) (x : Ras) :
    ({ s with ras := x } : State).plc = s.plc := rfl
@[simp] theorem State.set_ras_tr (s : State) (x : Ras) :
    ({ s with ras := x } : State).tr = s.tr := rfl
@[simp] theorem State.set_ras_q (s : State) (x : Ras) :
    ({ s with ras := x } : State).q = s.q := rfl
@[simp] theorem State.set_ras_clc (s : State) (x : Ras) :
    ({ s with ras := x } : State).clc = s.clc := rfl
@[simp] theorem State.set_ras_kst (s : State) (x : Ras) :
    ({ s with ras := x } : State).kst = s.kst := rfl
@[simp] theorem State.set_ras_links (s : State) (x : Ras) :
    ({ s with ras := x } : State).links = s.links := rfl
@[simp] theorem State.set_ras_pwr (s : State) (x : Ras) :
    ({ s with ras := x } : State).pwr = s.pwr := rfl
@[simp] theorem State.set_ras_boot (s : State) (x : Ras) :
    ({ s with ras := x } : State).boot = s.boot := rfl
@[simp] theorem State.set_tiles_asm (s : State) (x : List (Nat × Tile)) :
    ({ s with tiles := x } : State).asm = s.asm := rfl
@[simp] theorem State.set_tiles_pending (s : State) (x : List (Nat × Tile)) :
    ({ s with tiles := x } : State).pending = s.pending := rfl
@[simp] theorem State.set_tiles_freeCtr (s : State) (x : List (Nat × Tile)) :
    ({ s with tiles := x } : State).freeCtr = s.freeCtr := rfl
@[simp] theorem State.set_tiles_regs (s : State) (x : List (Nat × Tile)) :
    ({ s with tiles := x } : State).regs = s.regs := rfl
@[simp] theorem State.set_tiles_board (s : State) (x : List (Nat × Tile)) :
    ({ s with tiles := x } : State).board = s.board := rfl
@[simp] theorem State.set_tiles_clk (s : State) (x : List (Nat × Tile)) :
    ({ s with tiles := x } : State).clk = s.clk := rfl
@[simp] theorem State.set_tiles_ras (s : State) (x : List (Nat × Tile)) :
    ({ s with tiles := x } : State).ras = s.ras := rfl
@[simp] theorem State.set_tiles_tiles (s : State) (x : List (Nat × Tile)) :
    ({ s with tiles := x } : State).tiles = x := rfl
@[simp] theorem State.set_tiles_epochs (s : State) (x : List (Nat × Tile)) :
    ({ s with tiles := x } : State).epochs = s.epochs := rfl
@[simp] theorem State.set_tiles_out (s : State) (x : List (Nat × Tile)) :
    ({ s with tiles := x } : State).out = s.out := rfl
@[simp] theorem State.set_tiles_mem (s : State) (x : List (Nat × Tile)) :
    ({ s with tiles := x } : State).mem = s.mem := rfl
@[simp] theorem State.set_tiles_store (s : State) (x : List (Nat × Tile)) :
    ({ s with tiles := x } : State).store = s.store := rfl
@[simp] theorem State.set_tiles_stay (s : State) (x : List (Nat × Tile)) :
    ({ s with tiles := x } : State).stay = s.stay := rfl
@[simp] theorem State.set_tiles_gate (s : State) (x : List (Nat × Tile)) :
    ({ s with tiles := x } : State).gate = s.gate := rfl
@[simp] theorem State.set_tiles_lat (s : State) (x : List (Nat × Tile)) :
    ({ s with tiles := x } : State).lat = s.lat := rfl
@[simp] theorem State.set_tiles_hbmx (s : State) (x : List (Nat × Tile)) :
    ({ s with tiles := x } : State).hbmx = s.hbmx := rfl
@[simp] theorem State.set_tiles_plc (s : State) (x : List (Nat × Tile)) :
    ({ s with tiles := x } : State).plc = s.plc := rfl
@[simp] theorem State.set_tiles_tr (s : State) (x : List (Nat × Tile)) :
    ({ s with tiles := x } : State).tr = s.tr := rfl
@[simp] theorem State.set_tiles_q (s : State) (x : List (Nat × Tile)) :
    ({ s with tiles := x } : State).q = s.q := rfl
@[simp] theorem State.set_tiles_clc (s : State) (x : List (Nat × Tile)) :
    ({ s with tiles := x } : State).clc = s.clc := rfl
@[simp] theorem State.set_tiles_kst (s : State) (x : List (Nat × Tile)) :
    ({ s with tiles := x } : State).kst = s.kst := rfl
@[simp] theorem State.set_tiles_links (s : State) (x : List (Nat × Tile)) :
    ({ s with tiles := x } : State).links = s.links := rfl
@[simp] theorem State.set_tiles_pwr (s : State) (x : List (Nat × Tile)) :
    ({ s with tiles := x } : State).pwr = s.pwr := rfl
@[simp] theorem State.set_tiles_boot (s : State) (x : List (Nat × Tile)) :
    ({ s with tiles := x } : State).boot = s.boot := rfl
@[simp] theorem State.set_epochs_asm (s : State) (x : List Epoch) :
    ({ s with epochs := x } : State).asm = s.asm := rfl
@[simp] theorem State.set_epochs_pending (s : State) (x : List Epoch) :
    ({ s with epochs := x } : State).pending = s.pending := rfl
@[simp] theorem State.set_epochs_freeCtr (s : State) (x : List Epoch) :
    ({ s with epochs := x } : State).freeCtr = s.freeCtr := rfl
@[simp] theorem State.set_epochs_regs (s : State) (x : List Epoch) :
    ({ s with epochs := x } : State).regs = s.regs := rfl
@[simp] theorem State.set_epochs_board (s : State) (x : List Epoch) :
    ({ s with epochs := x } : State).board = s.board := rfl
@[simp] theorem State.set_epochs_clk (s : State) (x : List Epoch) :
    ({ s with epochs := x } : State).clk = s.clk := rfl
@[simp] theorem State.set_epochs_ras (s : State) (x : List Epoch) :
    ({ s with epochs := x } : State).ras = s.ras := rfl
@[simp] theorem State.set_epochs_tiles (s : State) (x : List Epoch) :
    ({ s with epochs := x } : State).tiles = s.tiles := rfl
@[simp] theorem State.set_epochs_epochs (s : State) (x : List Epoch) :
    ({ s with epochs := x } : State).epochs = x := rfl
@[simp] theorem State.set_epochs_out (s : State) (x : List Epoch) :
    ({ s with epochs := x } : State).out = s.out := rfl
@[simp] theorem State.set_epochs_mem (s : State) (x : List Epoch) :
    ({ s with epochs := x } : State).mem = s.mem := rfl
@[simp] theorem State.set_epochs_store (s : State) (x : List Epoch) :
    ({ s with epochs := x } : State).store = s.store := rfl
@[simp] theorem State.set_epochs_stay (s : State) (x : List Epoch) :
    ({ s with epochs := x } : State).stay = s.stay := rfl
@[simp] theorem State.set_epochs_gate (s : State) (x : List Epoch) :
    ({ s with epochs := x } : State).gate = s.gate := rfl
@[simp] theorem State.set_epochs_lat (s : State) (x : List Epoch) :
    ({ s with epochs := x } : State).lat = s.lat := rfl
@[simp] theorem State.set_epochs_hbmx (s : State) (x : List Epoch) :
    ({ s with epochs := x } : State).hbmx = s.hbmx := rfl
@[simp] theorem State.set_epochs_plc (s : State) (x : List Epoch) :
    ({ s with epochs := x } : State).plc = s.plc := rfl
@[simp] theorem State.set_epochs_tr (s : State) (x : List Epoch) :
    ({ s with epochs := x } : State).tr = s.tr := rfl
@[simp] theorem State.set_epochs_q (s : State) (x : List Epoch) :
    ({ s with epochs := x } : State).q = s.q := rfl
@[simp] theorem State.set_epochs_clc (s : State) (x : List Epoch) :
    ({ s with epochs := x } : State).clc = s.clc := rfl
@[simp] theorem State.set_epochs_kst (s : State) (x : List Epoch) :
    ({ s with epochs := x } : State).kst = s.kst := rfl
@[simp] theorem State.set_epochs_links (s : State) (x : List Epoch) :
    ({ s with epochs := x } : State).links = s.links := rfl
@[simp] theorem State.set_epochs_pwr (s : State) (x : List Epoch) :
    ({ s with epochs := x } : State).pwr = s.pwr := rfl
@[simp] theorem State.set_epochs_boot (s : State) (x : List Epoch) :
    ({ s with epochs := x } : State).boot = s.boot := rfl
@[simp] theorem State.set_out_asm (s : State) (x : List OutMsg) :
    ({ s with out := x } : State).asm = s.asm := rfl
@[simp] theorem State.set_out_pending (s : State) (x : List OutMsg) :
    ({ s with out := x } : State).pending = s.pending := rfl
@[simp] theorem State.set_out_freeCtr (s : State) (x : List OutMsg) :
    ({ s with out := x } : State).freeCtr = s.freeCtr := rfl
@[simp] theorem State.set_out_regs (s : State) (x : List OutMsg) :
    ({ s with out := x } : State).regs = s.regs := rfl
@[simp] theorem State.set_out_board (s : State) (x : List OutMsg) :
    ({ s with out := x } : State).board = s.board := rfl
@[simp] theorem State.set_out_clk (s : State) (x : List OutMsg) :
    ({ s with out := x } : State).clk = s.clk := rfl
@[simp] theorem State.set_out_ras (s : State) (x : List OutMsg) :
    ({ s with out := x } : State).ras = s.ras := rfl
@[simp] theorem State.set_out_tiles (s : State) (x : List OutMsg) :
    ({ s with out := x } : State).tiles = s.tiles := rfl
@[simp] theorem State.set_out_epochs (s : State) (x : List OutMsg) :
    ({ s with out := x } : State).epochs = s.epochs := rfl
@[simp] theorem State.set_out_out (s : State) (x : List OutMsg) :
    ({ s with out := x } : State).out = x := rfl
@[simp] theorem State.set_out_mem (s : State) (x : List OutMsg) :
    ({ s with out := x } : State).mem = s.mem := rfl
@[simp] theorem State.set_out_store (s : State) (x : List OutMsg) :
    ({ s with out := x } : State).store = s.store := rfl
@[simp] theorem State.set_out_stay (s : State) (x : List OutMsg) :
    ({ s with out := x } : State).stay = s.stay := rfl
@[simp] theorem State.set_out_gate (s : State) (x : List OutMsg) :
    ({ s with out := x } : State).gate = s.gate := rfl
@[simp] theorem State.set_out_lat (s : State) (x : List OutMsg) :
    ({ s with out := x } : State).lat = s.lat := rfl
@[simp] theorem State.set_out_hbmx (s : State) (x : List OutMsg) :
    ({ s with out := x } : State).hbmx = s.hbmx := rfl
@[simp] theorem State.set_out_plc (s : State) (x : List OutMsg) :
    ({ s with out := x } : State).plc = s.plc := rfl
@[simp] theorem State.set_out_tr (s : State) (x : List OutMsg) :
    ({ s with out := x } : State).tr = s.tr := rfl
@[simp] theorem State.set_out_q (s : State) (x : List OutMsg) :
    ({ s with out := x } : State).q = s.q := rfl
@[simp] theorem State.set_out_clc (s : State) (x : List OutMsg) :
    ({ s with out := x } : State).clc = s.clc := rfl
@[simp] theorem State.set_out_kst (s : State) (x : List OutMsg) :
    ({ s with out := x } : State).kst = s.kst := rfl
@[simp] theorem State.set_out_links (s : State) (x : List OutMsg) :
    ({ s with out := x } : State).links = s.links := rfl
@[simp] theorem State.set_out_pwr (s : State) (x : List OutMsg) :
    ({ s with out := x } : State).pwr = s.pwr := rfl
@[simp] theorem State.set_out_boot (s : State) (x : List OutMsg) :
    ({ s with out := x } : State).boot = s.boot := rfl
@[simp] theorem State.set_mem_asm (s : State) (x : Mem) :
    ({ s with mem := x } : State).asm = s.asm := rfl
@[simp] theorem State.set_mem_pending (s : State) (x : Mem) :
    ({ s with mem := x } : State).pending = s.pending := rfl
@[simp] theorem State.set_mem_freeCtr (s : State) (x : Mem) :
    ({ s with mem := x } : State).freeCtr = s.freeCtr := rfl
@[simp] theorem State.set_mem_regs (s : State) (x : Mem) :
    ({ s with mem := x } : State).regs = s.regs := rfl
@[simp] theorem State.set_mem_board (s : State) (x : Mem) :
    ({ s with mem := x } : State).board = s.board := rfl
@[simp] theorem State.set_mem_clk (s : State) (x : Mem) :
    ({ s with mem := x } : State).clk = s.clk := rfl
@[simp] theorem State.set_mem_ras (s : State) (x : Mem) :
    ({ s with mem := x } : State).ras = s.ras := rfl
@[simp] theorem State.set_mem_tiles (s : State) (x : Mem) :
    ({ s with mem := x } : State).tiles = s.tiles := rfl
@[simp] theorem State.set_mem_epochs (s : State) (x : Mem) :
    ({ s with mem := x } : State).epochs = s.epochs := rfl
@[simp] theorem State.set_mem_out (s : State) (x : Mem) :
    ({ s with mem := x } : State).out = s.out := rfl
@[simp] theorem State.set_mem_mem (s : State) (x : Mem) :
    ({ s with mem := x } : State).mem = x := rfl
@[simp] theorem State.set_mem_store (s : State) (x : Mem) :
    ({ s with mem := x } : State).store = s.store := rfl
@[simp] theorem State.set_mem_stay (s : State) (x : Mem) :
    ({ s with mem := x } : State).stay = s.stay := rfl
@[simp] theorem State.set_mem_gate (s : State) (x : Mem) :
    ({ s with mem := x } : State).gate = s.gate := rfl
@[simp] theorem State.set_mem_lat (s : State) (x : Mem) :
    ({ s with mem := x } : State).lat = s.lat := rfl
@[simp] theorem State.set_mem_hbmx (s : State) (x : Mem) :
    ({ s with mem := x } : State).hbmx = s.hbmx := rfl
@[simp] theorem State.set_mem_plc (s : State) (x : Mem) :
    ({ s with mem := x } : State).plc = s.plc := rfl
@[simp] theorem State.set_mem_tr (s : State) (x : Mem) :
    ({ s with mem := x } : State).tr = s.tr := rfl
@[simp] theorem State.set_mem_q (s : State) (x : Mem) :
    ({ s with mem := x } : State).q = s.q := rfl
@[simp] theorem State.set_mem_clc (s : State) (x : Mem) :
    ({ s with mem := x } : State).clc = s.clc := rfl
@[simp] theorem State.set_mem_kst (s : State) (x : Mem) :
    ({ s with mem := x } : State).kst = s.kst := rfl
@[simp] theorem State.set_mem_links (s : State) (x : Mem) :
    ({ s with mem := x } : State).links = s.links := rfl
@[simp] theorem State.set_mem_pwr (s : State) (x : Mem) :
    ({ s with mem := x } : State).pwr = s.pwr := rfl
@[simp] theorem State.set_mem_boot (s : State) (x : Mem) :
    ({ s with mem := x } : State).boot = s.boot := rfl
@[simp] theorem State.set_store_asm (s : State) (x : List (Nat × BitVec 64)) :
    ({ s with store := x } : State).asm = s.asm := rfl
@[simp] theorem State.set_store_pending (s : State) (x : List (Nat × BitVec 64)) :
    ({ s with store := x } : State).pending = s.pending := rfl
@[simp] theorem State.set_store_freeCtr (s : State) (x : List (Nat × BitVec 64)) :
    ({ s with store := x } : State).freeCtr = s.freeCtr := rfl
@[simp] theorem State.set_store_regs (s : State) (x : List (Nat × BitVec 64)) :
    ({ s with store := x } : State).regs = s.regs := rfl
@[simp] theorem State.set_store_board (s : State) (x : List (Nat × BitVec 64)) :
    ({ s with store := x } : State).board = s.board := rfl
@[simp] theorem State.set_store_clk (s : State) (x : List (Nat × BitVec 64)) :
    ({ s with store := x } : State).clk = s.clk := rfl
@[simp] theorem State.set_store_ras (s : State) (x : List (Nat × BitVec 64)) :
    ({ s with store := x } : State).ras = s.ras := rfl
@[simp] theorem State.set_store_tiles (s : State) (x : List (Nat × BitVec 64)) :
    ({ s with store := x } : State).tiles = s.tiles := rfl
@[simp] theorem State.set_store_epochs (s : State) (x : List (Nat × BitVec 64)) :
    ({ s with store := x } : State).epochs = s.epochs := rfl
@[simp] theorem State.set_store_out (s : State) (x : List (Nat × BitVec 64)) :
    ({ s with store := x } : State).out = s.out := rfl
@[simp] theorem State.set_store_mem (s : State) (x : List (Nat × BitVec 64)) :
    ({ s with store := x } : State).mem = s.mem := rfl
@[simp] theorem State.set_store_store (s : State) (x : List (Nat × BitVec 64)) :
    ({ s with store := x } : State).store = x := rfl
@[simp] theorem State.set_store_stay (s : State) (x : List (Nat × BitVec 64)) :
    ({ s with store := x } : State).stay = s.stay := rfl
@[simp] theorem State.set_store_gate (s : State) (x : List (Nat × BitVec 64)) :
    ({ s with store := x } : State).gate = s.gate := rfl
@[simp] theorem State.set_store_lat (s : State) (x : List (Nat × BitVec 64)) :
    ({ s with store := x } : State).lat = s.lat := rfl
@[simp] theorem State.set_store_hbmx (s : State) (x : List (Nat × BitVec 64)) :
    ({ s with store := x } : State).hbmx = s.hbmx := rfl
@[simp] theorem State.set_store_plc (s : State) (x : List (Nat × BitVec 64)) :
    ({ s with store := x } : State).plc = s.plc := rfl
@[simp] theorem State.set_store_tr (s : State) (x : List (Nat × BitVec 64)) :
    ({ s with store := x } : State).tr = s.tr := rfl
@[simp] theorem State.set_store_q (s : State) (x : List (Nat × BitVec 64)) :
    ({ s with store := x } : State).q = s.q := rfl
@[simp] theorem State.set_store_clc (s : State) (x : List (Nat × BitVec 64)) :
    ({ s with store := x } : State).clc = s.clc := rfl
@[simp] theorem State.set_store_kst (s : State) (x : List (Nat × BitVec 64)) :
    ({ s with store := x } : State).kst = s.kst := rfl
@[simp] theorem State.set_store_links (s : State) (x : List (Nat × BitVec 64)) :
    ({ s with store := x } : State).links = s.links := rfl
@[simp] theorem State.set_store_pwr (s : State) (x : List (Nat × BitVec 64)) :
    ({ s with store := x } : State).pwr = s.pwr := rfl
@[simp] theorem State.set_store_boot (s : State) (x : List (Nat × BitVec 64)) :
    ({ s with store := x } : State).boot = s.boot := rfl
@[simp] theorem State.set_stay_asm (s : State) (x : StayNet) :
    ({ s with stay := x } : State).asm = s.asm := rfl
@[simp] theorem State.set_stay_pending (s : State) (x : StayNet) :
    ({ s with stay := x } : State).pending = s.pending := rfl
@[simp] theorem State.set_stay_freeCtr (s : State) (x : StayNet) :
    ({ s with stay := x } : State).freeCtr = s.freeCtr := rfl
@[simp] theorem State.set_stay_regs (s : State) (x : StayNet) :
    ({ s with stay := x } : State).regs = s.regs := rfl
@[simp] theorem State.set_stay_board (s : State) (x : StayNet) :
    ({ s with stay := x } : State).board = s.board := rfl
@[simp] theorem State.set_stay_clk (s : State) (x : StayNet) :
    ({ s with stay := x } : State).clk = s.clk := rfl
@[simp] theorem State.set_stay_ras (s : State) (x : StayNet) :
    ({ s with stay := x } : State).ras = s.ras := rfl
@[simp] theorem State.set_stay_tiles (s : State) (x : StayNet) :
    ({ s with stay := x } : State).tiles = s.tiles := rfl
@[simp] theorem State.set_stay_epochs (s : State) (x : StayNet) :
    ({ s with stay := x } : State).epochs = s.epochs := rfl
@[simp] theorem State.set_stay_out (s : State) (x : StayNet) :
    ({ s with stay := x } : State).out = s.out := rfl
@[simp] theorem State.set_stay_mem (s : State) (x : StayNet) :
    ({ s with stay := x } : State).mem = s.mem := rfl
@[simp] theorem State.set_stay_store (s : State) (x : StayNet) :
    ({ s with stay := x } : State).store = s.store := rfl
@[simp] theorem State.set_stay_stay (s : State) (x : StayNet) :
    ({ s with stay := x } : State).stay = x := rfl
@[simp] theorem State.set_stay_gate (s : State) (x : StayNet) :
    ({ s with stay := x } : State).gate = s.gate := rfl
@[simp] theorem State.set_stay_lat (s : State) (x : StayNet) :
    ({ s with stay := x } : State).lat = s.lat := rfl
@[simp] theorem State.set_stay_hbmx (s : State) (x : StayNet) :
    ({ s with stay := x } : State).hbmx = s.hbmx := rfl
@[simp] theorem State.set_stay_plc (s : State) (x : StayNet) :
    ({ s with stay := x } : State).plc = s.plc := rfl
@[simp] theorem State.set_stay_tr (s : State) (x : StayNet) :
    ({ s with stay := x } : State).tr = s.tr := rfl
@[simp] theorem State.set_stay_q (s : State) (x : StayNet) :
    ({ s with stay := x } : State).q = s.q := rfl
@[simp] theorem State.set_stay_clc (s : State) (x : StayNet) :
    ({ s with stay := x } : State).clc = s.clc := rfl
@[simp] theorem State.set_stay_kst (s : State) (x : StayNet) :
    ({ s with stay := x } : State).kst = s.kst := rfl
@[simp] theorem State.set_stay_links (s : State) (x : StayNet) :
    ({ s with stay := x } : State).links = s.links := rfl
@[simp] theorem State.set_stay_pwr (s : State) (x : StayNet) :
    ({ s with stay := x } : State).pwr = s.pwr := rfl
@[simp] theorem State.set_stay_boot (s : State) (x : StayNet) :
    ({ s with stay := x } : State).boot = s.boot := rfl
@[simp] theorem State.set_gate_asm (s : State) (x : Gate) :
    ({ s with gate := x } : State).asm = s.asm := rfl
@[simp] theorem State.set_gate_pending (s : State) (x : Gate) :
    ({ s with gate := x } : State).pending = s.pending := rfl
@[simp] theorem State.set_gate_freeCtr (s : State) (x : Gate) :
    ({ s with gate := x } : State).freeCtr = s.freeCtr := rfl
@[simp] theorem State.set_gate_regs (s : State) (x : Gate) :
    ({ s with gate := x } : State).regs = s.regs := rfl
@[simp] theorem State.set_gate_board (s : State) (x : Gate) :
    ({ s with gate := x } : State).board = s.board := rfl
@[simp] theorem State.set_gate_clk (s : State) (x : Gate) :
    ({ s with gate := x } : State).clk = s.clk := rfl
@[simp] theorem State.set_gate_ras (s : State) (x : Gate) :
    ({ s with gate := x } : State).ras = s.ras := rfl
@[simp] theorem State.set_gate_tiles (s : State) (x : Gate) :
    ({ s with gate := x } : State).tiles = s.tiles := rfl
@[simp] theorem State.set_gate_epochs (s : State) (x : Gate) :
    ({ s with gate := x } : State).epochs = s.epochs := rfl
@[simp] theorem State.set_gate_out (s : State) (x : Gate) :
    ({ s with gate := x } : State).out = s.out := rfl
@[simp] theorem State.set_gate_mem (s : State) (x : Gate) :
    ({ s with gate := x } : State).mem = s.mem := rfl
@[simp] theorem State.set_gate_store (s : State) (x : Gate) :
    ({ s with gate := x } : State).store = s.store := rfl
@[simp] theorem State.set_gate_stay (s : State) (x : Gate) :
    ({ s with gate := x } : State).stay = s.stay := rfl
@[simp] theorem State.set_gate_gate (s : State) (x : Gate) :
    ({ s with gate := x } : State).gate = x := rfl
@[simp] theorem State.set_gate_lat (s : State) (x : Gate) :
    ({ s with gate := x } : State).lat = s.lat := rfl
@[simp] theorem State.set_gate_hbmx (s : State) (x : Gate) :
    ({ s with gate := x } : State).hbmx = s.hbmx := rfl
@[simp] theorem State.set_gate_plc (s : State) (x : Gate) :
    ({ s with gate := x } : State).plc = s.plc := rfl
@[simp] theorem State.set_gate_tr (s : State) (x : Gate) :
    ({ s with gate := x } : State).tr = s.tr := rfl
@[simp] theorem State.set_gate_q (s : State) (x : Gate) :
    ({ s with gate := x } : State).q = s.q := rfl
@[simp] theorem State.set_gate_clc (s : State) (x : Gate) :
    ({ s with gate := x } : State).clc = s.clc := rfl
@[simp] theorem State.set_gate_kst (s : State) (x : Gate) :
    ({ s with gate := x } : State).kst = s.kst := rfl
@[simp] theorem State.set_gate_links (s : State) (x : Gate) :
    ({ s with gate := x } : State).links = s.links := rfl
@[simp] theorem State.set_gate_pwr (s : State) (x : Gate) :
    ({ s with gate := x } : State).pwr = s.pwr := rfl
@[simp] theorem State.set_gate_boot (s : State) (x : Gate) :
    ({ s with gate := x } : State).boot = s.boot := rfl
@[simp] theorem State.set_lat_asm (s : State) (x : Lat) :
    ({ s with lat := x } : State).asm = s.asm := rfl
@[simp] theorem State.set_lat_pending (s : State) (x : Lat) :
    ({ s with lat := x } : State).pending = s.pending := rfl
@[simp] theorem State.set_lat_freeCtr (s : State) (x : Lat) :
    ({ s with lat := x } : State).freeCtr = s.freeCtr := rfl
@[simp] theorem State.set_lat_regs (s : State) (x : Lat) :
    ({ s with lat := x } : State).regs = s.regs := rfl
@[simp] theorem State.set_lat_board (s : State) (x : Lat) :
    ({ s with lat := x } : State).board = s.board := rfl
@[simp] theorem State.set_lat_clk (s : State) (x : Lat) :
    ({ s with lat := x } : State).clk = s.clk := rfl
@[simp] theorem State.set_lat_ras (s : State) (x : Lat) :
    ({ s with lat := x } : State).ras = s.ras := rfl
@[simp] theorem State.set_lat_tiles (s : State) (x : Lat) :
    ({ s with lat := x } : State).tiles = s.tiles := rfl
@[simp] theorem State.set_lat_epochs (s : State) (x : Lat) :
    ({ s with lat := x } : State).epochs = s.epochs := rfl
@[simp] theorem State.set_lat_out (s : State) (x : Lat) :
    ({ s with lat := x } : State).out = s.out := rfl
@[simp] theorem State.set_lat_mem (s : State) (x : Lat) :
    ({ s with lat := x } : State).mem = s.mem := rfl
@[simp] theorem State.set_lat_store (s : State) (x : Lat) :
    ({ s with lat := x } : State).store = s.store := rfl
@[simp] theorem State.set_lat_stay (s : State) (x : Lat) :
    ({ s with lat := x } : State).stay = s.stay := rfl
@[simp] theorem State.set_lat_gate (s : State) (x : Lat) :
    ({ s with lat := x } : State).gate = s.gate := rfl
@[simp] theorem State.set_lat_lat (s : State) (x : Lat) :
    ({ s with lat := x } : State).lat = x := rfl
@[simp] theorem State.set_lat_hbmx (s : State) (x : Lat) :
    ({ s with lat := x } : State).hbmx = s.hbmx := rfl
@[simp] theorem State.set_lat_plc (s : State) (x : Lat) :
    ({ s with lat := x } : State).plc = s.plc := rfl
@[simp] theorem State.set_lat_tr (s : State) (x : Lat) :
    ({ s with lat := x } : State).tr = s.tr := rfl
@[simp] theorem State.set_lat_q (s : State) (x : Lat) :
    ({ s with lat := x } : State).q = s.q := rfl
@[simp] theorem State.set_lat_clc (s : State) (x : Lat) :
    ({ s with lat := x } : State).clc = s.clc := rfl
@[simp] theorem State.set_lat_kst (s : State) (x : Lat) :
    ({ s with lat := x } : State).kst = s.kst := rfl
@[simp] theorem State.set_lat_links (s : State) (x : Lat) :
    ({ s with lat := x } : State).links = s.links := rfl
@[simp] theorem State.set_lat_pwr (s : State) (x : Lat) :
    ({ s with lat := x } : State).pwr = s.pwr := rfl
@[simp] theorem State.set_lat_boot (s : State) (x : Lat) :
    ({ s with lat := x } : State).boot = s.boot := rfl
@[simp] theorem State.set_hbmx_asm (s : State) (x : HbmX) :
    ({ s with hbmx := x } : State).asm = s.asm := rfl
@[simp] theorem State.set_hbmx_pending (s : State) (x : HbmX) :
    ({ s with hbmx := x } : State).pending = s.pending := rfl
@[simp] theorem State.set_hbmx_freeCtr (s : State) (x : HbmX) :
    ({ s with hbmx := x } : State).freeCtr = s.freeCtr := rfl
@[simp] theorem State.set_hbmx_regs (s : State) (x : HbmX) :
    ({ s with hbmx := x } : State).regs = s.regs := rfl
@[simp] theorem State.set_hbmx_board (s : State) (x : HbmX) :
    ({ s with hbmx := x } : State).board = s.board := rfl
@[simp] theorem State.set_hbmx_clk (s : State) (x : HbmX) :
    ({ s with hbmx := x } : State).clk = s.clk := rfl
@[simp] theorem State.set_hbmx_ras (s : State) (x : HbmX) :
    ({ s with hbmx := x } : State).ras = s.ras := rfl
@[simp] theorem State.set_hbmx_tiles (s : State) (x : HbmX) :
    ({ s with hbmx := x } : State).tiles = s.tiles := rfl
@[simp] theorem State.set_hbmx_epochs (s : State) (x : HbmX) :
    ({ s with hbmx := x } : State).epochs = s.epochs := rfl
@[simp] theorem State.set_hbmx_out (s : State) (x : HbmX) :
    ({ s with hbmx := x } : State).out = s.out := rfl
@[simp] theorem State.set_hbmx_mem (s : State) (x : HbmX) :
    ({ s with hbmx := x } : State).mem = s.mem := rfl
@[simp] theorem State.set_hbmx_store (s : State) (x : HbmX) :
    ({ s with hbmx := x } : State).store = s.store := rfl
@[simp] theorem State.set_hbmx_stay (s : State) (x : HbmX) :
    ({ s with hbmx := x } : State).stay = s.stay := rfl
@[simp] theorem State.set_hbmx_gate (s : State) (x : HbmX) :
    ({ s with hbmx := x } : State).gate = s.gate := rfl
@[simp] theorem State.set_hbmx_lat (s : State) (x : HbmX) :
    ({ s with hbmx := x } : State).lat = s.lat := rfl
@[simp] theorem State.set_hbmx_hbmx (s : State) (x : HbmX) :
    ({ s with hbmx := x } : State).hbmx = x := rfl
@[simp] theorem State.set_hbmx_plc (s : State) (x : HbmX) :
    ({ s with hbmx := x } : State).plc = s.plc := rfl
@[simp] theorem State.set_hbmx_tr (s : State) (x : HbmX) :
    ({ s with hbmx := x } : State).tr = s.tr := rfl
@[simp] theorem State.set_hbmx_q (s : State) (x : HbmX) :
    ({ s with hbmx := x } : State).q = s.q := rfl
@[simp] theorem State.set_hbmx_clc (s : State) (x : HbmX) :
    ({ s with hbmx := x } : State).clc = s.clc := rfl
@[simp] theorem State.set_hbmx_kst (s : State) (x : HbmX) :
    ({ s with hbmx := x } : State).kst = s.kst := rfl
@[simp] theorem State.set_hbmx_links (s : State) (x : HbmX) :
    ({ s with hbmx := x } : State).links = s.links := rfl
@[simp] theorem State.set_hbmx_pwr (s : State) (x : HbmX) :
    ({ s with hbmx := x } : State).pwr = s.pwr := rfl
@[simp] theorem State.set_hbmx_boot (s : State) (x : HbmX) :
    ({ s with hbmx := x } : State).boot = s.boot := rfl
@[simp] theorem State.set_plc_asm (s : State) (x : Plc) :
    ({ s with plc := x } : State).asm = s.asm := rfl
@[simp] theorem State.set_plc_pending (s : State) (x : Plc) :
    ({ s with plc := x } : State).pending = s.pending := rfl
@[simp] theorem State.set_plc_freeCtr (s : State) (x : Plc) :
    ({ s with plc := x } : State).freeCtr = s.freeCtr := rfl
@[simp] theorem State.set_plc_regs (s : State) (x : Plc) :
    ({ s with plc := x } : State).regs = s.regs := rfl
@[simp] theorem State.set_plc_board (s : State) (x : Plc) :
    ({ s with plc := x } : State).board = s.board := rfl
@[simp] theorem State.set_plc_clk (s : State) (x : Plc) :
    ({ s with plc := x } : State).clk = s.clk := rfl
@[simp] theorem State.set_plc_ras (s : State) (x : Plc) :
    ({ s with plc := x } : State).ras = s.ras := rfl
@[simp] theorem State.set_plc_tiles (s : State) (x : Plc) :
    ({ s with plc := x } : State).tiles = s.tiles := rfl
@[simp] theorem State.set_plc_epochs (s : State) (x : Plc) :
    ({ s with plc := x } : State).epochs = s.epochs := rfl
@[simp] theorem State.set_plc_out (s : State) (x : Plc) :
    ({ s with plc := x } : State).out = s.out := rfl
@[simp] theorem State.set_plc_mem (s : State) (x : Plc) :
    ({ s with plc := x } : State).mem = s.mem := rfl
@[simp] theorem State.set_plc_store (s : State) (x : Plc) :
    ({ s with plc := x } : State).store = s.store := rfl
@[simp] theorem State.set_plc_stay (s : State) (x : Plc) :
    ({ s with plc := x } : State).stay = s.stay := rfl
@[simp] theorem State.set_plc_gate (s : State) (x : Plc) :
    ({ s with plc := x } : State).gate = s.gate := rfl
@[simp] theorem State.set_plc_lat (s : State) (x : Plc) :
    ({ s with plc := x } : State).lat = s.lat := rfl
@[simp] theorem State.set_plc_hbmx (s : State) (x : Plc) :
    ({ s with plc := x } : State).hbmx = s.hbmx := rfl
@[simp] theorem State.set_plc_plc (s : State) (x : Plc) :
    ({ s with plc := x } : State).plc = x := rfl
@[simp] theorem State.set_plc_tr (s : State) (x : Plc) :
    ({ s with plc := x } : State).tr = s.tr := rfl
@[simp] theorem State.set_plc_q (s : State) (x : Plc) :
    ({ s with plc := x } : State).q = s.q := rfl
@[simp] theorem State.set_plc_clc (s : State) (x : Plc) :
    ({ s with plc := x } : State).clc = s.clc := rfl
@[simp] theorem State.set_plc_kst (s : State) (x : Plc) :
    ({ s with plc := x } : State).kst = s.kst := rfl
@[simp] theorem State.set_plc_links (s : State) (x : Plc) :
    ({ s with plc := x } : State).links = s.links := rfl
@[simp] theorem State.set_plc_pwr (s : State) (x : Plc) :
    ({ s with plc := x } : State).pwr = s.pwr := rfl
@[simp] theorem State.set_plc_boot (s : State) (x : Plc) :
    ({ s with plc := x } : State).boot = s.boot := rfl
@[simp] theorem State.set_tr_asm (s : State) (x : List (Nat × TrSpan)) :
    ({ s with tr := x } : State).asm = s.asm := rfl
@[simp] theorem State.set_tr_pending (s : State) (x : List (Nat × TrSpan)) :
    ({ s with tr := x } : State).pending = s.pending := rfl
@[simp] theorem State.set_tr_freeCtr (s : State) (x : List (Nat × TrSpan)) :
    ({ s with tr := x } : State).freeCtr = s.freeCtr := rfl
@[simp] theorem State.set_tr_regs (s : State) (x : List (Nat × TrSpan)) :
    ({ s with tr := x } : State).regs = s.regs := rfl
@[simp] theorem State.set_tr_board (s : State) (x : List (Nat × TrSpan)) :
    ({ s with tr := x } : State).board = s.board := rfl
@[simp] theorem State.set_tr_clk (s : State) (x : List (Nat × TrSpan)) :
    ({ s with tr := x } : State).clk = s.clk := rfl
@[simp] theorem State.set_tr_ras (s : State) (x : List (Nat × TrSpan)) :
    ({ s with tr := x } : State).ras = s.ras := rfl
@[simp] theorem State.set_tr_tiles (s : State) (x : List (Nat × TrSpan)) :
    ({ s with tr := x } : State).tiles = s.tiles := rfl
@[simp] theorem State.set_tr_epochs (s : State) (x : List (Nat × TrSpan)) :
    ({ s with tr := x } : State).epochs = s.epochs := rfl
@[simp] theorem State.set_tr_out (s : State) (x : List (Nat × TrSpan)) :
    ({ s with tr := x } : State).out = s.out := rfl
@[simp] theorem State.set_tr_mem (s : State) (x : List (Nat × TrSpan)) :
    ({ s with tr := x } : State).mem = s.mem := rfl
@[simp] theorem State.set_tr_store (s : State) (x : List (Nat × TrSpan)) :
    ({ s with tr := x } : State).store = s.store := rfl
@[simp] theorem State.set_tr_stay (s : State) (x : List (Nat × TrSpan)) :
    ({ s with tr := x } : State).stay = s.stay := rfl
@[simp] theorem State.set_tr_gate (s : State) (x : List (Nat × TrSpan)) :
    ({ s with tr := x } : State).gate = s.gate := rfl
@[simp] theorem State.set_tr_lat (s : State) (x : List (Nat × TrSpan)) :
    ({ s with tr := x } : State).lat = s.lat := rfl
@[simp] theorem State.set_tr_hbmx (s : State) (x : List (Nat × TrSpan)) :
    ({ s with tr := x } : State).hbmx = s.hbmx := rfl
@[simp] theorem State.set_tr_plc (s : State) (x : List (Nat × TrSpan)) :
    ({ s with tr := x } : State).plc = s.plc := rfl
@[simp] theorem State.set_tr_tr (s : State) (x : List (Nat × TrSpan)) :
    ({ s with tr := x } : State).tr = x := rfl
@[simp] theorem State.set_tr_q (s : State) (x : List (Nat × TrSpan)) :
    ({ s with tr := x } : State).q = s.q := rfl
@[simp] theorem State.set_tr_clc (s : State) (x : List (Nat × TrSpan)) :
    ({ s with tr := x } : State).clc = s.clc := rfl
@[simp] theorem State.set_tr_kst (s : State) (x : List (Nat × TrSpan)) :
    ({ s with tr := x } : State).kst = s.kst := rfl
@[simp] theorem State.set_tr_links (s : State) (x : List (Nat × TrSpan)) :
    ({ s with tr := x } : State).links = s.links := rfl
@[simp] theorem State.set_tr_pwr (s : State) (x : List (Nat × TrSpan)) :
    ({ s with tr := x } : State).pwr = s.pwr := rfl
@[simp] theorem State.set_tr_boot (s : State) (x : List (Nat × TrSpan)) :
    ({ s with tr := x } : State).boot = s.boot := rfl
@[simp] theorem State.set_q_asm (s : State) (x : Queue) :
    ({ s with q := x } : State).asm = s.asm := rfl
@[simp] theorem State.set_q_pending (s : State) (x : Queue) :
    ({ s with q := x } : State).pending = s.pending := rfl
@[simp] theorem State.set_q_freeCtr (s : State) (x : Queue) :
    ({ s with q := x } : State).freeCtr = s.freeCtr := rfl
@[simp] theorem State.set_q_regs (s : State) (x : Queue) :
    ({ s with q := x } : State).regs = s.regs := rfl
@[simp] theorem State.set_q_board (s : State) (x : Queue) :
    ({ s with q := x } : State).board = s.board := rfl
@[simp] theorem State.set_q_clk (s : State) (x : Queue) :
    ({ s with q := x } : State).clk = s.clk := rfl
@[simp] theorem State.set_q_ras (s : State) (x : Queue) :
    ({ s with q := x } : State).ras = s.ras := rfl
@[simp] theorem State.set_q_tiles (s : State) (x : Queue) :
    ({ s with q := x } : State).tiles = s.tiles := rfl
@[simp] theorem State.set_q_epochs (s : State) (x : Queue) :
    ({ s with q := x } : State).epochs = s.epochs := rfl
@[simp] theorem State.set_q_out (s : State) (x : Queue) :
    ({ s with q := x } : State).out = s.out := rfl
@[simp] theorem State.set_q_mem (s : State) (x : Queue) :
    ({ s with q := x } : State).mem = s.mem := rfl
@[simp] theorem State.set_q_store (s : State) (x : Queue) :
    ({ s with q := x } : State).store = s.store := rfl
@[simp] theorem State.set_q_stay (s : State) (x : Queue) :
    ({ s with q := x } : State).stay = s.stay := rfl
@[simp] theorem State.set_q_gate (s : State) (x : Queue) :
    ({ s with q := x } : State).gate = s.gate := rfl
@[simp] theorem State.set_q_lat (s : State) (x : Queue) :
    ({ s with q := x } : State).lat = s.lat := rfl
@[simp] theorem State.set_q_hbmx (s : State) (x : Queue) :
    ({ s with q := x } : State).hbmx = s.hbmx := rfl
@[simp] theorem State.set_q_plc (s : State) (x : Queue) :
    ({ s with q := x } : State).plc = s.plc := rfl
@[simp] theorem State.set_q_tr (s : State) (x : Queue) :
    ({ s with q := x } : State).tr = s.tr := rfl
@[simp] theorem State.set_q_q (s : State) (x : Queue) :
    ({ s with q := x } : State).q = x := rfl
@[simp] theorem State.set_q_clc (s : State) (x : Queue) :
    ({ s with q := x } : State).clc = s.clc := rfl
@[simp] theorem State.set_q_kst (s : State) (x : Queue) :
    ({ s with q := x } : State).kst = s.kst := rfl
@[simp] theorem State.set_q_links (s : State) (x : Queue) :
    ({ s with q := x } : State).links = s.links := rfl
@[simp] theorem State.set_q_pwr (s : State) (x : Queue) :
    ({ s with q := x } : State).pwr = s.pwr := rfl
@[simp] theorem State.set_q_boot (s : State) (x : Queue) :
    ({ s with q := x } : State).boot = s.boot := rfl
@[simp] theorem State.set_clc_asm (s : State) (x : Clc) :
    ({ s with clc := x } : State).asm = s.asm := rfl
@[simp] theorem State.set_clc_pending (s : State) (x : Clc) :
    ({ s with clc := x } : State).pending = s.pending := rfl
@[simp] theorem State.set_clc_freeCtr (s : State) (x : Clc) :
    ({ s with clc := x } : State).freeCtr = s.freeCtr := rfl
@[simp] theorem State.set_clc_regs (s : State) (x : Clc) :
    ({ s with clc := x } : State).regs = s.regs := rfl
@[simp] theorem State.set_clc_board (s : State) (x : Clc) :
    ({ s with clc := x } : State).board = s.board := rfl
@[simp] theorem State.set_clc_clk (s : State) (x : Clc) :
    ({ s with clc := x } : State).clk = s.clk := rfl
@[simp] theorem State.set_clc_ras (s : State) (x : Clc) :
    ({ s with clc := x } : State).ras = s.ras := rfl
@[simp] theorem State.set_clc_tiles (s : State) (x : Clc) :
    ({ s with clc := x } : State).tiles = s.tiles := rfl
@[simp] theorem State.set_clc_epochs (s : State) (x : Clc) :
    ({ s with clc := x } : State).epochs = s.epochs := rfl
@[simp] theorem State.set_clc_out (s : State) (x : Clc) :
    ({ s with clc := x } : State).out = s.out := rfl
@[simp] theorem State.set_clc_mem (s : State) (x : Clc) :
    ({ s with clc := x } : State).mem = s.mem := rfl
@[simp] theorem State.set_clc_store (s : State) (x : Clc) :
    ({ s with clc := x } : State).store = s.store := rfl
@[simp] theorem State.set_clc_stay (s : State) (x : Clc) :
    ({ s with clc := x } : State).stay = s.stay := rfl
@[simp] theorem State.set_clc_gate (s : State) (x : Clc) :
    ({ s with clc := x } : State).gate = s.gate := rfl
@[simp] theorem State.set_clc_lat (s : State) (x : Clc) :
    ({ s with clc := x } : State).lat = s.lat := rfl
@[simp] theorem State.set_clc_hbmx (s : State) (x : Clc) :
    ({ s with clc := x } : State).hbmx = s.hbmx := rfl
@[simp] theorem State.set_clc_plc (s : State) (x : Clc) :
    ({ s with clc := x } : State).plc = s.plc := rfl
@[simp] theorem State.set_clc_tr (s : State) (x : Clc) :
    ({ s with clc := x } : State).tr = s.tr := rfl
@[simp] theorem State.set_clc_q (s : State) (x : Clc) :
    ({ s with clc := x } : State).q = s.q := rfl
@[simp] theorem State.set_clc_clc (s : State) (x : Clc) :
    ({ s with clc := x } : State).clc = x := rfl
@[simp] theorem State.set_clc_kst (s : State) (x : Clc) :
    ({ s with clc := x } : State).kst = s.kst := rfl
@[simp] theorem State.set_clc_links (s : State) (x : Clc) :
    ({ s with clc := x } : State).links = s.links := rfl
@[simp] theorem State.set_clc_pwr (s : State) (x : Clc) :
    ({ s with clc := x } : State).pwr = s.pwr := rfl
@[simp] theorem State.set_clc_boot (s : State) (x : Clc) :
    ({ s with clc := x } : State).boot = s.boot := rfl
@[simp] theorem State.set_kst_asm (s : State) (x : Kst) :
    ({ s with kst := x } : State).asm = s.asm := rfl
@[simp] theorem State.set_kst_pending (s : State) (x : Kst) :
    ({ s with kst := x } : State).pending = s.pending := rfl
@[simp] theorem State.set_kst_freeCtr (s : State) (x : Kst) :
    ({ s with kst := x } : State).freeCtr = s.freeCtr := rfl
@[simp] theorem State.set_kst_regs (s : State) (x : Kst) :
    ({ s with kst := x } : State).regs = s.regs := rfl
@[simp] theorem State.set_kst_board (s : State) (x : Kst) :
    ({ s with kst := x } : State).board = s.board := rfl
@[simp] theorem State.set_kst_clk (s : State) (x : Kst) :
    ({ s with kst := x } : State).clk = s.clk := rfl
@[simp] theorem State.set_kst_ras (s : State) (x : Kst) :
    ({ s with kst := x } : State).ras = s.ras := rfl
@[simp] theorem State.set_kst_tiles (s : State) (x : Kst) :
    ({ s with kst := x } : State).tiles = s.tiles := rfl
@[simp] theorem State.set_kst_epochs (s : State) (x : Kst) :
    ({ s with kst := x } : State).epochs = s.epochs := rfl
@[simp] theorem State.set_kst_out (s : State) (x : Kst) :
    ({ s with kst := x } : State).out = s.out := rfl
@[simp] theorem State.set_kst_mem (s : State) (x : Kst) :
    ({ s with kst := x } : State).mem = s.mem := rfl
@[simp] theorem State.set_kst_store (s : State) (x : Kst) :
    ({ s with kst := x } : State).store = s.store := rfl
@[simp] theorem State.set_kst_stay (s : State) (x : Kst) :
    ({ s with kst := x } : State).stay = s.stay := rfl
@[simp] theorem State.set_kst_gate (s : State) (x : Kst) :
    ({ s with kst := x } : State).gate = s.gate := rfl
@[simp] theorem State.set_kst_lat (s : State) (x : Kst) :
    ({ s with kst := x } : State).lat = s.lat := rfl
@[simp] theorem State.set_kst_hbmx (s : State) (x : Kst) :
    ({ s with kst := x } : State).hbmx = s.hbmx := rfl
@[simp] theorem State.set_kst_plc (s : State) (x : Kst) :
    ({ s with kst := x } : State).plc = s.plc := rfl
@[simp] theorem State.set_kst_tr (s : State) (x : Kst) :
    ({ s with kst := x } : State).tr = s.tr := rfl
@[simp] theorem State.set_kst_q (s : State) (x : Kst) :
    ({ s with kst := x } : State).q = s.q := rfl
@[simp] theorem State.set_kst_clc (s : State) (x : Kst) :
    ({ s with kst := x } : State).clc = s.clc := rfl
@[simp] theorem State.set_kst_kst (s : State) (x : Kst) :
    ({ s with kst := x } : State).kst = x := rfl
@[simp] theorem State.set_kst_links (s : State) (x : Kst) :
    ({ s with kst := x } : State).links = s.links := rfl
@[simp] theorem State.set_kst_pwr (s : State) (x : Kst) :
    ({ s with kst := x } : State).pwr = s.pwr := rfl
@[simp] theorem State.set_kst_boot (s : State) (x : Kst) :
    ({ s with kst := x } : State).boot = s.boot := rfl
@[simp] theorem State.set_links_asm (s : State) (x : Links) :
    ({ s with links := x } : State).asm = s.asm := rfl
@[simp] theorem State.set_links_pending (s : State) (x : Links) :
    ({ s with links := x } : State).pending = s.pending := rfl
@[simp] theorem State.set_links_freeCtr (s : State) (x : Links) :
    ({ s with links := x } : State).freeCtr = s.freeCtr := rfl
@[simp] theorem State.set_links_regs (s : State) (x : Links) :
    ({ s with links := x } : State).regs = s.regs := rfl
@[simp] theorem State.set_links_board (s : State) (x : Links) :
    ({ s with links := x } : State).board = s.board := rfl
@[simp] theorem State.set_links_clk (s : State) (x : Links) :
    ({ s with links := x } : State).clk = s.clk := rfl
@[simp] theorem State.set_links_ras (s : State) (x : Links) :
    ({ s with links := x } : State).ras = s.ras := rfl
@[simp] theorem State.set_links_tiles (s : State) (x : Links) :
    ({ s with links := x } : State).tiles = s.tiles := rfl
@[simp] theorem State.set_links_epochs (s : State) (x : Links) :
    ({ s with links := x } : State).epochs = s.epochs := rfl
@[simp] theorem State.set_links_out (s : State) (x : Links) :
    ({ s with links := x } : State).out = s.out := rfl
@[simp] theorem State.set_links_mem (s : State) (x : Links) :
    ({ s with links := x } : State).mem = s.mem := rfl
@[simp] theorem State.set_links_store (s : State) (x : Links) :
    ({ s with links := x } : State).store = s.store := rfl
@[simp] theorem State.set_links_stay (s : State) (x : Links) :
    ({ s with links := x } : State).stay = s.stay := rfl
@[simp] theorem State.set_links_gate (s : State) (x : Links) :
    ({ s with links := x } : State).gate = s.gate := rfl
@[simp] theorem State.set_links_lat (s : State) (x : Links) :
    ({ s with links := x } : State).lat = s.lat := rfl
@[simp] theorem State.set_links_hbmx (s : State) (x : Links) :
    ({ s with links := x } : State).hbmx = s.hbmx := rfl
@[simp] theorem State.set_links_plc (s : State) (x : Links) :
    ({ s with links := x } : State).plc = s.plc := rfl
@[simp] theorem State.set_links_tr (s : State) (x : Links) :
    ({ s with links := x } : State).tr = s.tr := rfl
@[simp] theorem State.set_links_q (s : State) (x : Links) :
    ({ s with links := x } : State).q = s.q := rfl
@[simp] theorem State.set_links_clc (s : State) (x : Links) :
    ({ s with links := x } : State).clc = s.clc := rfl
@[simp] theorem State.set_links_kst (s : State) (x : Links) :
    ({ s with links := x } : State).kst = s.kst := rfl
@[simp] theorem State.set_links_links (s : State) (x : Links) :
    ({ s with links := x } : State).links = x := rfl
@[simp] theorem State.set_links_pwr (s : State) (x : Links) :
    ({ s with links := x } : State).pwr = s.pwr := rfl
@[simp] theorem State.set_links_boot (s : State) (x : Links) :
    ({ s with links := x } : State).boot = s.boot := rfl
@[simp] theorem State.set_pwr_asm (s : State) (x : Pwr) :
    ({ s with pwr := x } : State).asm = s.asm := rfl
@[simp] theorem State.set_pwr_pending (s : State) (x : Pwr) :
    ({ s with pwr := x } : State).pending = s.pending := rfl
@[simp] theorem State.set_pwr_freeCtr (s : State) (x : Pwr) :
    ({ s with pwr := x } : State).freeCtr = s.freeCtr := rfl
@[simp] theorem State.set_pwr_regs (s : State) (x : Pwr) :
    ({ s with pwr := x } : State).regs = s.regs := rfl
@[simp] theorem State.set_pwr_board (s : State) (x : Pwr) :
    ({ s with pwr := x } : State).board = s.board := rfl
@[simp] theorem State.set_pwr_clk (s : State) (x : Pwr) :
    ({ s with pwr := x } : State).clk = s.clk := rfl
@[simp] theorem State.set_pwr_ras (s : State) (x : Pwr) :
    ({ s with pwr := x } : State).ras = s.ras := rfl
@[simp] theorem State.set_pwr_tiles (s : State) (x : Pwr) :
    ({ s with pwr := x } : State).tiles = s.tiles := rfl
@[simp] theorem State.set_pwr_epochs (s : State) (x : Pwr) :
    ({ s with pwr := x } : State).epochs = s.epochs := rfl
@[simp] theorem State.set_pwr_out (s : State) (x : Pwr) :
    ({ s with pwr := x } : State).out = s.out := rfl
@[simp] theorem State.set_pwr_mem (s : State) (x : Pwr) :
    ({ s with pwr := x } : State).mem = s.mem := rfl
@[simp] theorem State.set_pwr_store (s : State) (x : Pwr) :
    ({ s with pwr := x } : State).store = s.store := rfl
@[simp] theorem State.set_pwr_stay (s : State) (x : Pwr) :
    ({ s with pwr := x } : State).stay = s.stay := rfl
@[simp] theorem State.set_pwr_gate (s : State) (x : Pwr) :
    ({ s with pwr := x } : State).gate = s.gate := rfl
@[simp] theorem State.set_pwr_lat (s : State) (x : Pwr) :
    ({ s with pwr := x } : State).lat = s.lat := rfl
@[simp] theorem State.set_pwr_hbmx (s : State) (x : Pwr) :
    ({ s with pwr := x } : State).hbmx = s.hbmx := rfl
@[simp] theorem State.set_pwr_plc (s : State) (x : Pwr) :
    ({ s with pwr := x } : State).plc = s.plc := rfl
@[simp] theorem State.set_pwr_tr (s : State) (x : Pwr) :
    ({ s with pwr := x } : State).tr = s.tr := rfl
@[simp] theorem State.set_pwr_q (s : State) (x : Pwr) :
    ({ s with pwr := x } : State).q = s.q := rfl
@[simp] theorem State.set_pwr_clc (s : State) (x : Pwr) :
    ({ s with pwr := x } : State).clc = s.clc := rfl
@[simp] theorem State.set_pwr_kst (s : State) (x : Pwr) :
    ({ s with pwr := x } : State).kst = s.kst := rfl
@[simp] theorem State.set_pwr_links (s : State) (x : Pwr) :
    ({ s with pwr := x } : State).links = s.links := rfl
@[simp] theorem State.set_pwr_pwr (s : State) (x : Pwr) :
    ({ s with pwr := x } : State).pwr = x := rfl
@[simp] theorem State.set_pwr_boot (s : State) (x : Pwr) :
    ({ s with pwr := x } : State).boot = s.boot := rfl
@[simp] theorem State.set_boot_asm (s : State) (x : Boot) :
    ({ s with boot := x } : State).asm = s.asm := rfl
@[simp] theorem State.set_boot_pending (s : State) (x : Boot) :
    ({ s with boot := x } : State).pending = s.pending := rfl
@[simp] theorem State.set_boot_freeCtr (s : State) (x : Boot) :
    ({ s with boot := x } : State).freeCtr = s.freeCtr := rfl
@[simp] theorem State.set_boot_regs (s : State) (x : Boot) :
    ({ s with boot := x } : State).regs = s.regs := rfl
@[simp] theorem State.set_boot_board (s : State) (x : Boot) :
    ({ s with boot := x } : State).board = s.board := rfl
@[simp] theorem State.set_boot_clk (s : State) (x : Boot) :
    ({ s with boot := x } : State).clk = s.clk := rfl
@[simp] theorem State.set_boot_ras (s : State) (x : Boot) :
    ({ s with boot := x } : State).ras = s.ras := rfl
@[simp] theorem State.set_boot_tiles (s : State) (x : Boot) :
    ({ s with boot := x } : State).tiles = s.tiles := rfl
@[simp] theorem State.set_boot_epochs (s : State) (x : Boot) :
    ({ s with boot := x } : State).epochs = s.epochs := rfl
@[simp] theorem State.set_boot_out (s : State) (x : Boot) :
    ({ s with boot := x } : State).out = s.out := rfl
@[simp] theorem State.set_boot_mem (s : State) (x : Boot) :
    ({ s with boot := x } : State).mem = s.mem := rfl
@[simp] theorem State.set_boot_store (s : State) (x : Boot) :
    ({ s with boot := x } : State).store = s.store := rfl
@[simp] theorem State.set_boot_stay (s : State) (x : Boot) :
    ({ s with boot := x } : State).stay = s.stay := rfl
@[simp] theorem State.set_boot_gate (s : State) (x : Boot) :
    ({ s with boot := x } : State).gate = s.gate := rfl
@[simp] theorem State.set_boot_lat (s : State) (x : Boot) :
    ({ s with boot := x } : State).lat = s.lat := rfl
@[simp] theorem State.set_boot_hbmx (s : State) (x : Boot) :
    ({ s with boot := x } : State).hbmx = s.hbmx := rfl
@[simp] theorem State.set_boot_plc (s : State) (x : Boot) :
    ({ s with boot := x } : State).plc = s.plc := rfl
@[simp] theorem State.set_boot_tr (s : State) (x : Boot) :
    ({ s with boot := x } : State).tr = s.tr := rfl
@[simp] theorem State.set_boot_q (s : State) (x : Boot) :
    ({ s with boot := x } : State).q = s.q := rfl
@[simp] theorem State.set_boot_clc (s : State) (x : Boot) :
    ({ s with boot := x } : State).clc = s.clc := rfl
@[simp] theorem State.set_boot_kst (s : State) (x : Boot) :
    ({ s with boot := x } : State).kst = s.kst := rfl
@[simp] theorem State.set_boot_links (s : State) (x : Boot) :
    ({ s with boot := x } : State).links = s.links := rfl
@[simp] theorem State.set_boot_pwr (s : State) (x : Boot) :
    ({ s with boot := x } : State).pwr = s.pwr := rfl
@[simp] theorem State.set_boot_boot (s : State) (x : Boot) :
    ({ s with boot := x } : State).boot = x := rfl

end Sys2Proof.Machine
end

