-- ==== Sys2Proof/Laws/Tile.lean ====
section
/-!
SUPPORT. Laws/Tile.lean: what fetch, exceptions and the execution of a queue head can change.
-/

namespace Sys2Proof.Machine

theorem Tile.SameData.refl (x : Tile) : Tile.SameData x x := by simp [Tile.SameData]

theorem Tile.SameData.trans {x y z : Tile} (h : Tile.SameData x y) (k : Tile.SameData y z) : Tile.SameData x z := by
  obtain ⟨h1, h2, h3, h4, h5, h6, h7, h8, h9, h10, h11, h12, h13⟩ := h
  obtain ⟨k1, k2, k3, k4, k5, k6, k7, k8, k9, k10, k11, k12, k13⟩ := k
  exact ⟨k1.trans h1, k2.trans h2, k3.trans h3, k4.trans h4, k5.trans h5, k6.trans h6, k7.trans h7, k8.trans h8,
    k9.trans h9, k10.trans h10, k11.trans h11, k12.trans h12, k13.trans h13⟩

theorem Tile.SameData.s {x y : Tile} (h : Tile.SameData x y) (n : Nat) : y.s n = x.s n := by
  simp [Tile.s, h.1]
theorem Tile.SameData.v {x y : Tile} (h : Tile.SameData x y) (n : Nat) : y.v n = x.v n := by
  simp [Tile.v, h.2.1]
theorem Tile.SameData.p {x y : Tile} (h : Tile.SameData x y) (n : Nat) : y.p n = x.p n := by
  simp [Tile.p, h.2.2.1]

theorem RegsKept.refl (as : List Nat) (s : State) : RegsKept as s s := fun _ _ => rfl

theorem RegsKept.trans {as : List Nat} {s u w : State} (h : RegsKept as s u) (k : RegsKept as u w) :
    RegsKept as s w := fun _ ha => (k _ ha).trans (h _ ha)

theorem RegsKept.mono {as bs : List Nat} {s u : State} (h : RegsKept as s u) (hb : ∀ a ∈ as, a ∈ bs) :
    RegsKept bs s u := fun a ha => h a (fun hm => ha (hb a hm))

theorem RegsKept.wr (s : State) (r : RegId) (ix : List Nat) (v : Nat) (as : List Nat) (h : regAddr r ix ∈ as) :
    RegsKept as s (s.wr r ix v) := fun _ ha => wr_regs _ _ _ _ _ (fun e => ha (e ▸ h))

theorem RegsKept.setFld (s : State) (r : RegId) (ix : List Nat) (f : Fld) (v : Nat) (as : List Nat)
    (h : regAddr r ix ∈ as) : RegsKept as s (s.setFld r ix f v) := RegsKept.wr _ _ _ _ _ h

theorem RegsKept.of_regs {as : List Nat} {s u : State} (h : u.regs = s.regs) : RegsKept as s u :=
  fun a _ => by rw [h]

/-- A register outside the list keeps its value, if the assembly is the same. -/
theorem RegsKept.rd {as : List Nat} {s u : State} (h : RegsKept as s u) (ha : u.asm = s.asm) (r : RegId)
    (ix : List Nat) (hn : regAddr r ix ∉ as) : u.rd r ix = s.rd r ix := by
  simp only [State.rd, h _ hn, ha]

theorem RegsKept.fld {as : List Nat} {s u : State} (h : RegsKept as s u) (ha : u.asm = s.asm) (r : RegId)
    (ix : List Nat) (f : Fld) (hn : regAddr r ix ∉ as) : u.fld r ix f = s.fld r ix f := by
  simp only [State.fld, h.rd ha r ix hn]

/-! The Stay message of an exception or of an epoch: outputs and held messages alone. -/

/-- What a message changes: outputs and the Stay network. -/
def MsgOnly (s u : State) : Prop := u = { s with
    out := u.out, stay := u.stay,
    links := { s.links with stayOn := u.links.stayOn } }

theorem MsgOnly.refl (s : State) : MsgOnly s s := rfl

theorem MsgOnly.trans {s u w : State} (h : MsgOnly s u) (k : MsgOnly u w) : MsgOnly s w := by
  unfold MsgOnly at *
  rw [k, h]

theorem stayPut_msgOnly (s : State) (x : StayMsg) : MsgOnly s (stayPut s x) := by
  unfold stayPut
  split <;> rfl

theorem stayTell_msgOnly (s : State) (c m k : Nat) (a : List Nat) : MsgOnly s (stayTell s c m k a) := by
  unfold stayTell staySend
  split
  · exact MsgOnly.refl s
  · exact stayPut_msgOnly _ _

theorem foldl_msgOnly {α : Type} (f : State → α → State) (hf : ∀ s a, MsgOnly s (f s a)) (l : List α) (s : State) :
    MsgOnly s (l.foldl f s) := by
  induction l generalizing s with
  | nil => exact MsgOnly.refl s
  | cons a r ih => exact (hf s a).trans (ih (f s a))

theorem withdrawWaits_msgOnly (s : State) (t : Nat) : MsgOnly s (withdrawWaits s t) := by
  unfold withdrawWaits
  apply foldl_msgOnly
  intro s r
  split
  · split
    · exact stayTell_msgOnly _ _ _ _ _
    · exact MsgOnly.refl s
  · rfl

theorem MsgOnly.tile {s u : State} (h : MsgOnly s u) (t : Nat) : u.tile t = s.tile t := by
  rw [h]; rfl

theorem MsgOnly.regs {s u : State} (h : MsgOnly s u) : u.regs = s.regs := by rw [h]

theorem MsgOnly.asm {s u : State} (h : MsgOnly s u) : u.asm = s.asm := by rw [h]

/-- What the resolution of epochs changes: outputs, the Stay network, the epochs and registers. -/
def EpochOnly (s u : State) : Prop := u = { s with
    regs := u.regs, epochs := u.epochs, out := u.out, stay := u.stay,
    links := { s.links with stayOn := u.links.stayOn } }

theorem EpochOnly.refl (s : State) : EpochOnly s s := rfl

theorem EpochOnly.trans {s u w : State} (h : EpochOnly s u) (k : EpochOnly u w) : EpochOnly s w := by
  unfold EpochOnly at *
  rw [k, h]

theorem MsgOnly.epoch {s u : State} (h : MsgOnly s u) : EpochOnly s u := by
  unfold EpochOnly; unfold MsgOnly at h; rw [h]

theorem EpochOnly.tile {s u : State} (h : EpochOnly s u) (t : Nat) : u.tile t = s.tile t := by
  rw [h]; rfl

theorem EpochOnly.asm {s u : State} (h : EpochOnly s u) : u.asm = s.asm := by rw [h]

theorem wr_epochOnly (s : State) (r : RegId) (ix : List Nat) (v : Nat) : EpochOnly s (s.wr r ix v) := by
  unfold EpochOnly State.wr; rfl

theorem setFld_epochOnly (s : State) (r : RegId) (ix : List Nat) (f : Fld) (v : Nat) :
    EpochOnly s (s.setFld r ix f v) := wr_epochOnly _ _ _ _

theorem satInc_epochOnly (s : State) (r : RegId) (ix : List Nat) (f : Fld) (v : Nat) :
    EpochOnly s (s.satInc r ix f v) := wr_epochOnly _ _ _ _

theorem wrapInc_epochOnly (s : State) (r : RegId) (ix : List Nat) (f : Fld) (v : Nat) :
    EpochOnly s (s.wrapInc r ix f v) := wr_epochOnly _ _ _ _

/-- The registers that the resolution of epochs writes. -/
def EpochRegs (s u : State) : Prop := ∀ a, (∀ k, a ≠ regAddr .TILE_EPOCH (tix k)) → mfind u.regs a = mfind s.regs a

theorem EpochRegs.refl (s : State) : EpochRegs s s := fun _ _ => rfl

theorem EpochRegs.trans {s u w : State} (h : EpochRegs s u) (k : EpochRegs u w) : EpochRegs s w :=
  fun _ ha => (k _ ha).trans (h _ ha)

theorem EpochRegs.of_regs {s u : State} (h : u.regs = s.regs) : EpochRegs s u := fun a _ => by rw [h]

theorem EpochRegs.wr (s : State) (t v : Nat) : EpochRegs s (s.wr .TILE_EPOCH (tix t) v) :=
  fun _ ha => wr_regs _ _ _ _ _ (ha t)

theorem resolveOne_tells (s : State) (e : Epoch) (k : Nat) :
    MsgOnly s (e.sent.foldl (fun s p => stayTell s 2 p.1 k [epochTag s e, p.2]) s) :=
  foldl_msgOnly _ (fun _ _ => stayTell_msgOnly _ _ _ _ _) _ _

theorem resolveOne_epochOnly (s : State) (e : Epoch) : EpochOnly s (resolveOne s e) := by
  unfold resolveOne
  dsimp only
  split
  · exact (resolveOne_tells s e _).epoch.trans ((setFld_epochOnly _ _ _ _ _).trans
      ((setFld_epochOnly _ _ _ _ _).trans (satInc_epochOnly _ _ _ _ _)))
  · exact (resolveOne_tells s e _).epoch.trans (setFld_epochOnly _ _ _ _ _)

theorem resolveOne_regs (s : State) (e : Epoch) : EpochRegs s (resolveOne s e) := by
  unfold resolveOne
  dsimp only
  split
  · exact (EpochRegs.of_regs (resolveOne_tells s e _).regs).trans ((EpochRegs.wr _ _ _).trans
      ((EpochRegs.wr _ _ _).trans (EpochRegs.wr _ _ _)))
  · exact (EpochRegs.of_regs (resolveOne_tells s e _).regs).trans (EpochRegs.wr _ _ _)

theorem foldl_epochOnly {α : Type} (f : State → α → State) (hf : ∀ s a, EpochOnly s (f s a)) (l : List α)
    (s : State) : EpochOnly s (l.foldl f s) := by
  induction l generalizing s with
  | nil => exact EpochOnly.refl s
  | cons a r ih => exact (hf s a).trans (ih (f s a))

theorem foldl_epochRegs {α : Type} (f : State → α → State) (hf : ∀ s a, EpochRegs s (f s a)) (l : List α)
    (s : State) : EpochRegs s (l.foldl f s) := by
  induction l generalizing s with
  | nil => exact EpochRegs.refl s
  | cons a r ih => exact (hf s a).trans (ih (f s a))

theorem set_epochs_epochOnly (s : State) (l : List Epoch) : EpochOnly s { s with epochs := l } := by
  unfold EpochOnly; rfl

theorem resolveEpochs_epochOnly (s : State) : EpochOnly s (resolveEpochs s) :=
  (set_epochs_epochOnly s _).trans (foldl_epochOnly _ resolveOne_epochOnly _ _)

theorem resolveEpochs_regs (s : State) : EpochRegs s (resolveEpochs s) :=
  EpochRegs.trans (u := { s with epochs := _ }) (EpochRegs.of_regs rfl) (foldl_epochRegs _ resolveOne_regs _ _)

theorem closeEpoch_epochOnly (s : State) (t : Nat) : EpochOnly s (closeEpoch s t) := by
  unfold closeEpoch
  split
  · dsimp only
    exact (set_epochs_epochOnly s _).trans ((setFld_epochOnly _ _ _ _ _).trans ((wrapInc_epochOnly _ _ _ _ _).trans
      (resolveEpochs_epochOnly _)))
  · exact EpochOnly.refl s

theorem closeEpoch_regs (s : State) (t : Nat) : EpochRegs s (closeEpoch s t) := by
  unfold closeEpoch
  split
  · dsimp only
    exact EpochRegs.trans (u := { s with epochs := _ }) (EpochRegs.of_regs rfl) ((EpochRegs.wr _ _ _).trans
      ((EpochRegs.wr _ _ _).trans (resolveEpochs_regs _)))
  · exact EpochRegs.refl s

/-! The frame of an instruction of a tile. -/

theorem TileOnly.refl (t : Nat) (as : List Nat) (s : State) : TileOnly t as s s := ⟨fun _ _ => rfl, rfl, fun _ _ _ => rfl⟩

theorem TileOnly.trans {t : Nat} {as : List Nat} {s u w : State} (h : TileOnly t as s u) (k : TileOnly t as u w) :
    TileOnly t as s w := by
  obtain ⟨h1, h2, h3⟩ := h
  obtain ⟨k1, k2, k3⟩ := k
  refine ⟨fun i hi => (k1 i hi).trans (h1 i hi), ?_, fun a ha hx => (k3 a ha hx).trans (h3 a ha hx)⟩
  rw [k2, h2]

theorem TileOnly.setTile (t : Nat) (as : List Nat) (s : State) (x : Tile) : TileOnly t as s (s.setTile t x) := by
  refine ⟨fun k hk => tile_setTile_ne s x hk, ?_, fun _ _ _ => rfl⟩
  unfold State.setTile; rfl

theorem TileOnly.popHead (t : Nat) (as : List Nat) (s : State) (m : Strm) : TileOnly t as s (popHead s t m) :=
  TileOnly.setTile t as s _

theorem TileOnly.of_epoch {t : Nat} {as : List Nat} {s u : State} (h : EpochOnly s u) (k : EpochRegs s u) :
    TileOnly t as s u := by
  refine ⟨fun i _ => h.tile i, ?_, fun a _ hx => k a (fun i e => hx (Or.inr (Or.inr ⟨i, e⟩)))⟩
  unfold EpochOnly at h; rw [h]

theorem TileOnly.wr (t : Nat) (as : List Nat) (s : State) (r : RegId) (ix : List Nat) (v : Nat)
    (h : regAddr r ix ∈ as ∨ ExcReg t (regAddr r ix)) : TileOnly t as s (s.wr r ix v) := by
  refine ⟨fun _ _ => rfl, ?_, fun a ha hx => wr_regs _ _ _ _ _ ?_⟩
  · unfold State.wr; rfl
  · rintro rfl
    exact h.elim ha hx

theorem TileOnly.setFld (t : Nat) (as : List Nat) (s : State) (r : RegId) (ix : List Nat) (f : Fld) (v : Nat)
    (h : regAddr r ix ∈ as ∨ ExcReg t (regAddr r ix)) : TileOnly t as s (s.setFld r ix f v) :=
  TileOnly.wr _ _ _ _ _ _ h

theorem TileOnly.of_msg {t : Nat} {as : List Nat} {s u : State} (h : MsgOnly s u) : TileOnly t as s u :=
  TileOnly.of_epoch h.epoch (EpochRegs.of_regs h.regs)

theorem TileOnly.mono {t : Nat} {as bs : List Nat} {s u : State} (h : TileOnly t as s u) (hb : ∀ a ∈ as, a ∈ bs) :
    TileOnly t bs s u := ⟨h.1, h.2.1, fun a ha hx => h.2.2 a (fun hm => ha (hb a hm)) hx⟩

theorem stopAll_sameData (x : Tile) (n : Nat) : Tile.SameData x (x.stopAll n) := by simp [Tile.SameData, Tile.stopAll]

theorem noteExc_tileOnly (s : State) (t m tag cause pc addr : Nat) (as : List Nat) :
    TileOnly t as s (noteExc s t m tag cause pc addr) := by
  unfold noteExc
  dsimp only
  repeat' split
  all_goals first
    | exact (TileOnly.wr _ _ _ _ _ _ (Or.inr (Or.inl rfl))).trans
        (TileOnly.wr _ _ _ _ _ _ (Or.inr (Or.inr (Or.inl rfl))))
    | exact TileOnly.setFld _ _ _ _ _ _ _ (Or.inr (Or.inl rfl))

/-- An exception touches the records of the exception, the epoch and the queues alone. -/
theorem raiseExc_tileOnly (s : State) (t m tag cause pc addr : Nat) (as : List Nat) :
    TileOnly t as s (raiseExc s t m tag cause pc addr) :=
  (noteExc_tileOnly s t m tag cause pc addr as).trans ((TileOnly.of_msg (withdrawWaits_msgOnly _ t)).trans
    ((TileOnly.setTile t as _ _).trans (TileOnly.of_epoch (closeEpoch_epochOnly _ t) (closeEpoch_regs _ t))))

theorem raiseExc_sameData (s : State) (t m tag cause pc addr : Nat) :
    Tile.SameData (s.tile t) ((raiseExc s t m tag cause pc addr).tile t) := by
  unfold raiseExc
  dsimp only
  rw [(closeEpoch_epochOnly _ t).tile, tile_setTile_self]
  generalize State.acNow _ t = n
  exact stopAll_sameData (s.tile t) n

theorem faultAt_tileOnly (s : State) (t m : Nat) (e : QEnt) (cause addr : Nat) (as : List Nat) :
    TileOnly t as s (faultAt s s t m e cause addr) := by
  unfold faultAt
  split
  · exact raiseExc_tileOnly _ _ _ _ _ _ _ _
  · exact TileOnly.refl t as s

theorem faultAt_sameData (s : State) (t m : Nat) (e : QEnt) (cause addr : Nat) :
    Tile.SameData (s.tile t) ((faultAt s s t m e cause addr).tile t) := by
  unfold faultAt
  split
  · exact raiseExc_sameData _ _ _ _ _ _ _
  · exact Tile.SameData.refl _

theorem fetch1_sameData (x y : Tile) (h : fetch1 x = some y) : Tile.SameData x y := by
  unfold fetch1 at h
  dsimp only at h
  have key : ∀ (m : Strm) (e : QEnt) (n : Nat) (b : Bool),
      (if (x.q m).length < 8 then
        some { x.setQ m (x.q m ++ [e]) with pc := x.pc + n, nextTag := x.nextTag + 1, fetchHold := b }
       else none) = some y → Tile.SameData x y := by
    intro m e n b hy
    split at hy
    · injection hy with hy
      subst hy
      cases m <;> simp [Tile.SameData, Tile.setQ]
    · cases hy
  repeat' (first | exact key _ _ _ _ h | cases h | split at h)

theorem fetchAll_sameData (n : Nat) (x : Tile) : Tile.SameData x (fetchAll n x) := by
  induction n generalizing x with
  | zero => exact Tile.SameData.refl x
  | succ n ih =>
    unfold fetchAll
    split
    · next y h => exact (fetch1_sameData x y h).trans (ih y)
    · exact Tile.SameData.refl x

theorem settle_tileOnly (s : State) (t : Nat) (as : List Nat) : TileOnly t as s (settle s t) := by
  unfold settle
  split
  · exact TileOnly.refl t as s
  · dsimp only
    split
    · exact (TileOnly.setTile _ _ _ _).trans (raiseExc_tileOnly _ _ _ _ _ _ _ _)
    · exact TileOnly.setTile _ _ _ _

theorem settle_sameData (s : State) (t : Nat) : Tile.SameData (s.tile t) ((settle s t).tile t) := by
  unfold settle
  split
  · exact Tile.SameData.refl _
  · dsimp only
    split
    · refine Tile.SameData.trans ?_ (raiseExc_sameData _ _ _ _ _ _ _)
      rw [tile_setTile_self]
      exact fetchAll_sameData _ _
    · rw [tile_setTile_self]
      exact fetchAll_sameData _ _

theorem popHead_sameData (s : State) (t : Nat) (m : Strm) : Tile.SameData (s.tile t) ((popHead s t m).tile t) := by
  unfold popHead
  rw [tile_setTile_self]
  cases m <;> simp [Tile.SameData, Tile.setQ]

/-- The execution of a head without an exception: its effect, then fetch. -/
theorem issue_done {s : State} {t : Nat} {m : Strm} {w0 w1 : BitVec 64} {k : State → QEnt → IssueR} {e : QEnt}
    {u : State} (h : readyHead s t m w0 w1 = some e) (hk : k (popHead s t m) e = .done u) :
    issue s t m w0 w1 k = .next (settle u t) := by
  simp only [issue, h, hk]

/-- The execution of a head that raises an exception, once its stream is clear. -/
theorem issue_exc {s : State} {t : Nat} {m : Strm} {w0 w1 : BitVec 64} {k : State → QEnt → IssueR} {e : QEnt}
    {cause addr : Nat} (h : readyHead s t m w0 w1 = some e) (hk : k (popHead s t m) e = .exc cause addr) :
    issue s t m w0 w1 k = .next (faultAt s s t m.num e cause addr) := by
  simp only [issue, h, hk]

/-- An instruction that is not ready is no event. -/
theorem issue_none {s : State} {t : Nat} {m : Strm} {w0 w1 : BitVec 64} {k : State → QEnt → IssueR}
    (h : readyHead s t m w0 w1 = none) : issue s t m w0 w1 k = .next s := by
  simp only [issue, h]

@[simp] theorem Tile.s_setS (x : Tile) (n : Nat) (v : BitVec 64) (r : Nat) :
    (x.setS n v).s r = if r = n then v else x.s r := by simp [Tile.s, Tile.setS, mget_mset]
@[simp] theorem Tile.v_setV (x : Tile) (n : Nat) (v : BitVec 4096) (r : Nat) :
    (x.setV n v).v r = if r = n then v else x.v r := by simp [Tile.v, Tile.setV, mget_mset]
@[simp] theorem Tile.p_setP (x : Tile) (n : Nat) (v : BitVec 512) (r : Nat) :
    (x.setP n v).p r = if r = n ∧ n ≠ 0 then v else x.p r := by
  by_cases hn : n = 0
  · simp [Tile.setP, hn]
  · by_cases hr : r = n
    · subst hr; simp [Tile.p, Tile.setP, hn]
    · by_cases h0 : r = 0
      · have : ¬ 0 = n := fun e => hn e.symm
        simp [Tile.p, h0, this]
      · simp [Tile.p, Tile.setP, hn, h0, hr, mget_mset]
@[simp] theorem Tile.v_setS (x : Tile) (n : Nat) (v : BitVec 64) (r : Nat) : (x.setS n v).v r = x.v r := rfl
@[simp] theorem Tile.p_setS (x : Tile) (n : Nat) (v : BitVec 64) (r : Nat) : (x.setS n v).p r = x.p r := rfl
@[simp] theorem Tile.s_setV (x : Tile) (n : Nat) (v : BitVec 4096) (r : Nat) : (x.setV n v).s r = x.s r := rfl
@[simp] theorem Tile.p_setV (x : Tile) (n : Nat) (v : BitVec 4096) (r : Nat) : (x.setV n v).p r = x.p r := rfl
@[simp] theorem Tile.s_setP (x : Tile) (n : Nat) (v : BitVec 512) (r : Nat) : (x.setP n v).s r = x.s r := by
  unfold Tile.setP; split <;> rfl
@[simp] theorem Tile.v_setP (x : Tile) (n : Nat) (v : BitVec 512) (r : Nat) : (x.setP n v).v r = x.v r := by
  unfold Tile.setP; split <;> rfl

/-- An instruction that changes its tile alone. -/
theorem issue_tile {s : State} {t : Nat} {m : Strm} {w0 w1 : BitVec 64} {k : State → QEnt → IssueR} {e : QEnt}
    {x : Tile} (h : readyHead s t m w0 w1 = some e) (hk : k (popHead s t m) e = .done ((popHead s t m).setTile t x)) :
    ∃ u, issue s t m w0 w1 k = .next u ∧ Tile.SameData x (u.tile t) ∧ TileOnly t [] s u := by
  refine ⟨_, issue_done h hk, ?_, ?_⟩
  · have := settle_sameData ((popHead s t m).setTile t x) t
    rwa [tile_setTile_self] at this
  · exact (TileOnly.popHead _ _ _ _).trans ((TileOnly.setTile _ _ _ _).trans (settle_tileOnly _ _ _))

/-- An instruction that changes nothing but its queue. -/
theorem issue_same {s : State} {t : Nat} {m : Strm} {w0 w1 : BitVec 64} {k : State → QEnt → IssueR} {e : QEnt}
    (h : readyHead s t m w0 w1 = some e) (hk : k (popHead s t m) e = .done (popHead s t m)) :
    ∃ u, issue s t m w0 w1 k = .next u ∧ Tile.SameData (s.tile t) (u.tile t) ∧ TileOnly t [] s u := by
  refine ⟨_, issue_done h hk, ?_, ?_⟩
  · exact (popHead_sameData s t m).trans (settle_sameData _ t)
  · exact (TileOnly.popHead _ _ _ _).trans (settle_tileOnly _ _ _)

/-- An address that is a register of a tile other than those of exceptions and epochs. -/
theorem not_excReg_flags (t : Nat) : ¬ ExcReg t (regAddr .TILE_FMT_FLAGS (tix t)) := by
  simp only [ExcReg, regAddr, regInfo, infoTILE_FMT_FLAGS, infoTILE_EXC, infoTILE_EXC_ADDR, infoTILE_EPOCH, tix,
    List.zip_cons_cons, List.zip_nil_right, List.map_cons, List.map_nil, List.sum_cons, List.sum_nil]
  rintro (h | h | ⟨k, h⟩) <;> omega

theorem TileOnly.rd {t : Nat} {as : List Nat} {s u : State} (h : TileOnly t as s u) (r : RegId) (ix : List Nat)
    (hn : regAddr r ix ∉ as) (hx : ¬ ExcReg t (regAddr r ix)) : u.rd r ix = s.rd r ix := by
  have ha : u.asm = s.asm := by rw [h.2.1]
  simp only [State.rd, h.2.2 _ hn hx, ha]

/-- An instruction that changes its tile and sets format flags. -/
theorem issue_flags {s : State} {t : Nat} {m : Strm} {w0 w1 : BitVec 64} {k : State → QEnt → IssueR} {e : QEnt}
    {x : Tile} {fl : FFlags} (h : readyHead s t m w0 w1 = some e)
    (hk : k (popHead s t m) e = .done (((popHead s t m).setTile t x).setFlags t fl)) :
    ∃ u, issue s t m w0 w1 k = .next u ∧ Tile.SameData x (u.tile t) ∧
      u.rd .TILE_FMT_FLAGS (tix t) = s.rd .TILE_FMT_FLAGS (tix t) ||| flagBits fl ∧
      TileOnly t [regAddr .TILE_FMT_FLAGS (tix t)] s u := by
  refine ⟨_, issue_done h hk, ?_, ?_, ?_⟩
  · have := settle_sameData (((popHead s t m).setTile t x).setFlags t fl) t
    rwa [tile_setFlags, tile_setTile_self] at this
  · have := (settle_tileOnly (((popHead s t m).setTile t x).setFlags t fl) t []).rd .TILE_FMT_FLAGS (tix t)
      (by simp) (not_excReg_flags t)
    rw [this]
    have hb : b2n fl.ovf + 2 * b2n fl.unf + 4 * b2n fl.inv + (b2n fl.ovf + 2 * b2n fl.unf + 4 * b2n fl.inv) * 256 =
        flagBits fl := by unfold flagBits; omega
    have hl : flagBits fl < 2 ^ 64 := by
      unfold flagBits b2n; split <;> split <;> split <;> decide
    have hr := rd_lt s .TILE_FMT_FLAGS (tix t)
    unfold State.setFlags
    simp only
    rw [rd_wr_self, rd_setTile, hb]
    change (s.rd .TILE_FMT_FLAGS (tix t) ||| flagBits fl) % 2 ^ 64 = _
    exact Nat.mod_eq_of_lt (Nat.or_lt_two_pow hr hl)
  · exact (TileOnly.popHead t _ s m).trans ((TileOnly.setTile t _ (popHead s t m) x).trans
      ((TileOnly.wr t _ ((popHead s t m).setTile t x) .TILE_FMT_FLAGS (tix t) _ (Or.inl (by simp))).trans
        (settle_tileOnly _ _ _)))

end Sys2Proof.Machine
end

