-- ==== Sys2Proof/Laws/Vector.lean ====
section
/-!
SUPPORT. Laws/Vector.lean: the lanes of a vector register after an element-wise update.
-/

namespace Sys2Proof.Machine

theorem vput_testBit (v : BitVec 4096) (off n x i : Nat) (h : off + n ≤ 4096) (hi : i < 4096) :
    (vput v off n x).getLsbD i = if off ≤ i ∧ i < off + n then x.testBit (i - off) else v.getLsbD i := by
  cases n with
  | zero =>
    unfold vput
    have e : v.toNat % 2 ^ off + x % 2 ^ 0 * 2 ^ off + v.toNat >>> (off + 0) * 2 ^ (off + 0) = v.toNat := by
      rw [Nat.pow_zero, Nat.mod_one, Nat.zero_mul, Nat.add_zero, Nat.add_zero, Nat.shiftRight_eq_div_pow,
        Nat.add_comm, Nat.mul_comm]
      exact Nat.div_add_mod _ _
    have : ¬ (off ≤ i ∧ i < off + 0) := by omega
    rw [if_neg this]
    simp only [e, BitVec.getLsbD_ofNat, hi, decide_true, Bool.true_and]
    rfl
  | succ n =>
    have hf := fput_testBit v.toNat ⟨off + n, off⟩ x i (by simp only; omega)
    unfold vput
    unfold fput at hf
    simp only [BitVec.getLsbD_ofNat, hi, decide_true, Bool.true_and]
    have e1 : off + n + 1 - off = n + 1 := by omega
    have e2 : off + (n + 1) = off + n + 1 := by omega
    simp only [e1] at hf
    rw [e2, hf]
    have : (off ≤ i ∧ i ≤ off + n) ↔ (off ≤ i ∧ i < off + n + 1) := by omega
    simp only [this]
    rfl

theorem vbits_testBit (v : BitVec 4096) (off n i : Nat) :
    (vbits v off n).testBit i = (decide (i < n) && v.getLsbD (off + i)) := by
  unfold vbits
  rw [Nat.testBit_mod_two_pow, Nat.testBit_shiftRight]
  rfl

theorem vbits_lt (v : BitVec 4096) (off n : Nat) : vbits v off n < 2 ^ n := Nat.mod_lt _ (Nat.two_pow_pos _)

/-- A lane reads what was put into it. -/
theorem vbits_vput_self (v : BitVec 4096) (off n x : Nat) (h : off + n ≤ 4096) :
    vbits (vput v off n x) off n = x % 2 ^ n := by
  apply Nat.eq_of_testBit_eq
  intro i
  rw [vbits_testBit, Nat.testBit_mod_two_pow]
  by_cases hi : i < n
  · rw [vput_testBit _ _ _ _ _ h (by omega)]
    have : off ≤ off + i ∧ off + i < off + n := by omega
    simp [hi]
  · simp [hi]

/-- A disjoint lane is not touched. -/
theorem vbits_vput_ne (v : BitVec 4096) (off n x o m : Nat) (h : off + n ≤ 4096) (ho : o + m ≤ 4096)
    (hd : o + m ≤ off ∨ off + n ≤ o) : vbits (vput v off n x) o m = vbits v o m := by
  apply Nat.eq_of_testBit_eq
  intro i
  rw [vbits_testBit, vbits_testBit]
  by_cases hi : i < m
  · rw [vput_testBit _ _ _ _ _ h (by omega)]
    have : ¬ (off ≤ o + i ∧ o + i < off + n) := by omega
    rw [if_neg this]
  · simp [hi]

theorem vmapElems_fold (bits : Nat) (p : BitVec 512) (pz : Bool) (g : Nat → Nat × FFlags) (l : List Nat)
    (acc : BitVec 4096 × FFlags) (hb : ∀ i ∈ l, bits * i + bits ≤ 4096) (hn : l.Nodup) (j : Nat)
    (hj : bits * j + bits ≤ 4096) :
    vbits (l.foldl (fun (acc : BitVec 4096 × FFlags) i =>
      if activeAt p bits i then
        let (x, fl) := g i
        (vput acc.1 (bits * i) bits x, acc.2.or fl)
      else if pz then (vput acc.1 (bits * i) bits 0, acc.2) else acc) acc).1 (bits * j) bits =
    (if j ∈ l then (if activeAt p bits j then (g j).1 % 2 ^ bits else if pz then 0 else vbits acc.1 (bits * j) bits)
     else vbits acc.1 (bits * j) bits) := by
  induction l generalizing acc with
  | nil => simp
  | cons i r ih =>
    obtain ⟨hi, hr⟩ := List.nodup_cons.mp hn
    rw [List.foldl_cons, ih _ (fun k hk => hb k (List.mem_cons_of_mem _ hk)) hr]
    have hbi := hb i List.mem_cons_self
    by_cases hji : j = i
    · subst hji
      rw [if_neg hi]
      simp only [List.mem_cons, true_or, if_true]
      split
      · exact vbits_vput_self _ _ _ _ hbi
      · split
        · rw [vbits_vput_self _ _ _ _ hbi]; simp
        · rfl
    · have hsep : ∀ (w : BitVec 4096) (x : Nat), vbits (vput w (bits * i) bits x) (bits * j) bits =
          vbits w (bits * j) bits := by
        intro w x
        apply vbits_vput_ne _ _ _ _ _ _ hbi hj
        rcases Nat.lt_or_gt_of_ne hji with hlt | hgt
        · left
          have := Nat.mul_le_mul_left bits (Nat.succ_le_of_lt hlt)
          rw [Nat.mul_succ] at this; omega
        · right
          have := Nat.mul_le_mul_left bits (Nat.succ_le_of_lt hgt)
          rw [Nat.mul_succ] at this; omega
      have hacc : vbits (if activeAt p bits i then
          (vput acc.1 (bits * i) bits (g i).1, acc.2.or (g i).2)
          else if pz then (vput acc.1 (bits * i) bits 0, acc.2) else acc).1 (bits * j) bits =
          vbits acc.1 (bits * j) bits := by
        split
        · exact hsep _ _
        · split
          · exact hsep _ _
          · rfl
      simp only [List.mem_cons, hji, false_or]
      simp only [hacc]

/-- The lanes of a destination after an element-wise update (R136). -/
theorem vmapElems_lane (bits n : Nat) (p : BitVec 512) (pz : Bool) (old : BitVec 4096) (g : Nat → Nat × FFlags)
    (hn : bits * n ≤ 4096) (j : Nat) (hj : j < n) :
    vbits (vmapElems bits n p pz old g).1 (bits * j) bits =
      if activeAt p bits j then (g j).1 % 2 ^ bits else if pz then 0 else vbits old (bits * j) bits := by
  have hb : ∀ i, i < n → bits * i + bits ≤ 4096 := by
    intro i hi
    have := Nat.mul_le_mul_left bits (Nat.succ_le_of_lt hi)
    rw [Nat.mul_succ] at this; omega
  have := vmapElems_fold bits p pz g (List.range n) (old, FFlags.none)
    (fun i hi => hb i (List.mem_range.mp hi)) List.nodup_range j (hb j hj)
  unfold vmapElems
  rw [this, if_pos (List.mem_range.mpr hj)]

theorem vmapElems_flagsFold (bits : Nat) (p : BitVec 512) (pz : Bool) (g : Nat → Nat × FFlags) (l : List Nat)
    (acc : BitVec 4096 × FFlags) :
    (l.foldl (fun (acc : BitVec 4096 × FFlags) i =>
      if activeAt p bits i then
        let (x, fl) := g i
        (vput acc.1 (bits * i) bits x, acc.2.or fl)
      else if pz then (vput acc.1 (bits * i) bits 0, acc.2) else acc) acc).2 =
    l.foldl (fun a i => if activeAt p bits i then a.or (g i).2 else a) acc.2 := by
  induction l generalizing acc with
  | nil => rfl
  | cons i r ih =>
    rw [List.foldl_cons, List.foldl_cons, ih]
    congr 1
    split
    · rfl
    · split <;> rfl

/-- The flags of an element-wise update are those of its active lanes. -/
theorem vmapElems_flags (bits n : Nat) (p : BitVec 512) (pz : Bool) (old : BitVec 4096) (g : Nat → Nat × FFlags) :
    (vmapElems bits n p pz old g).2 = laneFlags n bits p g := vmapElems_flagsFold bits p pz g _ _

end Sys2Proof.Machine
end

