-- ==== Sys2Proof/WellFormed.lean ====
section
/-!
DEFINITION. WellFormed.lean: the commands whose operands name parts that the largest assembly has (R3): a tile, a Span, a
Pier, a mailbox, a ring, a port, a core or a table row that is there. Every meaning is total, on the others too.
-/

namespace Sys2Proof

/-- One of the 512 active tiles (R2). -/
def inTile (t : Nat) : Bool := decide (t < 512)

/-- One of the eight Spans (R2). -/
def inSpan (p : Nat) : Bool := decide (p < 8)

/-- One of at most four Piers (R3). -/
def inPier (p : Nat) : Bool := decide (p < 4)

/-- A mailbox: of a context, the system one (256) or calls over MCTP (257). -/
def inMbox (m : Nat) : Bool := decide (m < 258)

/-- One of the 4,096 rings (R359). -/
def inRing (r : Nat) : Bool := decide (r < 4096)

/-- A Claden-D port of a Span, the Keystone (8) or a Pier (9 onward). -/
def portOk (die port : Nat) : Bool :=
  if die < 8 then decide (port < 30) else if die = 8 then decide (port < 24) else decide (die < 13) && decide (port < 10)

/-- The operands of a command name what a module has. -/
def Instr.wf : Instr → Bool
  | .registerWrite _ _ _ _ _ _ => true
  | .coldReset => true
  | .moduleReset _ _ _ => true
  | .modResetRelease _ => true
  | .pwrEnRise => true
  | .pwrGoodRise => true
  | .pwrEnFall => true
  | .vinOutOfRange _ _ => true
  | .converterRestart => true
  | .boardSensorRead _ _ => true
  | .svcModInfo m => inMbox m
  | .svcCntOffset m _ _ _ => inMbox m
  | .svcPwrMode m _ => inMbox m
  | .svcIntegrityMode m c _ => inMbox m && decide (c < 256)
  | .svcActProtect m c _ => inMbox m && decide (c < 256)
  | .svcOrderMode m c _ => inMbox m && decide (c < 256)
  | .powerModeWrite _ => true
  | .ctxModeWrite c _ => decide (c < 256)
  | .policyTakeover _ => true
  | .policyHandback _ => true
  | .policyAckChange _ => true
  | .policyAckTimeout _ => true
  | .attrInval _ => true
  | .attrInvalDone => true
  | .svcMemAlloc m c _ _ _ _ _ => inMbox m && decide (c < 256)
  | .svcMemFree m _ => inMbox m
  | .svcPageAttr m _ _ => inMbox m
  | .svcPageSetClass m _ _ => inMbox m
  | .svcRawHbmAttr m _ _ => inMbox m
  | .svcRawHostWin m _ _ => inMbox m
  | .svcModId m _ _ => inMbox m
  | .svcCopy m _ _ _ _ => inMbox m
  | .coreLoadStore c _ _ _ _ _ => decide (c < 64)
  | .hostMemRequest _ _ => true
  | .pcieMemRead pier _ _ _ => inPier pier
  | .pcieMemWrite pier _ _ _ _ => inPier pier
  | .peerMemAccess _ _ _ _ => true
  | .movingHoldTimeout _ => true
  | .pageMoveDone _ _ => true
  | .pageMoveAbandon _ => true
  | .fmtDescWrite t n _ => inTile t && decide (n < 16)
  | .srSeedWrite t _ => inTile t
  | .amaxRoll t n _ => inTile t && decide (n < 16)
  | .svcFmtDesc m ts n _ => inMbox m && ts.all inTile && decide (n < 16)
  | .svcFmtUser m ts _ => inMbox m && ts.all inTile
  | .svcSrSeed m ts _ => inMbox m && ts.all inTile
  | .svcFmtFlags m ts _ => inMbox m && ts.all inTile
  | .svcFmtReport m ts _ => inMbox m && ts.all inTile
  | .svcAmax m ts n _ _ => inMbox m && ts.all inTile && decide (n < 16)
  | .nop t _ => inTile t
  | .end_ t _ => inTile t
  | .add t _ => inTile t
  | .sub t _ => inTile t
  | .and_ t _ => inTile t
  | .or_ t _ => inTile t
  | .xor_ t _ => inTile t
  | .sll t _ => inTile t
  | .srl t _ => inTile t
  | .sra t _ => inTile t
  | .mul t _ => inTile t
  | .slt t _ => inTile t
  | .sltu t _ => inTile t
  | .min_ t _ => inTile t
  | .max_ t _ => inTile t
  | .li t _ _ => inTile t
  | .ld t _ => inTile t
  | .st t _ _ => inTile t
  | .loadDataReturn t _ _ => inTile t
  | .br t _ => inTile t
  | .jal t _ => inTile t
  | .jalr t _ => inTile t
  | .tcr t _ => inTile t
  | .tcw t _ => inTile t
  | .tileFaulted t => inTile t
  | .vadd t _ => inTile t
  | .vsub t _ => inTile t
  | .vmul t _ => inTile t
  | .vfma t _ => inTile t
  | .vmin t _ => inTile t
  | .vmax t _ => inTile t
  | .vabs t _ => inTile t
  | .vneg t _ => inTile t
  | .vand t _ => inTile t
  | .vor t _ => inTile t
  | .vxor t _ => inTile t
  | .vshl t _ => inTile t
  | .vshr t _ => inTile t
  | .vcmp t _ => inTile t
  | .vcvt t _ => inTile t
  | .vred t _ => inTile t
  | .vexp2 t _ => inTile t
  | .vrcp t _ => inTile t
  | .vrsq t _ => inTile t
  | .vld t _ => inTile t
  | .vst t _ _ => inTile t
  | .vgather t _ => inTile t
  | .vscatter t _ => inTile t
  | .vsplat t _ => inTile t
  | .vget t _ => inTile t
  | .vmov t _ => inTile t
  | .plogic t _ => inTile t
  | .mma t _ => inTile t
  | .mmaEnter t => inTile t
  | .mmaFinal t => inTile t
  | .mmaVerdict t _ => inTile t
  | .tileRetire t => inTile t
  | .drain t _ => inTile t
  | .drainStart t => inTile t
  | .drainRelease t => inTile t
  | .drainWriteDone t => inTile t
  | .aroll t _ => inTile t
  | .injOnce t => inTile t
  | .svcMmaTest m t _ _ => inMbox m && inTile t
  | .svcMmaStats m t => inMbox m && inTile t
  | .svcTileMap m span => inMbox m && inSpan span
  | .tileStart t _ => inTile t
  | .tileReset t _ => inTile t
  | .tileResetDone t => inTile t
  | .tilePreempt t _ => inTile t
  | .preemptSaveDone t => inTile t
  | .tileRestore t _ => inTile t
  | .restoreDone t => inTile t
  | .tileAbort t _ => inTile t
  | .tileDisable t _ => inTile t
  | .imemLoad t _ _ => inTile t
  | .imemLoadDone t _ => inTile t
  | .svcTileStatus m t => inMbox m && inTile t
  | .svcTilePreempt m t _ => inMbox m && inTile t
  | .svcTileDisable m t _ => inMbox m && inTile t
  | .svcTileReset m t => inMbox m && inTile t
  | .mov t _ => inTile t
  | .movRetire t _ _ _ => inTile t
  | .writeResponse t _ _ => inTile t
  | .fence t _ => inTile t
  | .fenceComplete t => inTile t
  | .ldr t _ => inTile t
  | .stc t _ => inTile t
  | .stcResult t _ => inTile t
  | .ecut t _ _ => inTile t
  | .epochAutoClose t => inTile t
  | .sinit t _ => inTile t
  | .sarrive t _ => inTile t
  | .swaitg t _ => inTile t
  | .sbar t _ => inTile t
  | .sadd t _ => inTile t
  | .swaitv t _ => inTile t
  | .sread t _ => inTile t
  | .stayCounterRequest _ => true
  | .stayAck t _ _ _ _ => inTile t
  | .stayRelease t _ _ _ => inTile t
  | .stayWaitRetry t _ => inTile t
  | .stayWaitProbe _ => true
  | .stayWaitTimeout t _ => inTile t
  | .svcStayAlloc m _ c _ _ => inMbox m && decide (c < 256)
  | .collRegister n _ _ => decide (n < 64)
  | .collRelease n _ => decide (n < 64)
  | .collActiveSet n _ _ => decide (n < 64)
  | .collActiveClear n _ _ => decide (n < 64)
  | .collAbort n _ _ => decide (n < 64)
  | .epochTaggedWrite pier _ _ _ _ _ _ _ => inPier pier
  | .epochArrivalReport pier _ _ => inPier pier
  | .epochConfirmReceived _ _ _ => true
  | .epochRevokeReceived _ _ => true
  | .epochGateTimeout _ => true
  | .latDoorbell pier q _ => inPier pier && decide (q < 16)
  | .latSeqReread pier q _ => inPier pier && decide (q < 16)
  | .reduce pier q _ => inPier pier && decide (q < 16)
  | .iscatter pier q _ => inPier pier && decide (q < 16)
  | .igather pier q _ => inPier pier && decide (q < 16)
  | .latFrame pier port _ _ _ _ _ _ _ => inPier pier && decide (port < 6)
  | .latRowArrival pier _ _ => inPier pier
  | .latDescComplete pier q _ _ => inPier pier && decide (q < 16)
  | .latPortTimeout pier q port => inPier pier && decide (q < 16) && decide (port < 6)
  | .latQDisable pier q _ => inPier pier && decide (q < 16)
  | .svcCollRegister m n _ _ _ _ _ => inMbox m && decide (n < 64)
  | .svcCollRelease m n => inMbox m && decide (n < 64)
  | .svcCollAbort m n => inMbox m && decide (n < 64)
  | .svcCollPhase m n _ => inMbox m && decide (n < 64)
  | .svcRevokeLog m _ => inMbox m
  | .svcEpochStat m _ => inMbox m
  | .svcLatDisable m _ _ _ => inMbox m
  | .svcLatStats m _ _ => inMbox m
  | .accessLinkTimeout t _ => decide (t ≤ 512)
  | .holdLimitDiscard t _ => inTile t
  | .holdSend _ _ => true
  | .holdReceived _ => true
  | .pdDrainTimeout _ => true
  | .svcRsvGran m c _ => inMbox m && decide (c < 256)
  | .svcOrdStats m t => inMbox m && inTile t
  | .svcLinkStatus m _ _ _ => inMbox m
  | .rds _ _ => true
  | .rdu _ _ => true
  | .upg _ _ => true
  | .rdo _ _ => true
  | .wru _ _ _ _ _ => true
  | .wb _ _ _ => true
  | .evc _ _ => true
  | .compack _ _ => true
  | .snps _ _ => true
  | .snpu _ _ => true
  | .snpi _ _ => true
  | .snpx _ _ => true
  | .snpo _ _ => true
  | .data _ _ => true
  | .grant _ _ => true
  | .comp _ _ => true
  | .nack _ _ => true
  | .nackRetry _ _ => true
  | .fwddata _ _ => true
  | .rspi _ _ _ _ => true
  | .rsps _ _ _ _ => true
  | .rspo _ _ _ _ => true
  | .rspdata _ _ _ => true
  | .wbAccepted span _ => inSpan span
  | .hostSnoop _ _ => true
  | .hostSnoopTimeout _ => true
  | .injCe home => decide (home < 13)
  | .injUe home => decide (home < 13)
  | .svcCohStats m h _ => inMbox m && decide (h < 13)
  | .svcCohTest m h _ _ => inMbox m && decide (h < 13)
  | .vebWriteback span => inSpan span
  | .clean span _ => inSpan span
  | .inval span _ => inSpan span
  | .cleanInval span _ => inSpan span
  | .cmaintAbort span => inSpan span
  | .cmaintDone span _ => inSpan span
  | .cacheDisable span => inSpan span
  | .cacheDisableDone span => inSpan span
  | .cacheEnable span _ => inSpan span
  | .skeinWaysWrite span _ => inSpan span
  | .svcCacheMaint m span _ _ _ _ => inMbox m && inSpan span
  | .svcSpanCacheDisable m span _ => inMbox m && inSpan span
  | .svcSpanCacheEnable m span => inMbox m && inSpan span
  | .svcCacheStats m span => inMbox m && inSpan span
  | .hbmAccess _ _ _ _ _ _ => true
  | .scrubRead _ _ => true
  | .scrubPoisonReport _ _ => true
  | .hbmTempReading stack _ => decide (stack < 12)
  | .hbmCoolTimeout stack => decide (stack < 12)
  | .thrCurveWrite _ _ => true
  | .fclassWrite _ _ => true
  | .channelRetire _ => true
  | .regionReform _ => true
  | .regionReformDone _ => true
  | .svcHbmThrottle m _ _ _ => inMbox m
  | .svcHbmScrub m _ => inMbox m
  | .svcHbmStats m _ _ => inMbox m
  | .ageingSweep => true
  | .trDoorbell span _ => inSpan span
  | .trestleSeqReread span => inSpan span
  | .trestleLayerFetch span => inSpan span
  | .trestleLayerReady span _ => inSpan span
  | .trestleMiss span _ => inSpan span
  | .trestleLineRetry span _ _ _ _ => inSpan span
  | .trestleGo span _ => inSpan span
  | .trestleDisable span _ => inSpan span
  | .svcFarPool m _ => inMbox m
  | .svcPoolSet m c _ _ => inMbox m && decide (c < 256)
  | .svcPoolStats m c => inMbox m && decide (c < 256)
  | .svcPlaceTune m _ => inMbox m
  | .svcRawReserve m _ _ _ => inMbox m
  | .svcObjRepair m _ _ _ => inMbox m
  | .svcTrestleCfg m span _ _ _ => inMbox m && inSpan span
  | .svcTrestlePost m span _ _ => inMbox m && inSpan span
  | .svcTrestleDisable m span _ => inMbox m && inSpan span
  | .svcTrestleStats m span => inMbox m && inSpan span
  | .hwinProgram _ => true
  | .ringEnable r _ => inRing r
  | .ringEnClear r _ => inRing r
  | .ringDoorbell r _ => inRing r
  | .ringSlotRead r _ => inRing r
  | .ringSlotReread r _ => inRing r
  | .dispatchStart _ => true
  | .marker r => inRing r
  | .dispatchHeadStarve r => inRing r
  | .dispatchComplete r _ => inRing r
  | .ringAbort r _ => inRing r
  | .ringDisable r _ => inRing r
  | .hostLinkLoss => true
  | .hostLinkReset => true
  | .clcEpReset _ => true
  | .parkDrainTimeout => true
  | .parkEnter => true
  | .svcRingCreate m r _ _ _ => inMbox m && inRing r
  | .svcRingDestroy m r => inMbox m && inRing r
  | .svcDispatchAbort m r _ => inMbox m && inRing r
  | .svcRingDisable m r _ => inMbox m && inRing r
  | .svcRingStatus m r => inMbox m && inRing r
  | .svcClcCfg m _ _ => inMbox m
  | .svcClcReset m => inMbox m
  | .svcReattach m _ => inMbox m
  | .svcClcStatus m => inMbox m
  | .coreReset c _ => decide (c < 64)
  | .coreHold c _ => decide (c < 64)
  | .hartHeartbeatTimeout h => decide (h < 4)
  | .lockstepMismatch => true
  | .hartReloadDone h => decide (h < 4)
  | .mboxCallComplete _ => true
  | .mboxCallTimeout _ => true
  | .qsExclWrite span _ => inSpan span
  | .svcCoreStatus m c => inMbox m && decide (c < 64)
  | .svcCoreReset m c _ => inMbox m && decide (c < 64)
  | .svcCorePower m _ => inMbox m
  | .svcQsExclude m span _ => inMbox m && inSpan span
  | .cldStateDone die port _ _ _ => portOk die port
  | .cldStateTimeout die port _ => portOk die port
  | .cldTrainerrorExpire die port => portOk die port
  | .cldRetrainRequest die port => portOk die port
  | .cldCrcFail die port _ => portOk die port
  | .cldProbationEnd die port => portOk die port
  | .cldReplayWindow die port => portOk die port
  | .cldL1Entry die port => portOk die port
  | .cldRetrain die port _ => portOk die port
  | .clxStateDone l _ _ => decide (l < 24)
  | .clxStateTimeout l => decide (l < 24)
  | .clxTrainerrorExpire l => decide (l < 24)
  | .clxIdleTimeout l => decide (l < 24)
  | .clxFlitError l _ => decide (l < 24)
  | .clxLaneWindow l _ _ => decide (l < 24)
  | .clxLinkEnable l _ => decide (l < 24)
  | .clxRetrain l _ => decide (l < 24)
  | .clxLinkRetire l _ => decide (l < 24)
  | .clxLaneRetire l _ => decide (l < 24)
  | .routeWrite m _ => decide (m < 32768)
  | .lostClear n _ => decide (n < 512)
  | .upNotice m => decide (m < 32768)
  | .stayForward pier _ _ _ _ _ => inPier pier
  | .stayForwardTimeout _ => true
  | .svcLinkRoute m _ _ _ => inMbox m
  | .svcLinkRetrain m _ _ _ => inMbox m
  | .svcLinkEnable m l _ => inMbox m && decide (l < 24)
  | .svcLinkTest m die port _ => portOk die port && inMbox m
  | .powerEstimate _ => true
  | .guardStep => true
  | .tensionRecalibrate _ => true
  | .tensionControlStep _ _ => true
  | .capDeferExpire => true
  | .voltageRampDone _ => true
  | .pllLockDone _ => true
  | .droopTrip span => inSpan span
  | .droopQuiet span _ => inSpan span
  | .freqChangeAbandon _ => true
  | .vrAlertAssert _ => true
  | .vrAlertRelease => true
  | .tempSensorRead _ _ => true
  | .refClockLoss => true
  | .refHoldExpire => true
  | .userCapWrite _ => true
  | .targetWrite _ _ => true
  | .vfCurveWrite span n _ => inSpan span && decide (n < 16)
  | .tileGroupPower span _ => inSpan span
  | .coreGroupPower _ => true
  | .pierDomainPower _ => true
  | .domainWakeDone _ => true
  | .tileGroupIdleOff span g => inSpan span && decide (g < 8)
  | .svcPwrCap m _ => inMbox m
  | .svcPdSet m _ _ => inMbox m
  | .svcPwrStats m span => inMbox m && inSpan span
  | .retireBucketLeak _ _ => true
  | .retireTblWrite row _ => decide (row < 32)
  | .coreRetire _ => true
  | .contReq _ => true
  | .containmentFlush _ => true
  | .hostRecallTimeout => true
  | .containmentSelftestDone _ => true
  | .containmentDone => true
  | .contResume _ => true
  | .gaugeDue _ => true
  | .gaugeDeferExpire _ => true
  | .gaugeOverdue _ => true
  | .gaugeTestDone _ _ _ => true
  | .gaugeReq _ => true
  | .svcErrLog m _ _ => inMbox m
  | .svcErrClear m _ _ => inMbox m
  | .svcRetireTbl m row _ => inMbox m && decide (row < 32)
  | .svcGaugeCfg m _ => inMbox m
  | .svcGaugeRun m _ => inMbox m
  | .svcContTest m => inMbox m
  | .svcRasResume m => inMbox m
  | .svcRasStatus m => inMbox m
  | .svcGaugeStatus m => inMbox m
  | .settingsStore _ => true
  | .settingsCommitDone => true
  | .settingsDefault _ => true
  | .bootSelect _ => true
  | .bootConfirm _ => true
  | .trialExpire => true
  | .castoff _ => true
  | .castoffDrainTimeout => true
  | .castoffDone => true
  | .bootModReset _ => true
  | .bootRecovery _ => true
  | .castOnStageDone _ _ _ => true
  | .castOnTimeout => true
  | .aliasKeyReady => true
  | .svcSettingsStore m => inMbox m
  | .svcSettingsDefault m => inMbox m
  | .svcImageWrite m slot _ _ _ => inMbox m && decide (slot < 2)
  | .svcImageSelect m slot => inMbox m && decide (slot < 2)
  | .svcImageConfirm m => inMbox m
  | .svcBootStatus m => inMbox m
  | .svcModReset m _ => inMbox m
  | .svcCastoff m => inMbox m
  | .svcIdStatus m => inMbox m
  | .svcBoardStatus m => inMbox m
  | .mctpControlMsg _ _ => true
  | .mctpVendorMsg _ => true
  | .getVersion => true
  | .getCapabilities => true
  | .negotiateAlgorithms _ _ => true
  | .getDigests => true
  | .getCertificate _ => true
  | .challenge _ => true
  | .getMeasurements _ _ => true
  | .refClockReturn => true
  | .refClockStable => true
  | .pwrGoodResetDelayExpire => true
  | .pwrEnLowHoldExpire => true
  | .hostLinkTrained _ _ => true
  | .hostResponseAtFarHome _ _ _ _ _ => true
  | .winHoldExpire _ => true
  | .tileAbortDone t => inTile t
  | .coreResetDone c => decide (c < 64)

end Sys2Proof
end

