-- ==== Sys2Proof/Tests/Slice0.lean ====
section
/-!
SUPPORT. Tests/Slice0.lean: ill-formed commands, instruction words written out from the spec's encodings, the memory a
reset leaves, and for the statements a concrete state and operands that meet their hypotheses (test_meets_<statement>).
-/

namespace Sys2Proof.Tests

open Sys2Proof Sys2Proof.Machine

set_option Elab.async false

/-! Ill-formed commands, one for each check. -/

/-- Fields of layout S: predicate 0, second operand an immediate of 5, RD 2, RS1 1. -/
def insS : InsS := ⟨0, 1, 2, 1, 0, 0, 5⟩

theorem test_wf_tile : Instr.wf (.add 511 insS) = true ∧ Instr.wf (.add 512 insS) = false := by decide
theorem test_wf_span : Instr.wf (.droopTrip 7) = true ∧ Instr.wf (.droopTrip 8) = false := by decide
theorem test_wf_pier : Instr.wf (.latDoorbell 4 0 0) = false := by decide
theorem test_wf_queue : Instr.wf (.latDoorbell 3 15 0) = true ∧ Instr.wf (.latDoorbell 3 16 0) = false := by decide
theorem test_wf_mailbox : Instr.wf (.svcModInfo 257) = true ∧ Instr.wf (.svcModInfo 258) = false := by decide
theorem test_wf_ring : Instr.wf (.ringDisable 4095 0) = true ∧ Instr.wf (.ringDisable 4096 0) = false := by decide
theorem test_wf_hart : Instr.wf (.hartReloadDone 3) = true ∧ Instr.wf (.hartReloadDone 4) = false := by decide
theorem test_wf_home : Instr.wf (.injCe 12) = true ∧ Instr.wf (.injCe 13) = false ∧ Instr.wf (.svcCohStats 0 13 0) = false := by
  decide
theorem test_wf_stack : Instr.wf (.hbmCoolTimeout 11) = true ∧ Instr.wf (.hbmCoolTimeout 12) = false := by decide
theorem test_wf_link : Instr.wf (.clxStateTimeout 23) = true ∧ Instr.wf (.clxStateTimeout 24) = false := by decide
theorem test_wf_port : Instr.wf (.cldL1Entry 0 29) = true ∧ Instr.wf (.cldL1Entry 0 30) = false ∧
    Instr.wf (.cldL1Entry 8 24) = false ∧ Instr.wf (.cldL1Entry 9 10) = false ∧ Instr.wf (.cldL1Entry 13 0) = false := by decide
theorem test_wf_lattice_port : Instr.wf (.latPortTimeout 0 0 6) = false := by decide
theorem test_wf_context : Instr.wf (.ctxModeWrite 255 0) = true ∧ Instr.wf (.ctxModeWrite 256 0) = false := by decide
theorem test_wf_core : Instr.wf (.coreResetDone 63) = true ∧ Instr.wf (.coreResetDone 64) = false := by decide
theorem test_wf_row : Instr.wf (.retireTblWrite 31 0) = true ∧ Instr.wf (.retireTblWrite 32 0) = false := by decide
theorem test_wf_slot : Instr.wf (.svcImageSelect 256 1) = true ∧ Instr.wf (.svcImageSelect 256 2) = false := by decide
theorem test_wf_collective : Instr.wf (.collRelease 63 0) = true ∧ Instr.wf (.collRelease 64 0) = false := by decide
theorem test_wf_entry : Instr.wf (.fmtDescWrite 0 15 0) = true ∧ Instr.wf (.fmtDescWrite 0 16 0) = false := by decide
theorem test_wf_module : Instr.wf (.upNotice 32767) = true ∧ Instr.wf (.upNotice 32768) = false := by decide
theorem test_wf_lost_word : Instr.wf (.lostClear 511 0) = true ∧ Instr.wf (.lostClear 512 0) = false := by decide
theorem test_wf_group : Instr.wf (.tileGroupIdleOff 0 7) = true ∧ Instr.wf (.tileGroupIdleOff 0 8) = false := by decide

/-! Instruction words, written out field by field (R153, R163, R164, R180, R187, R189, R198). -/

/-- Bits of fields from the highest to the lowest, as value and width. -/
def packFields (l : List (Nat × Nat)) : Nat := l.foldl (fun w f => w * 2 ^ f.2 + f.1 % 2 ^ f.2) 0

/-- ADD s2, s1, 5: IMM32 5, FUNC 0, RS2 0, RS1 1, RD 2, I 1, PRED 0, W2 0, opcode 0x02. -/
theorem test_word_add : encS 0x02 insS = BitVec.ofNat 64 (packFields [(5, 32), (0, 4), (0, 5), (1, 5), (2, 5), (1, 1), (0, 3), (0, 1), (0x02, 8)]) ∧
    decS (encS 0x02 insS) = insS := by decide +kernel
/-- VADD v3, v1, v2 of FP32: IMM12 0, reserved 0, FUNC 0, PD 0, BS 0, SS 0, FMT2 0, FMT 1, VS3 0, VS2 2, VS1 1, VD 3. -/
theorem test_word_vadd : encV 0x40 ⟨0, 0, 3, 1, 2, 0, 1, 0, 0, 0, 0, 0, 0⟩ = BitVec.ofNat 64 (packFields [(0, 12), (0, 2), (0, 4), (0, 3),
    (0, 1), (0, 5), (0, 4), (1, 4), (0, 4), (2, 4), (1, 4), (3, 4), (0, 1), (0, 3), (0, 1), (0x40, 8)]) := by decide +kernel
/-- MMA of shape 1 into bank 1 with ZERO: SB 6, SA 5, FB 10, FA 10; M 32, N 512 and K 64 less one in the second word. -/
theorem test_word_mma : encMma ⟨1, 1, 1, 10, 10, 5, 6, 31, 511, 63⟩ =
    (BitVec.ofNat 64 (packFields [(0, 30), (6, 5), (5, 5), (10, 4), (10, 4), (1, 1), (1, 1), (1, 2), (0, 3), (1, 1), (0x80, 8)]),
     BitVec.ofNat 64 (packFields [(0, 31), (63, 15), (511, 11), (31, 7)])) := by decide +kernel
/-- DRAIN of bank 0 to slot 10 under AMAX 3, SD 7; rows 0 to 31, columns 0 to 511. -/
theorem test_word_drain : encDrain ⟨0, 10, 3, 7, 0, 31, 0, 511⟩ =
    (BitVec.ofNat 64 (packFields [(0, 38), (7, 5), (3, 4), (10, 4), (0, 1), (0, 3), (1, 1), (0x81, 8)]),
     BitVec.ofNat 64 (packFields [(0, 28), (511, 11), (0, 11), (31, 7), (0, 7)])) := by decide +kernel
/-- MOV: HINT 1, STRM 4, DSP 1, SSP 0, SL 3, SD 2, SS 1; DSTRIDE 256, SSTRIDE 128, ROWS_M1 7. -/
theorem test_word_mov : encMov ⟨0, 1, 2, 3, 0, 1, 4, 1, 7, 128, 256⟩ =
    (BitVec.ofNat 64 (packFields [(0, 29), (1, 2), (4, 4), (1, 1), (0, 1), (3, 5), (2, 5), (1, 5), (0, 3), (1, 1), (0xC0, 8)]),
     BitVec.ofNat 64 (packFields [(0, 4), (256, 24), (128, 24), (7, 12)])) := by decide +kernel
/-- FENCE into s4 with SCOPE 2, TYPE 1 and SMASK 0x00F0; LDR of 8 bytes at s1 + 16 into s2; SWAITV. -/
theorem test_word_fence : encFence ⟨0, 4, 2, 1, 0x00F0⟩ = BitVec.ofNat 64 (packFields [(0, 27), (0x00F0, 16), (1, 2), (2, 2), (4, 5), (0, 3), (0, 1), (0xC1, 8)]) ∧
    encRsv 0xC2 ⟨0, 2, 1, 3, 0, 0, 16⟩ = BitVec.ofNat 64 (packFields [(0, 22), (16, 12), (0, 5), (0, 1), (3, 2), (1, 5), (2, 5), (0, 3), (0, 1), (0xC2, 8)]) ∧
    encStay 0xD5 ⟨0, 3, 1, 2, 1, 4⟩ = BitVec.ofNat 64 (packFields [(0, 32), (4, 3), (1, 2), (2, 5), (1, 5), (3, 5), (0, 3), (0, 1), (0xD5, 8)]) := by
  decide +kernel
/-- A reserved bit, a wrong W2, an unassigned opcode and an undefined sub-operation are illegal (R152). -/
theorem test_word_illegal : insnLegal (encS 0x02 insS) 0 = true ∧ insnLegal (encS 0x00 { insS with rd := 1 }) 0 = false ∧
    insnLegal (encS 0x02 insS + 256) 0 = false ∧ insnLegal 0x17 0 = false ∧ insnLegal (encS 0x12 ⟨0, 0, 0, 1, 2, 6, 8⟩) 0 = false := by
  decide +kernel

/-! The state right after reset, and the block's queue. -/

theorem test_reset_memory : (Memory.wf (State.reset.tile 0).mem &&
    Memory.wf (State.reset.tile 511).mem) = true := by decide +kernel
theorem test_reset_cast_on : (castOnGoes State.reset && decide (coldReset State.reset = State.reset)) = true := by
  decide +kernel
theorem test_queue : (State.reset.withFetchWord 8 0).pending = [] := rfl
theorem test_meets_StepTakesFrontCommand : ({ State.reset with pending := [.guardStep] } : State).pending = .guardStep :: [] ∧
    State.reset.pending = [] ∧ State.reset.up = true ∧
    ({ State.reset with board := { State.reset.board with pwrGood := false } } : State).up = false ∧ Still State.reset := by
  unfold Still
  decide +kernel

/-! Tile instructions: an instruction at the head of its stream in tile 0. -/

/-- Tile 0 is RUNNING with the given registers and queues. -/
def tileAt (x : Tile) : State := (State.reset.setFld .TILE_STAT (tix 0) TILE_STAT.STATE 1).setTile 0 x

/-- A queued instruction. -/
def ent (w0 w1 : BitVec 64) : QEnt := ⟨0, 0, 0, w0, w1, 0, none⟩

/-- A tile with one instruction in a stream. -/
def headOf (m : Strm) (w0 w1 : BitVec 64) (x : Tile := Tile.zero) : State := tileAt (x.setQ m [ent w0 w1])

/-- The instruction is at the head of its stream, and nothing holds it. -/
def ready (m : Strm) (w0 w1 : BitVec 64) (x : Tile := Tile.zero) : Bool :=
  readyHead (headOf m w0 w1 x) 0 m w0 w1 == some (ent w0 w1)

/-- Fields of layout V. -/
def insV (fmt fmt2 : BitVec 4) (func : BitVec 4) (imm : BitVec 12) : InsV := ⟨0, 0, 1, 2, 3, 0, fmt, fmt2, 4, 0, 1, func, imm⟩

/-- p1 is no predicate that holds, s1 is 64, s4 is 1024. -/
def tx : Tile := (Tile.zero.setS 1 64).setS 4 1024

theorem test_meets_ScalarResults : (ready .scalar (encS 0 ⟨0, 0, 0, 0, 0, 0, 0⟩) 0 && ready .scalar (encLi insS) 7 &&
    scalarOps.all (fun p => ready .scalar (encS p.2.1 insS) 0)) = true := by decide +kernel

theorem test_meets_BranchesAndJumps : (ready .scalar (encS 0x12 ⟨0, 0, 0, 1, 2, 1, 8⟩) 0 tx &&
    ready .scalar (encS 0x12 ⟨0, 0, 0, 1, 2, 1, 4⟩) 0 tx &&
    ready .scalar (encS 0x12 ⟨1, 0, 0, 1, 2, 1, 8⟩) 0 tx && ready .scalar (encS 0x13 ⟨0, 0, 1, 0, 0, 0, 16⟩) 0 &&
    ready .scalar (encS 0x13 ⟨0, 0, 1, 0, 0, 0, 0x20000⟩) 0 && ready .scalar (encS 0x13 ⟨1, 0, 1, 0, 0, 0, 16⟩) 0 &&
    ready .scalar (encS 0x14 ⟨0, 0, 1, 1, 0, 0, 8⟩) 0 tx && ready .scalar (encS 0x14 ⟨0, 0, 1, 1, 0, 0, 4⟩) 0 tx &&
    tx.predOn 0 && !tx.predOn 1 &&
    decide (tx.s 1 ≠ tx.s 2)) = true ∧ branchTaken 1 (tx.s 1) (tx.s 2) ∧ ¬ badTarget 8 ∧ badTarget 4 ∧ badTarget 0x20000 := by
  refine ⟨by decide +kernel, Or.inr (Or.inl ⟨rfl, by decide +kernel⟩), ?_, ?_, ?_⟩ <;> unfold badTarget <;> decide

/-- TCR and TCW at the first and last index of each range (R158). -/
theorem test_meets_TileControlRegisters : ([0, 15, 16, 31, 0x20, 0x26, 0x27, 0x28].all (fun i => ready .scalar (encS 0x15 ⟨0, 0, 3, 0, 0, 0, i⟩) 0) &&
    [0, 15, 16, 31, 0x20, 0x21, 0x22, 0x23].all (fun i => ready .scalar (encS 0x16 ⟨0, 0, 0, 1, 0, 0, i⟩) 0 tx) &&
    ready .scalar (encS 0x15 ⟨1, 0, 3, 0, 0, 0, 0⟩) 0 && ready .scalar (encS 0x16 ⟨1, 0, 0, 1, 0, 0, 0⟩) 0 &&
    (fmtDescWrite 0 (State.reset.rd .FMT_DESC (tix 0 ++ [0])) 0).isSome &&
    (fmtDescWrite 15 (State.reset.rd .FMT_DESC (tix 0 ++ [15])) (2 ^ 64 - 1)).isNone &&
    (tcReg 0 0x26).isSome && (tcReg 0 0x27).isNone && (tx.s 1).getLsbD 63 == false) = true := by decide +kernel

theorem test_meets_ElementwiseResults : (elementOps.all (fun p => (elementSlots p.2).all (fun k => ready .vector (encV p.2 (insV (BitVec.ofNat 4 k) 0 0 0)) 0) &&
    ready .vector (encV p.2 (insV 2 0 0 0)) 0 && !(elementSlots p.2).contains 2)) = true := by decide +kernel

theorem test_meets_PredicateResults : (ready .vector (encV 0x4D (insV 1 0 3 0)) 0 &&
    ready .vector (encV 0x4D (insV 0 0 0 0)) 0 && ready .vector (encV 0x4D (insV 2 0 3 0)) 0 &&
    ready .vector (encV 0x4D { insV 14 0 3 0 with pd := 0 }) 0 &&
    ready .vector (encV 0x5A ⟨0, 0, 0, 0, 0, 0, 0, 0, 0, 0, 1, 7, 0⟩) 0 &&
    ready .vector (encV 0x5A ⟨0, 0, 0, 0, 0, 0, 0, 0, 0, 0, 0, 0, 0⟩) 0) = true := by
  decide +kernel

theorem test_meets_TableFunctionResults : (tableOps.all (fun p => ready .vector (encV p.2.1 (insV 1 0 0 0)) 0 &&
    ready .vector (encV p.2.1 (insV 0 0 0 0)) 0)) = true := by
  decide +kernel

theorem test_meets_VectorMovesAndReduction : (ready .vector (encV 0x57 (insV 14 0 0 0)) 0 &&
    ready .vector (encV 0x57 (insV 12 0 0 0)) 0 && ready .vector (encV 0x57 (insV 15 0 0 0)) 0 &&
    !((headOf .vector 0 0).slot 0 15).userValid && ready .vector (encV 0x58 (insV 15 0 0 0)) 0 &&
    ready .vector (encV 0x59 (insV 0 0 0 0)) 0 && ready .vector (encV 0x58 (insV 14 0 0 127)) 0 &&
    ready .vector (encV 0x58 (insV 14 0 0 128)) 0 &&
    ready .vector (encV 0x58 (insV 12 0 0 0)) 0 && ready .vector (encV 0x4F (insV 14 0 2 0)) 0 &&
    ready .vector (encV 0x4F (insV 2 0 0 0)) 0 &&
    elemBits 14 == 32) = true := by decide +kernel

/-- Source part 0 and destination part 0 of a conversion between FP32 and the 8-bit slot 3; part 31 lies beyond byte 511. -/
theorem test_meets_ConversionResults : (ready .vector (encV 0x4E (insV 1 4 0 0)) 0 &&
    ready .vector (encV 0x4E (insV 1 4 0 31)) 0 && ready .vector (encV 0x4E (insV 1 4 0 0x3E0)) 0 &&
    ready .vector (encV 0x4E (insV 15 4 0 0)) 0 && ready .vector (encV 0x4E (insV 1 13 0 0)) 0 &&
    ready .vector (encV 0x4E (insV 13 4 0 0)) 0 && (let s := headOf .vector 0 0
      let a := s.slot 0 1
      let b := s.slot 0 4
      let n := cvtCount 1 4 a.block b.block
      a.block == 0 && b.block == 0 && !b.stoch && !(s.slot 0 15).userValid && decide (elemBytes 1 n ≤ 512) &&
      decide (elemBytes 4 n ≤ 512) && decide (512 < 32 * elemBytes 1 n) && decide (512 < 32 * elemBytes 4 n))) = true := by
  decide +kernel

/-- Every index is 0; at s4 = 0xFFFFF an element of 4 bytes lies beyond tile memory; line 8 has a mark. -/
theorem test_meets_GatherAndScatter : ((([0x55, 0x56].all (fun o => ready .vector (encV o (insV 1 0 0 0)) 0 tx &&
    ready .vector (encV o (insV 7 0 0 0)) 0 tx)) &&
    gatherWidth 1 == some 4 && tx.poison.isEmpty && tx.badMem.isEmpty &&
    ready .vector (encV 0x55 (insV 1 0 0 0)) 0 (tx.setS 4 0xFFFFF) &&
    ready .vector (encV 0x56 (insV 1 0 0 0)) 0 (tx.setS 4 0xFFFFF) && (tx.p 0).getLsbD 0 &&
    ready .vector (encV 0x55 (insV 1 0 0 0)) 0 { tx with poison := [8] } &&
    ready .vector (encV 0x55 (insV 1 0 0 0)) 0 { tx with badMem := [8] }) = true ∧ touches 1024 4 8 ∧ (tx.s 4).toNat = 1024 ∧
    ((tx.s 4) + BitVec.ofInt 64 (0 * 4)).toNat + 4 ≤ 0x100000 ∧ 0x100000 < (((tx.setS 4 0xFFFFF).s 4) + BitVec.ofInt 64 (0 * 4)).toNat + 4) := by
  unfold touches
  decide +kernel

/-! The matrix array. -/

/-- An INT8 MMA of 32 rows, 512 columns and 64 steps with ZERO into bank 0, and its descriptors: base 0 with stride 128 for A, base
0x10000 with stride 512 for B. -/
def insMma : InsMma := ⟨1, 0, 1, 10, 10, 5, 6, 31, 511, 63⟩
def insDrain : InsDrain := ⟨0, 10, 3, 7, 0, 31, 0, 511⟩
def descOf (base stride : Nat) : BitVec 64 := BitVec.ofNat 64 (base + stride * 2 ^ 20)
def mx : Tile := ((Tile.zero.setS 5 (descOf 0 128)).setS 6 (descOf 0x10000 512)).setS 7 (descOf 0x40000 512)
def mmaRec : MmaRec :=
  ⟨0, 0, (encMma insMma).1, (encMma insMma).2, 0, mx.s 5, mx.s 6, BitVec.ofNat 64 (State.reset.rd .FMT_DESC (tix 0 ++ [10])),
    BitVec.ofNat 64 (State.reset.rd .FMT_DESC (tix 0 ++ [10])), false, 0, 0, false, false, false, Bank.none, 0⟩
def drainRec : DrainRec :=
  ⟨1, 0, (encDrain insDrain).1, (encDrain insDrain).2, 0, mx.s 7, State.reset.rd .FMT_DESC (tix 0 ++ [10]),
    [(5, [1]), (9, [2, 3])], 0, 0, false, [], 1, true, false⟩
def shaped (x : Tile) : Tile := { x with ishape0 := 1, iint0 := true, acc0 := ⟨1, true, []⟩ }

theorem test_meets_MatrixInstructionsIssue :
    (ready .matrix (encMma insMma).1 (encMma insMma).2 mx &&
    ready .matrix (encMma { insMma with fa := 13 }).1 (encMma insMma).2 mx &&
     ready .matrix (encDrain insDrain).1 (encDrain insDrain).2 (shaped mx) && ready .matrix (encAroll 15) 0 &&
     mx.retryBank.isNone && !matrixHeld mx && matrixHeld { mx with retryBank := some 0 } &&
     matrixHeld { mx with mmas := List.replicate 8 mmaRec } && drainsOut (shaped mx) == 0 &&
     drainsOut { mx with drains := [drainRec, drainRec] } == 2 &&
     (let s := headOf .matrix (encMma insMma).1 (encMma insMma).2 mx
      (mmaCause s 0 insMma (mx.s 5) (mx.s 6)).isNone &&
      (mmaCause s 0 { insMma with fa := 13 } (mx.s 5) (mx.s 6)).isSome) &&
     (let s := headOf .matrix (encDrain insDrain).1 (encDrain insDrain).2 (shaped mx)
      (drainCause s 0 insDrain (mx.s 7)).isNone &&
      (drainCause s 0 { insDrain with dslot := 13 } (mx.s 7)).isSome)) = true := by
  decide +kernel

/-- An MMA issued, entered and final; a drain queued, started and released. -/
theorem test_meets_MatrixArrayEvents :
    (arrayRuns State.reset 0 && !arrayRuns (State.reset.setFld .KST_RAS_STAT [] KST_RAS_STAT.CONT_ACTIVE 1) 0 &&
     (canEnter { mx with mmas := [mmaRec] }).isSome &&
     ([{ mmaRec with st := 1 }].find? (fun (q : MmaRec) => decide (q.st < 2))) == some { mmaRec with st := 1 } &&
     (canStartDrain (tileAt { shaped mx with drains := [drainRec] }) 0).isSome &&
     [{ drainRec with st := 1 }].find? (fun (d : DrainRec) => d.st == 1) == some { drainRec with st := 1 } &&
     [{ drainRec with st := 2 }].find? (fun (d : DrainRec) => d.st == 2) == some { drainRec with st := 2 }) = true ∧
    (([{ drainRec with st := 2 }] : List DrainRec).map (·.tag)).Nodup ∧ (([{ drainRec with st := 2 }] : List DrainRec).all (fun q => q.st != 3)) = true ∧
    drainRec.deps = [] ∧ ({ drainRec with deps := [0] } : DrainRec).deps ≠ [] := by decide +kernel

theorem test_meets_Int8MmaResult :
    (let o := mmaOps mmaRec
     o.da.slot == 10 && o.db.slot == 10 && decide (o.n ≤ shapeCols o.shape) && o.da.block == 0 && o.db.block == 0 &&
     o.zero && o.m == 32 &&
     o.n == 512 && o.k == 64 && (mmaOps { mmaRec with w0 := (encMma { insMma with zero := 0 }).1 }).zero == false &&
     (shaped mx).acc0.int) = true := by
  decide +kernel

/-- One product of two bytes, -1 and 2, in a region of one cell (R163): the cell holds -2. -/
theorem test_int8_mma :
    (let r := { mmaRec with w1 := (encMma { insMma with m1 := 0, n1 := 0, k1 := 0 }).2 }
     (mget 0 (mmaApply { mx with mem := mbytes (mbytes [] 0 [0xFF]) 0x10000 [2] } r Bank.none).cells 0).toNat == 4294967294) = true := by
  decide +kernel

theorem test_meets_MmaVerdicts :
    (let f (inj retry : Bool) : State := tileAt { mx with mmas := [{ mmaRec with st := 2, inj := inj, retry := retry }] }
     [f false false, f true false, f true true].all (fun s => arrayRuns s 0 &&
     (s.tile 0).mmas.length == 1) && (({ mx with mmas := [mmaRec] } : Tile).mmas.all (fun q => q.st != 2))) = true := by decide +kernel

/-! Loads and stores. -/

/-- s1 is an offset; its line 1 is marked. -/
def lx (p : BitVec 64) : Tile := { Tile.zero.setS 1 p with poison := [1] }

theorem test_meets_ScalarLoadsAndStores :
    ([(0, 0xFFFF8), (1, 0xFFFFE), (2, 0xFFFFC), (3, 0xFFFF8), (3, 0xFFFF9), (0, 0x100000), (0, 0x80), (7, 8)].all (fun p =>
      ready .scalar (encS 0x10 ⟨0, 0, 2, 1, 0, p.1, 0⟩) 0 (lx p.2) &&
      ready .scalar (encS 0x11 ⟨0, 0, 0, 1, 2, p.1, 0⟩) 0 (lx p.2)) &&
     ready .scalar (encS 0x10 ⟨1, 0, 2, 1, 0, 3, 0⟩) 0 (lx 0) &&
     ready .scalar (encS 0x11 ⟨1, 0, 0, 1, 2, 3, 0⟩) 0 (lx 0) &&
     (lx 0x80).poison.contains (0x80 / 128)) = true := by decide +kernel

/-- 0xFFE00 is the last offset; 0xFFE80 lies beyond, 0x80 + 4 off a line. -/
theorem test_meets_VectorLoadsAndStores :
    ([0xFFE00, 0xFFE80, 0x84, 0].all (fun p => ready .vector (encV 0x53 (insV 0 0 0 0)) 0 (Tile.zero.setS 4 p) &&
      ready .vector (encV 0x54 (insV 0 0 0 0)) 0 (Tile.zero.setS 4 p)) &&
      (insV 0 0 0 0).func.getLsbD 0 == false) = true := by
  decide +kernel

/-- The memory windows of the tiles begin at 0x3C0_0000_0000 (R34), the raw window of HBM at 0x200_0000_0000; every stack is live. -/
def winPtr : BitVec 64 := 0x3C000000000
def rawPtr : BitVec 64 := 0x20000000000
def hbmUp (s : State) : State := (List.range 32).foldl (fun s k => s.setFld .HBM_REGION [k] HBM_REGION.LIVE 0xFFF) s

/-- Module 5 is a peer behind a link of Pier 0 (R37, R41, R403). -/
def peered (s : State) : State :=
  let s := ((s.setFld .KST_MOD_ID [] KST_MOD_ID.ACT_VALID 1).setFld .CLX_RT [5] CLX_RT.VALID 1).setFld .CLX_RT [5] CLX_RT.LINK_MASK 0xFFFFFF
  (clxLinks s).foldl (fun s l => ((s.setFld .CLX_LINK_STAT [l / 6, l % 6] CLX_LINK_STAT.STATE 6).setFld .CLX_LINK_STAT [l / 6, l % 6] CLX_LINK_STAT.PEER_MOD 5).setFld .CLX_LINK_STAT [l / 6, l % 6]
    CLX_LINK_STAT.PEER_VALID 1) s
def peerPtr : BitVec 64 := BitVec.ofNat 64 (2 ^ 57 + 5 * 2 ^ 42)

def isDone (r : MemR) : Bool := match r with | .done _ => true | _ => false
def rdGot (r : RdP) : Bool := match r with | .got _ _ pz => !pz | _ => false
def isLine (r : RsvR) : Bool := match r with | .line _ _ => true | _ => false
def wrDone (r : WrP) : Bool := match r with | .done _ => true | _ => false
def noExt : Ext := ⟨[], [], 0⟩

/-- An LD answered by a peer, and an STC whose reservation covers its line. -/
theorem test_meets_PointerAccesses :
    (let ld : InsS := ⟨0, 0, 2, 1, 0, 11, 0⟩
     let st : InsS := ⟨0, 0, 0, 1, 2, 11, 0⟩
     let v : InsV := ⟨0, 0, 1, 1, 0, 0, 0, 0, 4, 0, 0, 1, 0⟩
     let l (i : Nat) : InsRsv := ⟨0, 2, 1, 3, 0, if i = 0 then 0 else 3, 0⟩
     let x (p : BitVec 64) : Tile := (Tile.zero.setS 1 p).setS 4 p
     let ldr : LoadRec := ⟨3, 0, encS 0x10 ld, peerPtr, 0, 0, []⟩
     let stc : LoadRec := ⟨3, 0, encRsv 0xC3 (l 1), rawPtr, 0, 5, []⟩
     let near : LoadRec := ⟨3, 0, encS 0x10 ld, winPtr, 0, 0, []⟩
     let vl : LoadRec := ⟨3, 0, encV 0x53 v, winPtr, BitVec.allOnes 512, 0, []⟩
     let rl : LoadRec := ⟨3, 0, encRsv 0xC2 (l 0), rawPtr, 0, 0, []⟩
     let s := peered (tileAt { Tile.zero with loads := [ldr] })
     let c := hbmUp (tileAt { Tile.zero with loads := [stc] })
     let d (r : LoadRec) : State := hbmUp (tileAt { Tile.zero with loads := [r] })
     let o := headOf .vector (encV 0x54 v) 0 { x winPtr with ordered := true }
     ready .scalar (encS 0x10 ld) 0 (x winPtr) &&
     isDone (loadCheck (popHead (headOf .scalar (encS 0x10 ld) 0 (x winPtr)) 0 .scalar) 0 0 winPtr 8) &&
     ready .scalar (encS 0x11 st) 0 (x winPtr) && ready .vector (encV 0x53 v) 0 (x winPtr) &&
     ready .vector (encV 0x54 v) 0 (x winPtr) &&
     isDone (vecCheck (popHead (headOf .vector (encV 0x53 v) 0 (x winPtr)) 0 .vector) 0 0 winPtr (BitVec.allOnes 512) false) &&
     wrDone (vecStores 0 0 winPtr 7 (BitVec.allOnes 512) noExt (activeLines (BitVec.allOnes 512)) (headOf .vector (encV 0x54 v) 0 (x winPtr))) &&
     ready .move (encRsv 0xC2 (l 0)) 0 (x rawPtr) && ready .move (encRsv 0xC3 (l 1)) 0 (x rawPtr) &&
     isLine (rsvTarget (hbmUp (tileAt (x rawPtr))) 0 rawPtr 8 false) &&
     s.live && s.tstate 0 == 1 && (s.tile 0).loads.find? (fun l => l.tag == 3 && opcOf l.w0 != 0xC3) == some ldr &&
     opcOf ldr.w0 == 0x10 &&
     (match decPtr s peerPtr with | .peer m _ => m == 5 | _ => false) && (peerRoute s 5).1 == 0 && !loadHeld s 0 ldr &&
     readyHead o 0 .vector (encV 0x54 v) 0 == some (ent (encV 0x54 v) 0) && (o.tile 0).ordered &&
     isDone (vecOrdered (popHead o 0 .vector) 0 (ent (encV 0x54 v) 0) winPtr 7 (BitVec.allOnes 512) noExt) &&
     !loadHeld (d near) 0 near && rdGot (readPtr (d near) 0 winPtr 8 false noExt) &&
     loadHeld ((d near).setTile 0 { (d near).tile 0 with outs := [⟨1, 0, true, 5, [0], false, 0, 0⟩] }) 0 near &&
     !loadHeld (d vl) 0 vl && !((d vl).tile 0).ordered &&
     rdGot (vecReads 0 winPtr false noExt (vecUnits (d vl) 0 winPtr vl.mask) (d vl) [] false).1 &&
     !loadHeld (d rl) 0 rl && !movAhead ((d rl).tile 0) 3 &&
     (match rsvTarget (d rl) 0 rawPtr 8 false with
      | .line s1 ln => (match spanExcl s1 0 ln noExt with
        | some s2 => (match spanShare s2 0 noExt ((granuleLines (d rl) 0 rawPtr).filter (· != ln)) with
          | some s3 => rdGot (readPtr s3 0 rawPtr 8 false noExt)
          | none => false)
        | none => false)
      | _ => false) &&
     (match rsvTarget c 0 rawPtr 8 true with
      | .line s1 ln => !stc.w0.getLsbD 63 && !(c.tile 0).resv.contains ln && (let s2 := s1.setTile 0 { s1.tile 0 with resv := [ln] }
          (s2.tile 0).resv.contains ln &&
          (match storePtr s2 0 3 rawPtr (lineOf 0 (leBytes 8 5)).1 (lineOf 0 (leBytes 8 5)).2 [] noExt with
           | .done s3 => !contStarted s3
           | _ => false))
      | _ => false) &&
     c.live && (c.tile 0).loads.find? (fun l => opcOf l.w0 == 0xC3) == some stc &&
     !loadHeld c 0 stc && !movAhead (c.tile 0) 3 &&
     isLine (rsvTarget c 0 rawPtr 8 true)) = true := by decide +kernel

/-- A MOV of one row of 256 bytes within tile memory; a length of 2^32 and an extent beyond it are illegal. -/
theorem test_meets_MoveInstructions :
    (let f : InsMov := ⟨0, 1, 2, 3, 0, 0, 0, 0, 0, 0, 0⟩
     let x (len : BitVec 64) : Tile := ((Tile.zero.setS 1 0).setS 2 0x1000).setS 3 len
     let m : MoveRec := ⟨3, 0, (encMov f).1, (encMov f).2, 0, 0x1000, 256, 0, 0⟩
     let s := tileAt { x 256 with moves := [m] }
     [0, 256, 0x100000, 4294967296].all (fun n => ready .move (encMov f).1 (encMov f).2 (x n)) &&
     ready .move (encMov { f with pred := 1 }).1 (encMov { f with pred := 1 }).2 (x 256) &&
     ready .move (encMov f).1 (encMov f).2 { x 256 with moves := [m, m, m, m] } &&
     !movBad f 0 0x1000 256 && movBad f 0 0x1000 0x100000 && s.live && s.tstate 0 == 1 &&
     (s.tile 0).moves.find? (fun m => m.tag == 3) == some m && !leavesTile m.w0 &&
     movFree s 0 m && (movSrcBad (s.tile 0) m).isNone && movUpto (s.tile 0) m == m.total && m.prog == 0 && m.len != 0 &&
     (movSrcBad { s.tile 0 with poison := [1] } m).isSome && movFree s 0 m &&
     (let p : MoveRec := { m with w0 := (encMov { f with ssp := 1, dsp := 1 }).1, src := winPtr, dst := winPtr }
      let o := tileAt { x 256 with moves := [p], ordered := true }
      movFree o 0 p && decide (movUpto (o.tile 0) p < p.total) &&
      !movFree (o.setTile 0 { o.tile 0 with outs := [⟨1, 0, true, 5, [0], false, 0, 0⟩] }) 0 p) &&
     (match mvReadRows 0 m noExt (movRows m (movUpto (s.tile 0) m)) s [] 0 with
      | .ok s1 r => (match mvWriteRows 0 m (movDeps s1 0 m) [] noExt r.1 s1 ⟨r.2, none, [], [], true⟩ with
        | .ok _ _ => true
        | _ => false)
      | _ => false)) = true := by
  decide +kernel

/-- A fence and an ECUT at the head of the move stream, a fence that waits for a MOV, a write and a read of a peer awaited. -/
theorem test_meets_FencesEpochsAndAwaitedWrites :
    (let m : MoveRec := ⟨0, 0, (encMov ⟨0, 1, 2, 3, 1, 0, 0, 0, 0, 0, 0⟩).1, 0, peerPtr, 0, 128, 0, 0⟩
     let r : FenceRec := ⟨1, 0, encFence ⟨0, 4, 0, 2, 0⟩, 4, 0, 2, 0, 0⟩
     let w : WriteRec := ⟨1, 0, true, 5, [0], false, 0, 0⟩
     let ld : LoadRec := ⟨3, 0, encS 0x10 ⟨0, 0, 2, 1, 0, 11, 0⟩, peerPtr, 0, 0, []⟩
     let farPtr : BitVec 64 := 0x30000000000
     let lf : LoadRec := { ld with ptr := farPtr }
     let mf : MoveRec := { m with src := farPtr }
     let x (l : List MoveRec) : Tile := { Tile.zero with fence := some r, moves := l, outs := [w], loads := [ld] }
     let s (l : List MoveRec) : State := peered (tileAt (x l))
     let g := { s [] with gate := ⟨[⟨5, [], 0, none, [⟨0, 0, ⟨0, 0, 0⟩, 0⟩], [], 0, []⟩], [], 0⟩ }
     let h := (g.setFld .CLX_RT [5] CLX_RT.NEXT_EN 1).setFld .CLX_RT [5] CLX_RT.NEXT 0
     ready .move (encFence ⟨0, 4, 0, 2, 0⟩) 0 && ready .move (encFence ⟨1, 4, 0, 2, 0⟩) 0 && ready .move (encEcut 0 3) 0 &&
     ready .move (encEcut 1 3) 0 &&
     (s []).live && (s []).tstate 0 == 1 &&
     !fenceClear (s [m]) 0 1 0 2 0 && fenceClear (tileAt { Tile.zero with fence := some r }) 0 1 0 2 0 &&
     movFree (peered (tileAt { Tile.zero with moves := [m] })) 0 m &&
     (let h := tileAt { Tile.zero with loads := [lf], moves := [{ mf with tag := 4 }] }
      !loadHeld h 0 lf && ptrsFar h lf.ptrs && ptrsFar h (mf.ptrs false) && movFree (tileAt { Tile.zero with moves := [mf] }) 0 mf &&
      (match decPtr h farPtr with | .local_ _ => true | _ => false)) &&
     (([(5, 0xFFFE), (6, 3)] : List (Nat × Nat)).filter (fun w => !tileUnit w.2))[0]? == some (5, 0xFFFE) &&
     (x []).outs.find? (fun w => w.tag == 1) == some w &&
     ((s [m]).tile 0).moves.find? (fun m => m.tag == 0) == some m && (decMov m.w0 m.w1).ssp == 1 &&
     (match decPtr (s []) peerPtr with | .peer m _ => m == 5 | _ => false) &&
     stayRouted h 5 && !peerLost h 5 && stayLink h 5 == some 0 && h.stay.held.isEmpty && linkFor h 5 0 && h.gate.eps.any (fun e => tagModule e.tag == 5 &&
     !e.held.isEmpty)) = true := by
  decide +kernel

/-- A window of 16 counters in each Span and in the Keystone; references to counter 15 and 16 of Span 0, and to one of module 5. -/
def stayAt (ref : BitVec 64) : Tile := (Tile.zero.setS 1 ref).setS 2 7
def stayWin (s : State) : State :=
  (s.setFld .TILE_STAY_WIN (tix 0) TILE_STAY_WIN.SPAN_COUNT 16).setFld .TILE_STAY_WIN (tix 0) TILE_STAY_WIN.KST_COUNT 16
def farRef : BitVec 64 := BitVec.ofNat 64 (2 ^ 31 + 5 * 2 ^ 16 + 3)
theorem test_meets_StayInstructions :
    (let f (pri fs : Nat) : InsStay := ⟨0, 3, 1, 2, BitVec.ofNat 2 pri, BitVec.ofNat 3 fs⟩
     let s (o pri fs : Nat) (ref : BitVec 64) : State := stayWin (headOf .scalar (encStay o (f pri fs)) 0 (stayAt ref))
     stayOps.all (fun p => [(15, 0, 0), (16, 0, 0), (15, 2, 0), (15, 1, 4), (farRef, 0, 0)].all (fun q =>
       readyHead (s p.2 q.2.1 q.2.2 q.1) 0 .scalar (encStay p.2 (f q.2.1 q.2.2)) 0 == some (ent (encStay p.2 (f q.2.1 q.2.2)) 0))) &&
     !refBad (s 0 0 0 15) 0 15 false && refBad (s 0 0 0 16) 0 16 false && !refBad (s 0 0 0 15) 0 farRef true &&
     refMod farRef == 5) = true := by
  decide +kernel

/-- Counters 0 to 3 of Span 0: an event counter, a barrier of 2 with one arrival, one of 2 with none, and a failed one's window. -/
theorem test_meets_StayOperationsAtHome :
    (let s := { State.reset with stay := { State.reset.stay with ctrs := [(1, ⟨1, 2, 0⟩), (2, ⟨0, 2, 0⟩)], waits := [⟨0, 2, .tile 0 1, true, 0⟩] } }
     let far (n : Nat) : State := { s with stay := { s.stay with waits := List.replicate n ⟨1, 2, .remote 5 1 0, true, 0⟩ } }
     let c := s.setFld .KST_COLL_ID [0] KST_COLL_ID.VALID 1
     let d := (c.setFld .KST_COLL_WIN [0] TILE_STAY_WIN.SPAN_COUNT 4).setFld .KST_COLL_ID [0] KST_COLL_ID.FAILED 1
     ctrExists 0 1023 && !ctrExists 0 1024 && ctrExists 8 4095 && !ctrExists 8 4096 && !ctrExists 9 0 &&
     (s.ctr 0 0).target == 0 &&
     (s.ctr 0 1).value + 1 == (s.ctr 0 1).target && (s.ctr 0 2).value + 1 != (s.ctr 0 2).target && !ctrFailed s 0 0 &&
     (collOf s 0 0).isNone &&
     ctrFailed d 0 3 && waitRoom s 0 (.tile 0 5) && waitRoom s 1 (.tile 0 5) && (s.ctr 0 2).gen == 0 &&
     waitRoom (far 191) 1 (.tile 0 5) && !waitRoom (far 192) 1 (.tile 0 5)) = true := by decide +kernel

/-- Operations of tile 0 in each phase, here and far; a remote request a registration grants; a route to module 5. -/
theorem test_meets_StayMessages :
    (let q (ph : Nat) (far : Bool) : StayRec := ⟨1, 0, encStay 0xD2 ⟨0, 3, 1, 2, 0, 4⟩, if far then farRef else 3, 7, true, far, ph, none, 0, 0, 0, 0, 1⟩
     let s (ph : Nat) (far : Bool) : State := tileAt { Tile.zero with stays := [q ph far] }
     let c := ((State.reset.setFld .KST_COLL_ID [0] KST_COLL_ID.VALID 1).setFld .KST_COLL_WIN [0] TILE_STAY_WIN.SPAN_COUNT 4)
     let d := { c with stay := { c.stay with memb := [(0, 32)], waits := [⟨0, 2, .remote 5 1 0, true, 0⟩], held := [⟨0, 5, 0xD2, 3, []⟩] } }
     let b := (s 1 false).setTile 64 { Tile.zero with stays := [{ q 1 false with sent := 0 }] }
     let e := (d.setFld .CLX_RT [5] CLX_RT.VALID 1).setFld .CLX_RT [5] CLX_RT.NEXT_EN 1
     [(0, false), (1, false), (1, true), (2, false), (5, false), (3, true), (4, true)].all (fun p => stayRec (s p.1 p.2) 0 1 == some (q p.1 p.2) &&
     (s p.1 p.2).live) &&
     fenceClear (s 0 false) 0 1 0 1 0 &&
     !fenceClear ((s 0 false).setTile 0 { (s 0 false).tile 0 with outs := [⟨0, 0, true, 5, [0], false, 0, 0⟩] }) 0 1 2 1 0 &&
     !stayBehind (s 1 false) 0 (q 1 false) && stayBehind (b.setTile 1 { Tile.zero with stays := [{ q 1 false with sent := 0 }] }) 0 (q 1 false) &&
     (stayRec (fenceEnds (s 0 false) 0 (q 0 false)) 0 1).isSome && (s 3 true).tstate 0 != 3 &&
     ((s 1 true).setFld .TILE_STAT (tix 0) TILE_STAT.STATE 3).tstate 0 == 3 &&
     inboundOff (d.setFld .KST_PARK [] KST_PARK.PARKED 1) && d.boot.off != 6 && decide (0 < d.asm.piers) && !inboundOff d && d.live && collGrants d 5 0 3 && !collGrants d 6 0 3 &&
     !collGrants d 5 0 4 && stayRouted e 5 &&
     !stayRouted e 6 && d.up && actId d != 5) = true := by decide +kernel

/-- A write of VALID for ID 1 in a free and in a taken window, with a bitmap below 0x200_0000_0000 and one above it. -/
theorem test_meets_CollectiveRegistrations :
    (let b := State.reset.setFld .KST_COLL_MEMB [1] KST_COLL_MEMB.MEMB_BASE 0x20000000
     let v := (State.reset.setFld .KST_COLL_ID [1] KST_COLL_ID.VALID 1)
     State.reset.live && !collValid State.reset 1 &&
     (match readMemb b 1 0 noExt with | some (_, none) => true | _ => false) && collValid v 1 &&
     v.fld .KST_COLL_ID [1] KST_COLL_ID.RUN == 0 && !collBusyWork v 1 && collBusyWork (v.setFld .KST_COLL_ID [1] KST_COLL_ID.RUN 1) 1 &&
     (let h := { v with stay := { v.stay with heldRel := [1] } }
      let c := { v with stay := { v.stay with heldClr := [1] } }
      h.stay.heldRel.contains 1 && !c.stay.heldRel.contains 1 && c.stay.heldClr.contains 1) &&
     fget 2 KST_COLL_ID.ABORT == 0 &&
     (v.setFld .KST_COLL_ID [1] KST_COLL_ID.RUN 1).fld .KST_COLL_ID [1] KST_COLL_ID.RUN == 1 &&
     v.fld .KST_COLL_ID [1] KST_COLL_ID.FAILED == 0 && winsMeet (winWord 0 4 0 0) (winWord 3 4 0 0) &&
     !winsMeet (winWord 0 4 0 0) (winWord 4 4 0 0) &&
     fget (fput 0 KST_COLL_ID.VALID 1) KST_COLL_ID.VALID == 1) = true := by decide +kernel

/-- Tags of module 5 with INTEG 0 and 1; the gate of Pier 0, a write into a tile's window, and an epoch with what the clauses ask. -/
theorem test_meets_EpochGates :
    (let s := ((State.reset.setFld .KST_MOD_ID [] KST_MOD_ID.ACT_VALID 1).setFld .KST_MOD_ID [] KST_MOD_ID.ACT_ID 1)
     let e : EpochIn := ⟨5, [(1, 3)], 2, none, [], [(0, 1)], 0, []⟩
     let g := { s with gate := ⟨[e], [6], 0⟩ }
     let full := { s with gate := ⟨(List.range 512).map (fun i => ⟨2 ^ 20 * i + 5, [(0, 1)], 0, none, [], [], 0, []⟩), [], 0⟩ }
     let rev : EpochIn := { e with unrep := [], recs := [(0, 1)] }
     !inboundOff s && s.live && peerInOk s 1 && !peerInOk s 2 && tagInteg 5 == 0 && tagInteg (2 ^ 40 + 5) == 1 &&
     tagModule (2 ^ 40 + 5) == 5 && s.boot.off != 6 &&
     !gateFull s 0 && gateFull full 0 && inboundOff (s.setFld .KST_PARK [] KST_PARK.PARKED 1) && rev.recs.all (fun r => r.2 % 2 == 1) &&
     (let c := { s with gate := ⟨[{ e with unrep := [], recs := [], count := 2 }], [], 0⟩ }
      (gatePerform (gatePut c { e with confirm := some 2 }) 5 e.held noExt).isSome) && (match peerLine s 0x3C000000000 fullMask with | (.ok (.win 0 0) _, _) => true | _ => false) &&
     !gateHeld s 5 1 && e.unrep != [] &&
     gateEp g 5 == some e && e.confirm.isNone && mget 0 e.unrep 1 != 0 && g.gate.resolved.contains 6 &&
     (gatePerform (gatePut g { e with confirm := some 2 }) 5 e.held noExt).isSome &&
     (maskedWrite s (.win 0 0) 0 ⟨0, 0, 0⟩ fullMask noExt).isSome) = true := by decide +kernel

/-- A Lattice queue of 16 slots in the raw window of HBM with one descriptor posted; a registration of module 0 and 5. -/
def latUp : State :=
  let s := hbmUp State.reset
  let s := (s.setFld .LAT_Q_BASE [0, 0] LAT_Q_BASE.BASE 0x800000000).setFld .LAT_Q_CTL [0, 0] LAT_Q_CTL.EN 1
  let s := ((s.setFld .KST_COLL_ID [0] KST_COLL_ID.VALID 1).setFld .KST_COLL_ID [0] KST_COLL_ID.COLL_ID 9)
  { s.setLatQ 0 0 { tail := 1, posted := 1, started := 0, tries := 0, cut := none, run := none } with stay := { s.stay with memb := [(0, 33)] } }
theorem test_meets_LatticeQueues :
    (let t (n : Nat) : State := latUp.setLatQ 0 0 { latUp.latQ 0 0 with started := 0, tries := n }
     (let s := latUp.setFld .KST_PD_CTL [] KST_PD_CTL.PIER_PD_ON 1
      latUp.live && latReady s 0 0 && latVerdict s 0 0 [0, 0, 0, 0, 0, 0, 0, 0] == some 0x0E) && latSize latUp 0 0 == 16 && fget 15 LAT_DB.TAIL == 15 && fget 16 LAT_DB.TAIL == 16 &&
     !latUp.bit .LAT_Q_CTL [0, 0] LAT_Q_CTL.DISABLE &&
     !State.reset.bit .LAT_Q_CTL [3, 15] LAT_Q_CTL.EN && latReady latUp 0 0 &&
     (match latHead latUp 0 0 noExt with | some (_, some ws) => latSeqOk (latUp.latQ 0 0) ws | _ => false) &&
     !latSeqOk { latUp.latQ 0 0 with started := 1 } [0] && (t 7).live &&
     (match latHead latUp 0 0 noExt with | some (s1, some ws) => (latSkip s1 0 0 ws 6 noExt).isSome | _ => false)) = true := by decide +kernel

/-- The same queue with a descriptor in its first slot: INT32 rows or blocks of COLL_ID 9, its tables and completion behind it. -/
def latWith (kind : Nat) : State :=
  let s := latUp.setFld .KST_PD_CTL [] KST_PD_CTL.PIER_PD_ON 1
  let ws : List Nat := [kind + 14 * 2 ^ 10 + 9 * 2 ^ 16 + 8 * 2 ^ 32, if kind = 1 then 512 else 1 + 16 * 2 ^ 32,
    0x20000001000, 0x20000002000, 0x20000003000, 0x20000004000, 0, 0]
  (List.range 8).foldl (fun s i => fwWriteBytes s (0x20000000000 + 8 * i) (leBytes 8 (ws.getD i 0)))
    (fwWriteBytes s 0x20000003000 (leBytes 8 0x8000))

theorem test_meets_LatticeStarts :
    ([1, 2, 3].all (fun k => let s := latWith k
      s.live && (s.latQ 0 0).run.isNone && (match latStart s 0 0 k noExt with
      | some (s1, r, n) => n == 0 && collMember s1 n 0 && (k == 1 ||
        (match engRead s1 (collCtx s1 n) (unitLat 0) false (dW r.words 4 41 0) (dW r.words 1 31 0 * 8) noExt with
         | some (s2, bs, pz, st) => st == 0 && pz.all (· == false) && (rowEntries s2 0 0 n (r.fold 0) 0 (words8 bs) noExt).isSome
         | none => false)) &&
        (latFinish s1 0 0 r.words r.slot (statFold r.stat 0) 0 noExt).isSome && latDone { r with fin := true } &&
        (k != 1 || !latDone r) && latDescOk r.words && collById s1 9 == some 0 && latCollId r.words == 9
      | none => false)) &&
     (let s := latWith 1
      match latHead s 0 0 noExt with
      | some (s1, some ws) => (latVerdict s1 0 0 ws).isNone && s.stay.cuts.isEmpty && dW ws 6 32 32 == 0 &&
        collCtx s1 0 == s1.fld .LAT_Q_CTL [0, 0] LAT_Q_CTL.CTX_ID &&
        (latVerdict (s1.setLatQ 0 0 { s1.latQ 0 0 with cut := some 1 }) 0 0 ws) == some 1
      | _ => false)) = true := by decide +kernel

/-- A running reduction of two blocks over port 2; frames that match it and that do not. -/
def redRun : LatRun := ⟨[BitVec.ofNat 64 (1 + 9 * 2 ^ 16 + 8 * 2 ^ 32), 512, 0, 0, 0, 0, 0, 0], 0, [], [], [], 0, 0, false⟩
theorem test_meets_LatticeData :
    (let f (port : Nat) : LatFrame := ⟨port, latCollId redRun.words, dW redRun.words 0 55 48, 0, [], false⟩
     let s := latUp.setLatQ 0 0 { latUp.latQ 0 0 with run := some redRun }
     collById latUp 9 == some 0 && collMember latUp 0 5 && !collMember latUp 0 6 && latMatches redRun (f 2) &&
     !latMatches redRun (f 3) && dW redRun.words 0 7 0 == 1 &&
     (latOffs redRun) == [0, 256] && (s.latQ 0 0).run == some redRun &&
     !s.bit .CLX_LINK_STAT [0, 2] CLX_LINK_STAT.PEER_VALID && ieSkip 0x8000 && !ieSkip 0x7FFF &&
     rowAwaited { redRun with rows := [rowKey 3 1 9] } 3 == some (rowKey 3 1 9) &&
     (match rowScatter latUp 0 6 9 0 0 [] false noExt with | some (_, some _) => true | _ => false) &&
     (match peerRoute (peered State.reset) 5 with
      | (0, s) => (List.range 16).all (fun b => (peerLink s 5 b).isSome) | _ => false) && decide ((latUp.lat.staged.filter (fun p => p.1 == 0)).length < 32768) &&
     latUp.fld .KST_COLL_ID [0] KST_COLL_ID.FAILED == 0 && latUp.boot.off != 6 && !inboundOff latUp &&
     inboundOff (latUp.setFld .KST_PARK [] KST_PARK.PARKED 1) && (dW redRun.words 0 38 32 >>> 3) % 2 == 1 && redRun.made.isEmpty &&
     (let v (n : Nat) := ((latUp.setFld .CLX_LINK_STAT [0, 0] CLX_LINK_STAT.PEER_VALID 1).setFld .CLX_LINK_STAT [0, 0] CLX_LINK_STAT.STATE n)
      let w := (v 6).setVc 0 ⟨[(1, .coreData 0 [])], 0⟩
      clxState (v 6) 0 == 6 && ((v 6).vc 0).q.isEmpty && clxState (v 7) 0 == 7 && (w.vc 0).q.any (fun y => y.1 == 1)) &&
     (match rowFetch latUp 0 5 9 0 0 0 noExt with | some (_, some _) => true | _ => false)) = true := by decide +kernel

/-- Whatever the bucket of a row is, it has a link toward its module. -/
theorem test_meets_LatticeData_link (k : Nat) : (rowLink (peered State.reset) 5 k).isSome = true := by
  have h : (match peerRoute (peered State.reset) 5 with
    | (0, s) => (List.range 16).all (fun b => (peerLink s 5 b).isSome) | _ => false) = true := by decide +kernel
  rw [rowLink]
  split at h
  · next s e =>
    rw [e]
    have g := List.all_eq_true.1 h (rowBucket k) (List.mem_range.2 (Nat.mod_lt _ (by decide)))
    simpa using g
  · cases h

/-- A staging buffer that is full. -/
theorem test_staging_full (f : LatFrame) :
    ((List.replicate 32768 ((0 : Nat), f)).filter (fun p => p.1 == 0)).length = 32768 := by
  rw [List.filter_eq_self.2 (fun p h => by rw [List.eq_of_mem_replicate h]; rfl), List.length_replicate]

/-! Coherence: a line of far memory (home 12) and one of HBM. -/

/-- Coherence state laid into the machine. -/
def coh (f : Mem → Mem) : State := { State.reset with mem := f State.reset.mem }
def sh (l : List Nat) : DirEnt := ⟨1, 0, l.foldl addSharer 0, 0, 0⟩
def ox (a : Nat) : DirEnt := ⟨2, a, 0, 0, 0⟩
def copyAt (a line st : Nat) (comp : Bool) : List (Nat × CLine) := [(lineKey a line, ⟨st, noLine, 0, comp⟩)]

theorem test_meets_CoherenceRequests :
    (let far := 2 ^ 47 + 5
     let free (s : State) : Bool := (homeX s 12).starve.isEmpty && (homeX s (homeOf 7)).starve.isEmpty
     let rdy (s : State) (a line : Nat) : Bool := s.live && agentOk s a && (decide (8 ≤ a) || (vebFind s a line).isNone) &&
         (findReq s a line).isNone && (match mfind s.mem.txns line with | some t => t.req != a | none => true) && free s
     let idle (s : State) (a : Nat) : Bool := (agentLine s a far).isNone && decide (a < 74)
     let all : List MsgK := [.rds, .rdu, .upg, .rdo, .wru]
     let s0 := State.reset
     let s1 := coh (fun m => { m with dirs := [(far, sh [3, 9])] })
     let s2 := coh (fun m => { m with dirs := [(far, sh [3, 9])], lines := copyAt 9 far 1 true })
     let s3 := coh (fun m => { m with txns := [(far, Txn.new .rdu 3 noLine 0)] })
     let s4 (st : Nat) := coh (fun m => { m with dirs := [(7, ox 8)], lines := copyAt 8 7 st true })
     let s5 := coh (fun m => { m with vebs := [⟨0, 7, 4, noLine, true, false, false⟩] })
     let s6 := coh (fun m => { m with txns := [(7, { Txn.new .rdu 8 noLine 0 with granted := true })], net := [msg .compack 8 7 0 noLine] })
     let s7 (w : Bool) := coh (fun m => { m with net := [msg .nack 8 7 0 noLine], reqs := [⟨8, 7, .rdu, 15, false, w, noLine, 0, false⟩] })
     let s8 := coh (fun m => { m with holds := [(far, 32)], dirs := [(far, ox 3)] })
     let s9 := coh (fun m => { m with holds := [(far, 32)], homes := [(12, { HomeX.zero with starve := [(far, 8)] })],
                                      reqs := [⟨8, far, .rdu, 16, true, true, noLine, 0, false⟩] })
     let s10 := coh (fun m => { m with holds := [(far, 32)], homes := [(12, { HomeX.zero with pend := [(far, 8)] })] })
     let end_ (s : State) : State := { s with mem := { s.mem with holds := mdel s.mem.holds far } }
     let front (s : State) := (homeX s (homeOf far)).starve.find? (fun p => p.1 == far)
     front s9 == some (far, 8) && (front s3).isNone && (mfind s3.mem.txns far).isSome && heldLine s8 far &&
     (mfind s8.mem.dirs far) == some (ox 3) && !heldLine s0 far && (dirVictim s0 far).isNone &&
     rdy s3 8 far && idle s3 8 && all.all (fun k => homeStops s3 k 8 far == some 0 && (homeStops s0 k 8 far).isNone) &&
     (let c := { s3 with mem := { s3.mem with lines := copyAt 8 far 1 true } }; rdy c 8 far && (agentLine c 8 far).isSome) &&
     (let c := coh (fun m => { m with lines := copyAt 8 far 1 true })
      rdy c 8 far && (agentLine c 8 far).isSome && (homeStops c .upg 8 far).isNone && (dirVictim c far).isNone) &&
     rdy s0 8 far && idle s0 8 && (mfind s0.mem.dirs far).isNone &&
     rdy s1 8 far && idle s1 8 && !(sharerList (sh [3, 9]).sharers 8).isEmpty && all.all (fun k => (homeStops s1 k 8 far).isNone) &&
     rdy s2 9 far && (agentLine s2 9 far).isSome && (sh [3, 9]).sharers.getLsbD 9 && (homeStops s2 .upg 9 far).isNone &&
     sharerList (sh [3, 9]).sharers 9 == [3] && (sh [3, 9]).bad == 0 &&
     [2, 3].all (fun n => (s4 n).live && agentOk (s4 n) 8 && (mfind (s4 n).mem.txns 7).isNone &&
      agentLine (s4 n) 8 7 == some ⟨n, noLine, 0, true⟩ && (mfind (s4 n).mem.cacheErr (lineKey 8 7)).isNone &&
      mfind (s4 n).mem.dirs 7 == some (ox 8)) &&
     vebFind s5 0 7 == some ⟨0, 7, 4, noLine, true, false, false⟩ && (mfind s5.mem.txns 7).isNone && s5.mem.net.isEmpty &&
     (let h := coh (fun m => { m with dirs := [(far, ox 73)] }); mfind h.mem.dirs far == some (ox 73) && (mfind h.mem.txns far).isNone) &&
     (takeNet s6 .compack 8 7).isSome && (slotWinner s6 7).isNone && (Txn.new .rdu 8 noLine 0).evict.isNone && free s6 &&
     [true, false].all (fun w => (takeNet (s7 w) .nack 8 7).isSome && (findReq (s7 w) 8 7).isSome) &&
     (mfind s8.mem.holds far == some 32) && (front s8).isNone && (slotWinner (end_ s8) far).isNone &&
     (homeStops (end_ s9) .rdu 8 far).isNone && (findReq s9 8 far).isSome && (front s10).isNone &&
     slotWinner (end_ s10) far == some 8 && homeStops (end_ s10) .rdu 8 far != some 1) = true := by decide +kernel

/-- Two far lines of one directory set: there are more lines than sets. -/
theorem same_set : ∃ a b, a < 262145 ∧ b < 262145 ∧ a ≠ b ∧ dirIndex (2 ^ 47 + a) = dirIndex (2 ^ 47 + b) := by
  obtain ⟨a, ha, b, hb, hne, he⟩ := Finset.exists_ne_map_eq_of_card_lt_of_maps_to (s := Finset.range 262145)
    (t := Finset.range 262144) (f := fun i => dirIndex (2 ^ 47 + i)) (by simp)
    (fun i _ => Finset.mem_coe.2 (Finset.mem_range.2 (Nat.mod_lt _ (by decide))))
  exact ⟨a, b, Finset.mem_range.1 ha, Finset.mem_range.1 hb, hne, he⟩

/-- A full directory set: its victim, and with every entry in a hold none. -/
theorem test_meets_CoherenceRequests_full : ∃ a b,
    let s := coh (fun m => { m with dirs := List.replicate 8 (2 ^ 47 + a, ox 8) })
    let p := coh (fun m => { m with dirs := List.replicate 8 (2 ^ 47 + a, ox 8), holds := [(2 ^ 47 + a, 32)] })
    dirVictim s (2 ^ 47 + b) = some (some (2 ^ 47 + a)) ∧ mfind s.mem.dirs (2 ^ 47 + a) = some (ox 8) ∧ (ox 8).bad = 0 ∧
    homeStops s .rdu 9 (2 ^ 47 + b) = none ∧ findReq s 9 (2 ^ 47 + b) = none ∧ agentLine s 9 (2 ^ 47 + b) = none ∧
    dirVictim p (2 ^ 47 + b) = some none ∧ heldLine p (2 ^ 47 + b) = false ∧ mfind p.mem.txns (2 ^ 47 + b) = none := by
  obtain ⟨a, b, ha, hb, hne, he⟩ := same_set
  have h1 : homeOf (2 ^ 47 + a) = 12 := by simp [homeOf, isFar]
  have h2 : homeOf (2 ^ 47 + b) = 12 := by simp [homeOf, isFar]
  have hn : ¬ (2 ^ 47 + a = 2 ^ 47 + b) := by omega
  refine ⟨a, b, ?_⟩
  have hl : ∀ v : DirEnt, mfind (List.replicate 8 (2 ^ 47 + a, v)) (2 ^ 47 + b) = none := by
    intro v; simp [List.replicate, mfind, hne]
  have hs : ∀ (s : State), s.mem.dirs = List.replicate 8 (2 ^ 47 + a, ox 8) →
      dirSetOf s (2 ^ 47 + b) = List.replicate 8 (2 ^ 47 + a, ox 8) := by
    intro s h
    simp only [dirSetOf, h, List.filter_replicate, h1, h2, he, List.length_replicate]
    simp
  intro s p
  have e1 : dirVictim s (2 ^ 47 + b) = some (some (2 ^ 47 + a)) := by
    simp only [dirVictim, hs s rfl]
    have q : mfind s.mem.dirs (2 ^ 47 + b) = none := hl (ox 8)
    rw [q]
    have g : pinned s (2 ^ 47 + a) = false := rfl
    have r : ∀ p, rsvNeeds s p (2 ^ 47 + a) = false := fun _ => rfl
    have f1 : (List.replicate 8 (2 ^ 47 + a, ox 8)).filter (fun e => !pinned s e.1) = List.replicate 8 (2 ^ 47 + a, ox 8) := by
      rw [List.filter_replicate, g]; rfl
    have f2 : (List.replicate 8 (2 ^ 47 + a, ox 8)).filter (fun e => !(List.range 8).any (fun p => rsvNeeds s p e.1)) =
        List.replicate 8 (2 ^ 47 + a, ox 8) := by
      rw [List.filter_replicate]; simp only [r]; rfl
    rw [f1, f2]; rfl
  have e2 : dirVictim p (2 ^ 47 + b) = some none := by
    simp only [dirVictim, hs p rfl]
    have q : mfind p.mem.dirs (2 ^ 47 + b) = none := hl (ox 8)
    rw [q]
    have g : pinned p (2 ^ 47 + a) = true := by simp [pinned, heldLine, p, coh, mfind, State.reset]
    have f1 : (List.replicate 8 (2 ^ 47 + a, ox 8)).filter (fun e => !pinned p e.1) = [] := by
      rw [List.filter_replicate, g]; rfl
    rw [f1]; rfl
  refine ⟨e1, ?_, rfl, ?_, rfl, rfl, e2, ?_, rfl⟩
  · simp [s, coh, mfind, List.replicate]
  · rw [homeStops, e1]; rfl
  · simp [heldLine, p, coh, mfind, hne]

theorem test_meets_CoherenceSnoopsAndAnswers :
    (let far := 2 ^ 47 + 5
     let txn (l : List Nat) : Txn := { Txn.new .rdu 9 noLine 0 with wait := l }
     let net (k : MsgK) (a arg : Nat) : State :=
       coh (fun m => { m with net := [msg k a 7 arg noLine], lines := copyAt 8 7 4 false, txns := [(7, txn [8, 73])] })
     let new (k : MsgK) (a arg : Nat) : State := coh (fun m => { m with net := [msg k a 7 arg noLine] })
     let veb (k : MsgK) (sent : Bool) : State := (coh (fun m => { m with
       net := [msg k 0 7 0 noLine], vebs := [⟨0, 7, 4, noLine, sent, false, false⟩] })).setFld .SPAN_CACHE_CTL [0] SPAN_CACHE_CTL.EN 1
     let v := coh (fun m => { m with vebs := [⟨0, 7, 4, noLine, false, false, false⟩] })
     let d (e : Option DirEnt) := coh (fun m => { m with dirs := (e.map (fun e => (far, e))).toList, lines := copyAt 8 far 4 true })
     [MsgK.snps, .snpu, .snpi, .snpx, .snpo, .rspi, .rsps, .rspo, .rspdata, .grant, .comp].all (fun k => (takeNet (net k 8 0) k 8 7).isSome &&
      agentLine (net k 8 0) 8 7 == some ⟨4, noLine, 0, false⟩ && (mfind (net k 8 0).mem.cacheErr (lineKey 8 7)).isNone &&
      (net k 8 0).live && (takeNet (net k 73 0) k 73 7).isSome && (takeNet (net k 0 0) k 0 7).isSome &&
      (mfind (net k 8 0).mem.txns 7 == some (txn [8, 73])) &&
      [true, false].all (fun z => vebFind (veb k z) 0 7 == some ⟨0, 7, 4, noLine, z, false, false⟩ && (takeNet (veb k z) k 0 7).isSome &&
       (agentLine (veb k z) 0 7).isNone && (veb k z).bit .SPAN_CACHE_CTL [0] SPAN_CACHE_CTL.EN)) &&
     [MsgK.snpi, .snpu, .snpx].all (fun k => snoopNext k 4 == 0) && !State.reset.bit .SPAN_CACHE_CTL [0] SPAN_CACHE_CTL.EN &&
     [MsgK.data, .fwddata].all (fun k => (takeNet (new k 8 0) k 8 7).isSome && (takeNet (new k 8 2) k 8 7).isSome &&
      (takeNet (new k 73 2) k 73 7).isSome && decide ((agentLines (new k 8 2) 8).length < agentCap 8) && noLine.er == 0 &&
      (match takeNet (new k 0 2) k 0 7 with | some (_, s1) => (install s1 0 7 2 noLine true).isSome | none => false)) &&
     (takeNet (net .wback 0 0) .wback 0 7).isSome && (v.mem.vebs.find? (fun e => e.span == 0 && !e.sent)).isSome &&
     isFar far && [none, some (sh [8]), some (ox 8)].all (fun e => !lineBusy (d e) far && !heldLine (d e) far && (d e).live &&
      mfind (d e).mem.dirs far == e && agentLine (d e) 8 far == some ⟨4, noLine, 0, true⟩ &&
      (mfind (d e).mem.cacheErr (lineKey 8 far)).isNone) && State.reset.asm.stacks == 12) = true := by decide +kernel

/-! Span caches, HBM and placement. -/

theorem test_meets_SpanCacheControl :
    (let s := State.reset
     let en := s.setFld .SPAN_CACHE_CTL [7] SPAN_CACHE_CTL.EN 1
     let busy := en.setFld .SPAN_CMAINT_STAT [7] SPAN_CMAINT_STAT.BUSY 1
     let clean := s.setFld .SPAN_CACHE_STAT [7] SPAN_CACHE_STAT.INV_CLEAN 1
     let dis := en.setFld .SPAN_CACHE_STAT [7] SPAN_CACHE_STAT.DIS_PENDING 1
     let ways (n : Nat) := en.setFld .SPAN_CACHE_CTL [7] SPAN_CACHE_CTL.SKEIN_WAYS n
     let word : BitVec 64 := BitVec.ofNat 64 (fput (fput 0 SPAN_CMAINT_CTL.TARGET 1) SPAN_CMAINT_CTL.WAY_MASK 1)
     let r : MaintRec := ⟨2, true, false, 0xFFFF, 0, 0, false, false, false, 0, 0⟩
     let m := { s with mem := { s.mem with maint := [(7, r)], lines := copyAt 6 9 2 true } }
     let r2 : MaintRec := ⟨1, false, false, 0, 0x30000000000, 1, false, false, false, 0, 0⟩
     let blocked := { s with mem := { s.mem with maint := [(7, r2)], txns := [(2 ^ 47, Txn.new .rdu 3 noLine 0)] } }
     s.live && busy.live && busy.bit .SPAN_CMAINT_STAT [7] SPAN_CMAINT_STAT.BUSY &&
     fget (busy.rd .SPAN_CMAINT_CTL [7]) SPAN_CMAINT_CTL.GO == 0 &&
     maintOps.all (fun q => maintRefused (if q.2 == 2 then en else s) 7 (maintWord q.2 word) &&
     !maintRefused (if q.2 == 2 then s else en) 7 (maintWord q.2 word)) &&
     mfind m.mem.maint 7 == some r && maintClear m 7 r (maintSel m 7 r 24576) && maintWritten m 7 &&
     mfind blocked.mem.maint 7 == some r2 && !maintClear blocked 7 r2 (maintSel blocked 7 r2 1) && !r.scanned && !r.aborted &&
     (agentLine (coh (fun m => { m with lines := copyAt 7 9 4 true })) 7 9).isSome && maintClear m 7 r2 (maintSel m 7 r2 1) && m.mem.lines.all (fun e => decide (e.2.way < 16)) &&
     en.bit .SPAN_CACHE_CTL [7] SPAN_CACHE_CTL.EN && !s.bit .SPAN_CACHE_CTL [7] SPAN_CACHE_CTL.EN &&
     clean.bit .SPAN_CACHE_STAT [7] SPAN_CACHE_STAT.INV_CLEAN &&
     !s.bit .SPAN_CACHE_STAT [7] SPAN_CACHE_STAT.INV_CLEAN &&
     dis.fld .SPAN_CACHE_STAT [7] SPAN_CACHE_STAT.DIS_PENDING == 1 && vebLen dis 7 == 0 && dis.mem.reqs.isEmpty &&
     dis.mem.txns.isEmpty && (ways 11).fld .SPAN_CACHE_CTL [7] SPAN_CACHE_CTL.SKEIN_WAYS == 11 &&
     (ways 0).fld .SPAN_CACHE_CTL [7] SPAN_CACHE_CTL.SKEIN_WAYS == 0 &&
     ((ways 0).trs 7).run.isEmpty) = true := by decide +kernel

theorem test_meets_HbmControllers :
    (let s := (hbmUp State.reset).setFld .HBM_SCRUB_CTL [] HBM_SCRUB_CTL.EN 1
     let err (n : Nat) (cls : Nat) := addErrs (s.wr .HBM_FCLASS [0] cls) [(0, n)]
     let st (n : Nat) := State.reset.setFld .HBM_STK_STAT [11] HBM_STK_STAT.STATE n
     let failed := { st 1 with hbmx := { State.reset.hbmx with fails := [(11, 24)] } }
     let own := { s with mem := { s.mem with dirs := [(0, ox 8)] } }
     !hbmOff s && hbmOff (st 3) && [1, 2, 4].all (fun n => (st n).up) && cwState (err 2 0) false [0] == 2 &&
     !frameC (err 2 0) 0 && frameC s 0 && cwState (addErrs s [(0, 1)]) true [0, 1] == 1 && thrSelect s 0 20 == thrSelect s 0 20 && s.live && !isFar 0 && (cwsOf (frameC s (frameOf s 0)) 0).all (fun l => cwState s (frameC s (frameOf s 0)) l == 0) &&
     s.bit .HBM_SCRUB_CTL [] HBM_SCRUB_CTL.EN &&
     physRaw s 0 == some 0 && s.fld .HBM_SCRUB_STAT [] HBM_SCRUB_STAT.FRAME == 0 &&
     (match mfind own.mem.dirs 0 with | some e => decide (2 ≤ e.st) | none => false) &&
     cwState (err 1 1) true [0, 1] == 1 && cwState (err 2 1) true [0, 1] == 2 && frameC (err 1 1) 0 &&
     [0, 1, 2, 3, 4].all (fun n => (st n).fld .HBM_STK_STAT [11] HBM_STK_STAT.STATE == n) &&
     mget 0 failed.hbmx.fails 11 == 24 && s.asm.stacks == 12 &&
     thrOk 0x3C5A3C593C583C57 0x385E385D385C385B && !thrOk 0 0x385E385D385C385B && (rawResolve s 0).isSome &&
     (rawResolve s (0x180000000 * 128)).isNone) = true := by
  decide +kernel

/-- A Placement Table at the raw window's start, whose page 0 is valid and moving. -/
def ptAt (e : BitVec 64) : State :=
  setEntry ((hbmUp State.reset).setFld .PLC_PT_BASE [] PLC_PT_BASE.BASE 0x100000) 0 e
theorem test_meets_Placement :
    (let inv := State.reset.setFld .ATTR_INVAL [] ATTR_INVAL.BUSY 1
     let p := ptAt (entPut (entPut 0 0 0 1) 17 17 1)
     let m : PageMove := ⟨0, false, 1, none⟩
     let mv := { p with plc := { p.plc with moves := [m] } }
     let hbm := hbmUp State.reset
     let er (n : Nat) := { hbm with mem := { hbm.mem with er := [(0, n)] } }
     let own4 := hbm.setFld .KST_POLICY_OWN [] ⟨4, 4⟩ 1
     let reg (n : Nat) := (hbm.setFld .HBM_REGION [31] HBM_REGION.STATE n).setFld .HBM_REGION [31] HBM_REGION.PEND 1
     inv.live && inv.bit .ATTR_INVAL [] ATTR_INVAL.BUSY && inv.fld .ATTR_INVAL [] ATTR_INVAL.ALL == 0 &&
     !State.reset.bit .ATTR_INVAL [] ATTR_INVAL.BUSY &&
     peValid (ptEntry p 0) && peMoving (ptEntry p 0) && p.plc.moves.isEmpty && mv.plc.moves.find? (fun m => m.page == 0) == some m &&
     !peLoc (ptEntry mv 0) && (moveEffect mv m noExt).2 && !m.toFar && !pageBusy (settlePage mv false 0) false 0 &&
     (let b := { mv with mem := { mv.mem with txns := [(0, { Txn.new .rdu 9 noLine 0 with wait := [73] })] } }
      pageBusy (settlePage b false 0) false 0) &&
     !(p.setFld .KST_POLICY_OWN [] ⟨1, 1⟩ 0).owned 1 &&
     (own4.setFld .KST_POLICY_OWN [] ⟨1, 1⟩ 1).owned 1 && !(own4.setFld .KST_POLICY_OWN [] ⟨1, 1⟩ 0).owned 1 &&
     cwState (er 0) (frameC hbm 0) (codewordOf hbm 0) == 0 &&
     cwState (er 2) (frameC hbm 0) (codewordOf hbm 0) == 2 && (ptPages (poisonSector (er 2) 0)).isEmpty && own4.owned 4 &&
     decide (11 < own4.asm.stacks) &&
     own4.fld .HBM_REGION [31] HBM_REGION.LIVE >>> 11 % 2 == 1 && !(hbm.setFld .KST_POLICY_OWN [] ⟨4, 4⟩ 0).owned 4 &&
     (reg 1).fld .HBM_REGION [31] HBM_REGION.STATE == 1 && holdCount (reg 1) 31 == 0 && regionClear (reg 1) 31 &&
     (reg 2).fld .HBM_REGION [31] HBM_REGION.STATE == 2) = true := by
  decide +kernel

/-! Accesses. -/

def gotIt (r : GetR) : Bool := match r with | .got s _ p => !contStarted s && !p | _ => false
def putIt (r : PutR) : Bool := match r with | .done s _ => !contStarted s | _ => false
/-- A read and a write of a requester both decode and are performed. -/
def servesRW (s : State) (q : Rq) (via : Via) (a n : Nat) : Bool :=
  (match decPieces s q false a n with | (.ok l, s1) => gotIt (getPieces s1 (q.code s1) via false noExt l) && gotIt (getPieces s1 (q.code s1) via true noExt l) | _ => false) &&
  (match decPieces s q true a n with | (.ok l, s1) => putIt (putPieces s1 q via false false noExt l (List.replicate n 1)) && putIt (putPieces s1 q via false true noExt l (List.replicate n 1)) | _ => false)
def pcsOf (r : PcsR × State) : Nat := match r.1 with | .ok _ => 0 | .undec => 1 | .denied => 2 | .held => 3
/-- Core 63 runs, the host link is up with its window, Pier 0 may reach HBM, and this is module 1. -/
def acc : State :=
  let s := (hbmUp State.reset).setFld .KST_CORE_STAT [63] KST_CORE_STAT.STATE 1
  let s := ((s.setFld .P0_CLC_STAT [] P0_CLC_STAT.LINK_UP 1).setFld .P0_CLC_STAT [] P0_CLC_STAT.HWIN_VALID 1).setFld .P0_CLC_STAT [] P0_CLC_STAT.HWIN 1
  ((s.setFld .RAW_HBM_ATTR [] RAW_HBM_ATTR.BAR_EN 1).setFld .KST_MOD_ID [] KST_MOD_ID.ACT_VALID 1).setFld .KST_MOD_ID [] KST_MOD_ID.ACT_ID 1
theorem test_meets_Accesses :
    (let win := 0x3C000000000
     let raw := 0x20000000000
     let parked := acc.setFld .KST_PARK [] KST_PARK.PARKED 1
     let p : Piece := ⟨.line 0 (acc.fld .RAW_HBM_ATTR [] RAW_HBM_ATTR.RTYPE), 0, raw, 8⟩
     let is8 (r : PcsR × State) : Bool := match r with | (.ok [q], _) => q.t == p.t && q.n == 8 | _ => false
     acc.live && acc.coreRuns 63 && servesRW acc (.core 63) (.agent 71) win 8 &&
     servesRW acc (.core 63) (.agent 71) raw 8 &&
     pcsOf (decPieces acc (.core 63) false 0x3FE00000000 8) == 1 &&
     is8 (decPieces acc (.core 63) false raw 8) && is8 (decPieces acc (.core 63) true raw 8) &&
     acc.fld .RAW_HBM_ATTR [] RAW_HBM_ATTR.RTYPE != 2 && acc.mem.coreRsv.isEmpty &&
     hostUp acc && acc.fld .KST_BOOT_STAT [] KST_BOOT_STAT.STAGE != 15 && !contStarted acc &&
     (match hostAddr acc false (2 ^ 42 + win) 8 with | .local_ x => x == win | _ => false) &&
     servesRW acc .host .none_ win 8 && pcsOf (decPieces acc .host false 0x30000000000 8) == 2 && pcieUp acc 3 &&
     servesRW acc (.pcie 3) .none_ raw 8 &&
     pcsOf (decPieces acc (.pcie 3) false win 8) == 1 && pcieUp parked 3 &&
     parked.bit .KST_PARK [] KST_PARK.PARKED && !acc.bit .KST_PARK [] KST_PARK.PARKED &&
     pcsOf (decPieces acc (.core 63) true 0x3FE00000000 8) == 1 &&
     [true, false].all (fun w => pcsOf (decPieces acc (.core 63) w 0 8) == 2) &&
     (let busy := { acc with mem := { acc.mem with txns := [(0, Txn.new .rdu 8 noLine 0)] } }
      (match decPieces busy (.core 63) false raw 8 with | (.ok l, s1) => (match getPieces s1 (unitKst 63) (.agent 71) false noExt l with | .wait => true | _ => false) | _ => false) &&
      (match decPieces busy (.core 63) true raw 8 with | (.ok l, s1) => (match putPieces s1 (.core 63) (.agent 71) false false noExt l (List.replicate 8 1) with | .wait => true | _ => false) | _ => false)) &&
     (let cx := acc.setFld .P0_CLC_STAT [] P0_CLC_STAT.CXL 1
      (match hostAddr cx true 0x40000010 8 with | .msix o => o == 0x10 | _ => false) &&
      (match hostAddr acc true 0 8 with | .none_ => true | _ => false) && hostUp cx && !contStarted cx) &&
     (match hostAddr acc false (2 ^ 42) 8 with | .local_ x => pcsOf (decPieces acc .host false x 8) == 2 | _ => false) &&
     (match hostAddr acc false (2 ^ 42 + 0x3FE00000000) 8 with | .local_ x => pcsOf (decPieces acc .host false x 8) == 1 | _ => false) &&
     (let mv := setEntry (acc.setFld .PLC_PT_BASE [] PLC_PT_BASE.BASE 0x100000) 0 (entPut (entPut (entPut 0 0 0 1) 15 8 255) 17 17 1)
      pcsOf (decPieces mv .host false 0 8) == 3) &&
     (let ct := (acc.setFld .KST_RAS_STAT [] KST_RAS_STAT.CONT_ACTIVE 1).setFld .KST_RAS_STAT [] KST_RAS_STAT.CONT_EVENT 2
      contStarted ct && contEvent ct == 2 && ct.up && hostUp ct) &&
     !inboundOff acc && inboundOff parked && peerInOk acc 1 && !peerInOk acc 2 && servesRW acc .peer .none_ win 8 &&
     (match peerLine acc win fullMask with | (.ok t act, s1) => !gateRecorded s1 (gateKey t) && (maskedWrite s1 t act ⟨0, 0, 0⟩ fullMask noExt).isSome | _ => false)) = true := by
  decide +kernel

/-! Registers and tile control. -/

theorem test_meets_FieldTypes : ((regInfo .SPAN_CACHE_STAT).flds.length == 6 &&
    (regInfo .SPAN_CACHE_STAT).flds.all (fun f => !(decide (f.lo ≤ 44) && decide (44 ≤ f.hi)))) = true := by
  decide +kernel

def regIs (r : RegSel) (k : RegId) (ix : List Nat) : Bool := match r with | .reg r' ix' => r' == k && ix' == ix | _ => false
theorem test_meets_RegisterAccesses :
    (let s := State.reset
     let st (n : Nat) := s.setFld .TILE_STAT (tix 511) TILE_STAT.STATE n
     let on := s.setFld .SPAN_PWR_STAT [7] SPAN_PWR_STAT.PD_ON 0xFF
     (match regSel s.asm 0x3FDFFFFFFF8 with | .undecoded => true | _ => false) &&
     (match regSel Assembly.b10 (regAddr .HBM_STK_STAT [11]) with | .absent => true | _ => false) &&
     regIs (regSel s.asm (regAddr .SPAN_CACHE_CTL [7])) .SPAN_CACHE_CTL [7] && regAddr .SPAN_CACHE_CTL [7] % 8 == 0 &&
     !spansMiddle (regInfo .SPAN_CACHE_CTL).flds &&
     spansMiddle (regInfo .TILE_IMEM_SRC).flds &&
     regIs (regSel s.asm (regAddr .TILE_IMEM_SRC (tix 511))) .TILE_IMEM_SRC (tix 511) &&
     regIs (regSel s.asm (regAddr .FMT_DESC (tix 511 ++ [15]) + 4)) .FMT_DESC (tix 511 ++ [15]) &&
     (regAddr .FMT_DESC (tix 511 ++ [15]) + 4) % 8 == 4 && (tix 511 ++ [15]).getD 2 0 == 15 &&
     tilePowered on 511 && !on.bit .TILE_STAT (tix 511) TILE_STAT.RESETTING && on.tstate 511 == 0 &&
     (st 4).tstate 511 == 4) = true := by decide +kernel

/-- Tile 511 powered, left to software, in a state. -/
def tAt (st : Nat) (x : Tile) : State :=
  let s := ((State.reset.setFld .SPAN_PWR_STAT [7] SPAN_PWR_STAT.PD_ON 0xFF).setTile 511 x).setFld .TILE_STAT (tix 511) TILE_STAT.STATE st
  s.setFld .KST_QS_EXCL_ACT [7] KST_QS_EXCL_ACT.EXCL_ACT (2 ^ 63)
theorem test_meets_TileControlCommands :
    (let z := Tile.zero
     let s := tAt 0 z
     let off := s.setFld .SPAN_PWR_STAT [7] SPAN_PWR_STAT.PD_ON 0
     let rs := s.setFld .TILE_STAT (tix 511) TILE_STAT.RESETTING 1
     let pc (n : Nat) := s.setFld .TILE_ENTRY (tix 511) TILE_ENTRY.PC n
     let own := s.setFld .KST_QS_EXCL_ACT [7] KST_QS_EXCL_ACT.EXCL_ACT 0
     let e (f : InsS) (x : Tile) : Bool := readyHead (tAt 1 (x.setQ .scalar [ent (encS 0x01 f) 0])) 511 .scalar (encS 0x01 f) 0 == some (ent (encS 0x01 f) 0)
     s.live && tilePowered s 511 && !tilePowered off 511 && !s.bit .TILE_STAT (tix 511) TILE_STAT.RESETTING &&
     rs.bit .TILE_STAT (tix 511) TILE_STAT.RESETTING && stayWinOk s 511 &&
     s.fld .TILE_CTL (tix 511) TILE_CTL.DISABLE == 0 && !s.bit .KST_PARK [] KST_PARK.PARKED &&
     s.fld .KST_QS_EXCL_ACT [7] KST_QS_EXCL_ACT.EXCL_ACT >>> 63 % 2 == 1 &&
     own.fld .KST_QS_EXCL_ACT [7] KST_QS_EXCL_ACT.EXCL_ACT == 0 &&
     (pc 8).fld .TILE_ENTRY (tix 511) TILE_ENTRY.PC % 8 == 0 &&
     (pc 4).fld .TILE_ENTRY (tix 511) TILE_ENTRY.PC % 8 == 4 &&
     s.fld .TILE_ENTRY (tix 511) TILE_ENTRY.CTX_ID == tileCtx s 511 &&
     (s.setFld .TILE_ENTRY (tix 511) TILE_ENTRY.CTX_ID 255).fld .TILE_ENTRY (tix 511) TILE_ENTRY.CTX_ID != tileCtx s 511 &&
     (List.range 8).all (fun n => (tAt n z).tstate 511 == n) && z.retiring == 0 && !z.aborting && !z.started && z.quiet &&
     z.mmas.isEmpty && z.drains.isEmpty && z.loads.isEmpty &&
     ((tAt 1 { z with excTag := some 1, started := true, disp := 3 }).tile 511).disp == 3 &&
     ((tAt 1 { z with aborting := true }).tile 511).aborting &&
     (let g (u : Nat) := ((tAt 4 { z with retiring := 2 }).setFld .KST_HART_STAT [] KST_HART_STAT.RUN 15).wr .SPAN_SPARE_MAP [7]
        ((List.range 4).foldl (fun w k => fput w (SPAN_SPARE_MAP.USED.shift 16 k) u) 0)
      hartRuns (g 0) 2 && !hartRuns s 2 && (freeSpare (g 0) 7).isSome && (freeSpare (g 1) 7).isNone && decide (physOf (g 0) 511 < 64) &&
      (g 0).tstate 511 == 4 && decide (physOf ((g 1).setFld .SPAN_SPARE_MAP [7] (SPAN_SPARE_MAP.LOG_ID.shift 16 0) 1) 511 < 64)) &&
     (let f := tAt 1 { z with excTag := some 1, started := false }
      f.fld .TILE_EXC (tix 511) TILE_EXC.CAUSE != 9 && f.fld .TILE_EXC (tix 511) TILE_EXC.CAUSE != 0x0A && tileParity f 511 == f &&
      (f.tile 511).quiet) &&
     (let c (e : Bool) : State := { tAt 1 { z with disp := 3 } with q := { State.reset.q with disps := [⟨3, 0, 0, [1], [511], 0, none, 0, [], 0, e, false⟩] } }
      [true, false].all (fun e => (c e).q.disps.any (fun y => y.id == 3 && y.ending == e))) &&
     ((tAt 1 { z with retiring := 2 }).tile 511).retiring == 2 && e ⟨1, 0, 0, 0, 0, 0, 0⟩ z && e ⟨0, 0, 0, 0, 0, 0, 0⟩ z &&
     e ⟨0, 0, 0, 0, 0, 0, 0⟩ { z with qv := [ent 0 0] } &&
     !z.predOn 1 && z.predOn 0) = true := by decide +kernel

/-- A save record of tile 511 in page 0 of the raw window: version 1, complete, its tile and Span. -/
theorem test_meets_PreemptionAndLoads :
    (let z := Tile.zero
     let base (s : State) := (hbmUp s).setFld .TILE_SAVE_BASE (tix 511) TILE_SAVE_BASE.BASE 0x100000
     let s := base (tAt 4 z)
     let r := fwWriteBytes (fwWriteBytes s (savePage s 511) (leBytes 8 257)) (savePage s 511 + 0x18) (leBytes 8 (63 * 256 + 7 * 2 ^ 14))
     let ld (n : Nat) := ((tAt 0 z).setFld .TILE_IMEM_LOAD (tix 511) TILE_IMEM_LOAD.BUSY n).setFld .TILE_IMEM_LOAD (tix 511) TILE_IMEM_LOAD.BLOCKS 1
     let src := (hbmUp (ld 1)).setFld .TILE_IMEM_SRC (tix 511) TILE_IMEM_SRC.ADDR 0x800000000
     s.live && tilePowered s 511 && (tAt 1 z).tstate 511 == 1 && z.stopped && z.excTag.isNone && z.retiring == 0 && !z.aborting &&
     { z with excTag := some 0 }.excTag.isSome && (tAt 2 z).tstate 511 == 2 && !contStarted (tAt 3 z) &&
     contStarted (({ tAt 3 z with regs := (tAt 3 z).regs }).setFld .KST_RAS_STAT [] KST_RAS_STAT.CONT_ACTIVE 1) &&
     !{ z with outs := [⟨1, 0, true, 5, [0], false, 0, 0⟩] }.outs.isEmpty && { z with heldReset := true }.heldReset && (tAt 1 z).fld .TILE_IMEM_LOAD (tix 511) TILE_IMEM_LOAD.BUSY == 0 &&
     !(({ z with mmas := [mmaRec] } : Tile).stopped) && (tAt 3 z).tstate 511 == 3 && recOk r 511 && !recOk s 511 &&
     r.tstate 511 == 4 && r.mem.er.isEmpty && r.mem.odd.isEmpty && (tAt 5 z).tstate 511 == 5 && z.outs.isEmpty &&
     !z.heldReset && !z.heldAbort &&
     (ld 0).fld .TILE_IMEM_LOAD (tix 511) TILE_IMEM_LOAD.BUSY == 0 &&
     (ld 1).fld .TILE_IMEM_LOAD (tix 511) TILE_IMEM_LOAD.BUSY == 1 &&
     src.fld .TILE_IMEM_SRC (tix 511) TILE_IMEM_SRC.ADDR * 64 == 0x20000000000 &&
     (match imemBlocks src 511 0 noExt 1 0x20000000000 0 with | some (_, q) => decide (q < 256) | none => false) &&
     (match imemBlocks src 511 0 noExt 1 0x38000000000 0 with | some (_, q) => q == 0x0E | none => false)) = true := by decide +kernel

/-! Trestle and the rings. -/

/-- A Trestle ring of Span 7 in the raw window; software owns the policy, one descriptor is posted, numbering runs. -/
def trAt (x : TrSpan) : State :=
  let s := (hbmUp State.reset).setFld .KST_POLICY_OWN [] ⟨2, 2⟩ 1
  let s := ((s.setFld .TR_Q_BASE [7] LAT_Q_BASE.BASE 0x800000000).setFld .TR_Q_BASE [7] LAT_Q_BASE.LOG2_SIZE 4).setFld .TR_CTL [7] TR_CTL.EN 1
  (s.setFld .TR_WIN [7] TR_WIN.SLOTS 2).setTrs 7 x
def trOne : TrSpan := ⟨1, 1, 0, 0, none, true, 0, [], [(0, 0)], [], []⟩
/-- Layer 0 of one line of object 0, deadline 1. -/
def layer0 : TrLayer := ⟨0, [0, 0, BitVec.ofNat 64 (128 + 2 ^ 32), 0, 0, 0x20000000000, 0, 0], 0, false, false, []⟩
theorem test_meets_TrestleLayers :
    (let s := trAt trOne
     let run := trAt { trOne with run := [layer0] }
     let late := run.wr .SPAN_AC_CNT [7] 2
     let lines (s : State) (l : TrLayer) : Bool := match trLines s 7 l (trOffs l) noExt with | some (s2, _, _) => s2.live | none => false
     let obj (s : State) := (setEntry (s.setFld .PLC_PT_BASE [] PLC_PT_BASE.BASE 0x100001) 0 (entPut 0 0 0 1)).setFld .PLC_OBJ_BASE [] PLC_PT_BASE.BASE 0x100002
     let far := (setEntry (obj run) 0 (entPut (entPut 0 0 0 1) 16 16 1))
     let up := far.setFld .P0_CLC_STAT [] P0_CLC_STAT.LINK_UP 1
     let held := setEntry (obj run) 0 (entPut (entPut 0 0 0 1) 17 17 1)
     s.live && s.owned 2 && !(s.setFld .KST_POLICY_OWN [] ⟨2, 2⟩ 0).owned 2 && trSize s 7 == 16 &&
     fget 15 LAT_DB.TAIL == 15 && fget 16 LAT_DB.TAIL == 16 &&
     s.bit .TR_CTL [7] TR_CTL.EN && !s.bit .TR_CTL [7] TR_CTL.DISABLE && !State.reset.bit .TR_CTL [7] TR_CTL.EN &&
     !trBusy (trAt { trOne with tail := 0, posted := 0 }) 7 && trBusy run 7 && s.stay.waits.isEmpty &&
     trReady s 7 && !trReady (trAt { trOne with started := 1 }) 7 && trHead s 7 == some [0, 0, 0, 0, 0, 0, 0, 0] &&
     trReady (trAt { trOne with started := 0, tries := 7 }) 7 &&
     (let q := trAt { trOne with started := 16, posted := 17 }; trReady q 7 &&
     (match trHead q 7 with | some ws => dW ws 0 63 56 != 16 | none => false)) &&
     trReady (trAt { trOne with cut := some 1 }) 7 && trReady (trAt { trOne with cut := some 0 }) 7 && run.live &&
     !trMissAt run 7 layer0 false && trMissAt late 7 layer0 false &&
     !trMissAt run 7 layer0 true && lines (obj run) layer0 &&
     (match trLines held 7 layer0 (trOffs layer0) noExt with | none => true | some _ => false) &&
     (trOffs layer0).contains 0 &&
     (match (decLocal far (.eng 0 (unitSpan 7 0x51)) 0 false).1 with | .ok (.line ln _) _ => isFar ln | _ => false) &&
     objPage far (trSrc layer0).1 == 0 && hostUp up && !hostUp far &&
     objWord far 0 1 == 0) = true := by decide +kernel

/-- Ring 4095 of 2 slots in the raw window, its completions behind it. -/
def ringAt (x : Ring) : State :=
  let s := (hbmUp State.reset).setFld .RING_BASE [4095] RING_BASE.ADDR 0x800000000
  let s := ((s.setFld .RING_CPL [4095] RING_CPL.ADDR 0x4000001000).setFld .RING_CTL [4095] RING_CTL.EN 1).setFld .KST_HART_STAT [] KST_HART_STAT.RUN 15
  s.setRing 4095 x
/-- A dispatch on one tile of Span 0 with a fixed, empty Stay window; a MARKER. -/
def dispWords : List (BitVec 64) := [1, BitVec.ofNat 64 (0x20000000000 + 2 ^ 42), 0, 0, BitVec.ofNat 64 (2 ^ 29), BitVec.ofNat 64 (2 ^ 24), 0, 0]
def markWords : List (BitVec 64) := [2, 0, 0, 0, 0, 0, 0, 0]
theorem test_meets_CommandRings :
    (let z : Ring := ⟨1, 1, 0, 0, [], 0, [], none⟩
     let s := ringAt z
     let c (f : Fld) (n : Nat) := s.setFld .RING_CTL [4095] f n
     let off := c RING_CTL.EN 0
     let n := ringSize s 4095
     let okA (s : State) : Bool := areaOk s (s.fld .RING_BASE [4095] RING_BASE.ADDR * 64) (64 * n) 0 (s.bit .RING_BASE [4095] RING_BASE.HOST) false &&
       areaOk s (s.fld .RING_CPL [4095] RING_CPL.ADDR * 8) (8 * n) 0 (s.bit .RING_CPL [4095] RING_CPL.HOST) true
     let stop := ringStop s 4095 4
     let slot (s : State) (k : Nat) (b : Bool) : Bool := match ringSlot s 4095 noExt with
       | some (s1, j, ws) => s1.live && j == k && (dW ws 0 63 32 == (s.ring 4095).read % 2 ^ 32) == b | none => false
     let pz := { s with mem := { s.mem with pz := [0] } }
     let wait := ringAt { z with read := 1, posted := 2 }
     let wr (s : State) (l : List (BitVec 64)) : State := (List.range 8).foldl (fun s i => fwWriteBytes s (0x20000000000 + 8 * i) (leBytes 8 (l.getD i 0).toNat)) s
     let d : Disp := ⟨1, 4095, 0, dispWords, [0], 0, none, 0, [], 0, false, false⟩
     let elig (w : List (BitVec 64)) := (ringAt { z with read := 1, elig := [(0, w)] }).setFld .SPAN_PWR_STAT [0] SPAN_PWR_STAT.PD_ON 0xFF
     let run (ended : Bool) := { (tileAt { Tile.zero with ended := ended }) with q := { State.reset.q with disps := [d] } }
     let o : Owed := ⟨4095, 0, false, 0x20000008000, 7, none⟩
     let w := { s with q := { s.q with owed := [o] } }
     s.live && n == 16 && okA off &&
     !okA ((off.setFld .RING_CPL [4095] RING_CPL.ADDR 0x7F80000000).setFld .RING_CPL [4095] RING_CPL.HOST 0) &&
     off.fld .RING_CTL [4095] RING_CTL.DISABLE == 0 &&
     s.bit .RING_CTL [4095] RING_CTL.EN && !off.bit .RING_CTL [4095] RING_CTL.EN && !ringStopped s 4095 &&
     ringStopped stop 4095 && z.posted - z.low - z.recs.length + 15 == n &&
     seqNum z 0 == some 0 && seqNum z 1 == none && !z.recorded 0 && ({ z with low := 1 } : Ring).recorded 0 &&
     slot s 0 true && slot wait 0 false && slot pz 4 true &&
     ringDescOk s 4095 markWords && !ringDescOk s 4095 [0, 0, 0, 0, 0, 0, 0, 0] && slot (wr s markWords) 0 true &&
     qsAlive s && !qsAlive State.reset && s.fld .RING_CTL [4095] RING_CTL.EN == 1 && (seqNum { z with posted := 8 } 3).isSome &&
     (let e (t : Nat) (c : Option Nat) := ringAt { z with tries := t, cut := c }
      [0, 7, 8].all (fun t => [none, some 1].all (fun c => (slot (e t c) 0 true) && ((e t c).ring 4095).read < ((e t c).ring 4095).posted))) &&
     slot (ringAt { z with read := 2, posted := 3, cut := some 5 }) 0 false &&
     (let q (d : Disp) : State := { s with q := { s.q with disps := [d] } }
      [d, { d with force := some 1 }, { d with words := markWords }].all (fun d =>
       (q d).q.disps.find? (fun d => d.ring == 4095 && d.num == 0) == some d)) && !(s.ring 4095).recorded 0 &&
     (let h := ((s.setFld .RING_CPL [4095] RING_CPL.HOST 1).setFld .RING_STAT [4095] RING_STAT.STOPPED 1).setFld .RING_STAT [4095] RING_STAT.STOP_STATUS 0x0A
      hostBound h 4095 && ringStopped h 4095 && h.fld .RING_STAT [4095] RING_STAT.STOP_STATUS == 0x0A) &&
     (let bz := { s with mem := { s.mem with txns := [(0, Txn.new .rdu 8 noLine 0)] } }
      (writeCpl bz { o with addr := 0x20000000000 }).isNone && qsAlive bz) &&
     ringsUp (elig dispWords) == [4095] && headFits (elig dispWords) dispWords &&
     (let w := dispWords.set 4 (BitVec.ofNat 64 (2 ^ 29 + 64 * 2 ^ 20)); !headFits (elig w) w && dW w 0 7 0 == 1) &&
     (let b := elig dispWords; let t := b.setFld .TILE_PROG_ID (tix 0) ⟨63, 0⟩ 7
      let g := { d with words := dispWords.set 2 7 }
      (match startOne t g 0 0 0 noExt with | some (u, q) => q == 0 && u.live | none => false) &&
      (match startOne (t.setFld .TILE_CTL (tix 0) TILE_CTL.DISABLE 1) g 0 0 0 noExt with | some (u, q) => q == 9 && u.live | none => false)) &&
     qsRuns s && !qsRuns State.reset && nextRing s == none &&
     nextRing (elig dispWords) == some 4095 &&
     (match headWin (elig dispWords) dispWords with | some (x, _) => x == 0 | none => false) &&
     ringHead (elig markWords) 4095 == some (0, markWords) &&
     (freeTiles (elig dispWords) 4095 dispWords).length == 64 && tilePowered (elig dispWords) 0 &&
     !tilePowered ((elig dispWords).setFld .SPAN_PWR_STAT [0] SPAN_PWR_STAT.PD_ON 0) 0 &&
     (let b := dispWords.set 4 (BitVec.ofNat 64 (2 ^ 29 + 64 * 2 ^ 20)); ringHead (elig b) 4095 == some (0, b) &&
     decide ((freeTiles (elig b) 4095 b).length ≤ dW b 4 28 20)) && (elig dispWords).q.starve.isEmpty &&
     dispDone (run true) d && !dispDone (run false) d && w.q.disps.isEmpty &&
     (writeCpl w o).isSome) = true := by decide +kernel

/-! The host port, the Keystone and power. -/

theorem test_meets_HostPort :
    (let s := State.reset
     let up := s.setFld .P0_CLC_STAT [] P0_CLC_STAT.LINK_UP 1
     let dr := up.setFld .KST_PARK [] KST_PARK.DRAINING 1
     let rd := { up with mem := { up.mem with farRd := [2 ^ 47], net := [msg .data 8 (2 ^ 47) 2 noLine] } }
     let d : Disp := ⟨1, 4095, 0, dispWords, [], 0, none, 0, [], 0, false, false⟩
     let busy := { dr with q := { dr.q with disps := [d] } }
     hostUp up && up.fld .KST_PARK [] KST_PARK.DRAINING == 0 && (let m (n : Nat) : State := { s with clc := { s.clc with mode := n } }
       (m 1).clc.mode == 1 && (m 2).clc.mode == 2 && !hostUp (m 1) && !hostUp (m 2)) &&
     s.up && !hostUp s && hostUp up && s.fld .KST_PARK [] KST_PARK.DRAINING == 0 &&
     dr.fld .KST_PARK [] KST_PARK.DRAINING == 1 && hostUp dr && dr.live && s.clc.mode == 0 &&
     rd.mem.farRd.contains (2 ^ 47) && !rd.mem.farRd.contains 0 && fget (fput 0 P0_CLC_CFG.MODE 3) P0_CLC_CFG.MODE == 3 &&
     fget (fput 0 P0_CLC_CFG.DRAIN_MS 1) P0_CLC_CFG.DRAIN_MS == 1 &&
     dr.q.disps.isEmpty && busy.q.disps == [d] && d.tiles.isEmpty && busy.tiles.isEmpty && !drained busy &&
     drained dr) = true := by decide +kernel

/-- A call of a mailbox that waits to be carried out, the service hart running. -/
def callAt (m code : Nat) (s : State := State.reset) : State :=
  { s.setFld .KST_HART_STAT [] KST_HART_STAT.RUN 15 with kst := ⟨[], [⟨m, code, false, 0x20000000000, false, false, none, []⟩], []⟩ }
def oneCall (m code : Nat) : Call := ⟨m, code, false, 0x20000000000, false, false, none, []⟩
theorem test_meets_CoresHartsAndCalls :
    (let s := State.reset
     let st (n : Nat) := s.setFld .KST_CORE_STAT [63] KST_CORE_STAT.STATE n
     let gone := s.wr .KST_CORE_RETIRED [] (2 ^ 63)
     let rst := { st 0 with kst := ⟨[63], [], []⟩ }
     let hold := rst.setFld .KST_CORE_CTL [63] KST_CORE_CTL.HOLD 1
     let free := rst.setFld .KST_CORE_CTL [63] KST_CORE_CTL.HOLD 0
     let all := s.setFld .KST_HART_STAT [] KST_HART_STAT.RUN 15
     let none_ := s.setFld .KST_HART_STAT [] KST_HART_STAT.RUN 0
     let twice := { all with ras := { all.ras with lsTimes := [0, 0] } }
     let c := callAt 256 0x0301
     let done := { c with kst := ⟨[], [{ oneCall 256 0x0301 with stat := some 0 }], []⟩ }
     let busy := s.setFld .KST_MBOX_STAT [256] KST_MBOX_STAT.BUSY 1
     s.live && [0, 1, 2].all (fun n => coreState (st n) 63 == n) && !coreRetired s 63 && coreRetired gone 63 &&
     fget (fput 0 KST_CORE_CTL.RVEC (2 ^ 36 - 1)) KST_CORE_CTL.RVEC < 2 ^ 36 &&
     fget (2 ^ 64 - 1) KST_CORE_CTL.RVEC ≥ 2 ^ 36 && rst.kst.coreRst.contains 63 &&
     hold.bit .KST_CORE_CTL [63] KST_CORE_CTL.HOLD && !free.bit .KST_CORE_CTL [63] KST_CORE_CTL.HOLD &&
     !s.bit .KST_PARK [] KST_PARK.PARKED && s.q.disps.isEmpty && [0, 1, 2, 3].all (fun h => hartRuns all h &&
     !hartRuns none_ h) && twice.ras.lsTimes.length == 2 && twice.clk.fc == 0 &&
     callOf c 256 == some (oneCall 256 0x0301) && callServed c 256 && callServed done 256 && (callOf done 256).isSome &&
     busy.bit .KST_MBOX_STAT [256] KST_MBOX_STAT.BUSY &&
     !s.bit .KST_MBOX_STAT [256] KST_MBOX_STAT.BUSY &&
     fget (fput 0 KST_MBOX_CTL.GO 1) KST_MBOX_CTL.GO == 1) = true := by decide +kernel

theorem test_meets_PowerDomains :
    (let s := State.reset
     let wk := { s with pwr := { s.pwr with wakes := [63], offs := [79] } }
     let own := s.setFld .KST_POLICY_OWN [] ⟨0, 0⟩ 1
     let ours := s.setFld .KST_POLICY_OWN [] ⟨0, 0⟩ 0
     let on := (own.setFld .SPAN_PWR_STAT [7] SPAN_PWR_STAT.PD_ON 0xFF).setFld .TILE_STAT (tix 511) TILE_STAT.STATE 1
     let tns := (ours.setFld .SPAN_PWR_STAT [7] SPAN_PWR_STAT.PD_ON 0xFF).setFld .KST_HART_STAT [] KST_HART_STAT.RUN 15
     let w8 := (List.range 8).foldl (fun w g => fput w (KST_KC_TARGET.MHZ_50.shift 8 g) 68) 0
     let wf := s.setFld .SPAN_PWR_CTL [7] SPAN_PWR_CTL.FMAX_MHZ 1080
     let out := { tns.setTile 511 { Tile.zero with outs := [⟨1, 0, true, 5, [0], false, 0, 0⟩] } with pending := [] }
     [64, 71, 72, 79].all (fun d => let v := { s with pwr := { s.pwr with wakes := [d] } }; v.up && v.pwr.wakes.contains d) &&
     (s.setFld .CLX_LINK_CTL (clxIx 18) CLX_LINK_CTL.EN 1).bit .CLX_LINK_CTL (clxIx 18) CLX_LINK_CTL.EN &&
     !s.bit .CLX_LINK_ERR (clxIx 18) CLX_LINK_ERR.RETIRED && { s.pwr with lim := [19] }.lim.contains 19 && 19 < 16 + s.asm.piers &&
     s.up && s.pwr.wakes.isEmpty && s.pwr.offs.isEmpty && wk.pwr.wakes.contains 63 && wk.pwr.offs.contains 79 &&
     own.owned 0 && !ours.owned 0 && acOk wf 7 1080 1080 && !acOk wf 7 1090 1080 &&
     offsOk own 56 8 0 && !offsOk on 56 8 0xFF && on.fld .SPAN_PWR_CTL [7] SPAN_PWR_CTL.PD_OFF == 0 &&
     (List.range 8).all (fun g => fget w8 (KST_KC_TARGET.MHZ_50.shift 8 g) == 68) &&
     offsOk own 64 8 0 && tensionActs tns && groupsOn tns 7 == 8 && domOn tns 63 && offOk tns 63 &&
     mget 0 tns.pwr.retry 63 == 0 && !tensionActs own && domPending out 63 &&
     offOk out 63 && s.asm.piers == 4 && !s.pwr.lim.contains 19) = true := by decide +kernel

/-- A legal curve in Span 7: 400 to 1,080 MHz with 940, 600 to 750 mV. -/
def curve (s : State) : State :=
  (List.range 16).foldl (fun s i => (s.setFld .SPAN_VF_CURVE [7, i] SPAN_VF_CURVE.FREQ_MHZ (if i < 14 then 400 + 40 * i else if i = 14 then 940 else 1080)).setFld .SPAN_VF_CURVE [7, i] SPAN_VF_CURVE.VOLT_MV (600 + 10 * i)) s
theorem test_meets_Tension :
    (let s := State.reset
     let run := (s.setFld .KST_HART_STAT [] KST_HART_STAT.RUN 15).setFld .KST_POLICY_OWN [] ⟨0, 0⟩ 0
     let own := curve (s.setFld .KST_POLICY_OWN [] ⟨0, 0⟩ 1)
     let word : Nat := own.rd .SPAN_VF_CURVE [7, 15]
     let d : CapStep := ⟨0, 0, [], [], 0⟩
     let pw (f : Pwr → Pwr) : State := { run with pwr := f run.pwr }
     let g := (pw (fun p => { p with guard := 1, raw := [100, 100] })).setFld .TNS_CAP [] TNS_CAP.CAP_W 0
     let busy := run.wr .KST_COLL_BUSY [] 1
     let chg (u ph : Nat) (t : List Nat) := pw (fun p => { p with chg := [(u, ⟨900, 700, ph⟩)], trips := t })
     let al := { s with board := { s.board with alertInt := true } }
     let fm := (List.range 8).foldl (fun s p => s.setFld .SPAN_PWR_CTL [p] SPAN_PWR_CTL.FMAX_MHZ 1080) run
     s.fld .TNS_CAP [] TNS_CAP.CAP_W != 0 && (pw (fun p => { p with next := some (1, 2400) })).pwr.next == some (1, 2400) &&
     s.pwr.chg.isEmpty && decide (2 * 200 * 4 < 3 * 2000) && !overCap run && run.pwr.trips.isEmpty &&
     (run.setFld .KST_POLICY_OWN [] ⟨0, 0⟩ 1).owned 0 && !vraActive s && vraActive (alertAssert { s with board := { s.board with alertInt := true } }) &&
     s.fld .TNS_CAP [] TNS_CAP.CAP_W ≤ modeCap s.asm 0 && (own.setFld .TNS_CAP [] TNS_CAP.CAP_W 3000).fld .TNS_CAP [] TNS_CAP.CAP_W == 3000 &&
     modeCap s.asm s.pwr.mode ≥ s.fld .TNS_CAP [] TNS_CAP.CAP_W && fget (fput 0 TNS_CAP.USER_CAP_W 1200) TNS_CAP.USER_CAP_W == 1200 &&
     s.up && kmh1Runs run && !kmh1Runs (s.setFld .KST_HART_STAT [] KST_HART_STAT.RUN 0) && g.pwr.guard != 0 && overCap g &&
     s.pwr.guard == 0 && g.pwr.raw.sum == 200 && 4 * 200 ≥ 3 * 200 &&
     tensionActs run && stepOk fm 0 (List.replicate 8 1080) (List.replicate 8 3400) && !stepOk fm 0 [] [] &&
     lowers (run.setFld .TNS_CAP [] TNS_CAP.CAP_W 1) d && busy.rd .KST_COLL_BUSY [] == 1 &&
     !lowers run ⟨0, 4000, [], [], 0⟩ && (pw (fun p => { p with defer := some d })).pwr.defer == some d &&
     s.pwr.defer == none && (chgOf s 15).isNone && [0, 2, 3, 4].all (fun ph => [[], [7]].all (fun t =>
       (chgOf (chg 7 ph t) 7).isSome)) && decide (900 < unitMhz (chg 15 2 []) 15) && al.board.alertInt &&
       !s.board.alertInt && !s.board.alertExt && modeCap s.asm 0 == 3600 &&
     vfOk own 7 15 word && !vfOk own 7 15 0 && own.owned 0 &&
     fget (fput 0 TNS_CAP.USER_CAP_W 1199) TNS_CAP.USER_CAP_W == 1199) = true := by decide +kernel

/-! Links, retirement, Gauge, boot, management and module power. -/

/-- Both ends of the link at port 24 of Span 7 (the Keystone's port 14) in a state. -/
def cldAt (st : Nat) (x : CldX) : State :=
  match cldLink State.reset 7 24 with
  | some (a, b) => (setCldStat (setCldStat State.reset a CLD_PORT_STAT.STATE st) b CLD_PORT_STAT.STATE st).setCld a x
  | none => State.reset
theorem test_meets_DieLinks :
    (let z : CldX := ⟨0, 0, 0, 0, 0, false, false, 0, 0⟩
     let s := State.reset
     let e := (7, 24)
     let on (f : Fld) (n : Nat) := setCldStat (cldAt 6 z) e f n
     let err (f : Fld) (n : Nat) := setCldErr (cldAt 6 z) e f n
     (cldLink s 7 24 == some ((7, 24), (8, 14))) && (cldLink s 0 0).isNone && (cldPeer s.asm 7 24).isSome && s.up &&
     [0, 1, 2, 3, 4, 5, 6, 7, 8, 15].all (fun n => cldStat (cldAt n z) e CLD_PORT_STAT.STATE == n &&
     cldStat (cldAt n z) (8, 14) CLD_PORT_STAT.STATE == n) &&
     cldStat (setCldStat (cldAt 1 z) e CLD_PORT_STAT.STATE 2) e CLD_PORT_STAT.STATE == 2 &&
     cldErr s e CLD_PORT_ERR.RETIRED == 0 && cldErr (err CLD_PORT_ERR.RETIRED 1) e CLD_PORT_ERR.RETIRED == 1 &&
     advert 0 (min 3 (cldCap s e)) != 0 && advert (BitVec.allOnes 64) 3 == 0 &&
     ((cldAt 6 { z with prob := true, crc := 15 }).cld e).crc == 15 &&
     ((cldAt 6 { z with prob := true, commit := true }).cld e).commit &&
     cldErr (err CLD_PORT_ERR.FAIL_STREAK 3) e CLD_PORT_ERR.FAIL_STREAK == 3 &&
     cldStat (on CLD_PORT_STAT.WIDTH 3) e CLD_PORT_STAT.WIDTH == 3 &&
     cldStat (on CLD_PORT_STAT.WIDTH 1) e CLD_PORT_STAT.WIDTH == 1 &&
     cldErr (err CLD_PORT_ERR.NOT_COMPAT 1) e CLD_PORT_ERR.NOT_COMPAT == 1 && cldErr s e CLD_PORT_ERR.NOT_COMPAT == 0 &&
     cldRunning (cldAt 6 z) e && !cldRunning s e &&
     (let w2 (n : Nat) := setCldErr (setCldStat (on CLD_PORT_STAT.WIDTH 2) e CLD_PORT_STAT.ACT_FEAT n) e CLD_PORT_ERR.FAIL_STREAK 3
      cldStat (w2 8) e CLD_PORT_STAT.WIDTH == 2 && cldStat (w2 8) e CLD_PORT_STAT.ACT_FEAT >>> 3 % 2 == 1 &&
      cldStat (w2 0) e CLD_PORT_STAT.ACT_FEAT >>> 3 % 2 == 0 && cldErr (w2 0) e CLD_PORT_ERR.FAIL_STREAK == 3) &&
     (let k := 32 * 7 + 8; let u := on CLD_PORT_STAT.WIDTH 3; let t := bundleTable u 7 8
      let v : State := { u with links := { u.links with db := [(k, t)] } }
      (mfind v.links.db k).getD [] == t && t != [] && (mfind u.links.db k).getD [] != t &&
      (let o : State := { u with links := { u.links with db := [(k, List.replicate 16 99)] } }
       (mfind o.links.db k).getD [] != t && ((mfind o.links.db k).getD [])[15]? == some 99 && t[15]?.isSome && t[15]? != some 99)) &&
     (([(24, 1), (25, 4)] : List (Nat × Nat)).map (·.2)).sum != 0 && cldStat (cldAt 6 z) e CLD_PORT_STAT.STATE == 6 &&
     cldFast (on CLD_PORT_STAT.ACT_FEAT 32) e && !cldFast s e &&
     cldStat (on CLD_PORT_STAT.ACT_FEAT 16) e CLD_PORT_STAT.ACT_FEAT >>> 4 % 2 == 1 &&
     fget (fput 0 CLD_PORT_CTL.MAX_WIDTH 0) CLD_PORT_CTL.MAX_WIDTH == 0 &&
     cldRunning ((cldAt 6 z).plain (cldRegs 7 24).2.2.1 (cldRegs 7 24).2.2.2 (fput (fput 0 CLD_PORT_CTL.MAX_WIDTH 3) CLD_PORT_CTL.RETRAIN 1)) e) = true := by
  decide +kernel

/-- Link 23 powered, in a state. -/
def clxAt (st : Nat) : State := setClxState (State.reset.setFld .KST_PD_CTL [] KST_PD_CTL.PIER_PD_ON 0xFF) 23 st
theorem test_meets_ModuleLinks :
    (let s := State.reset
     let off := s.setFld .KST_PD_CTL [] KST_PD_CTL.PIER_PD_ON 0
     let ret (s : State) (row : Nat) := (retireEvent s row (clxUnit 23)).2
     let few (row n : Nat) := (clxAt 6).setFld .KST_RETIRE [row] KST_RETIRE.THRESH n
     let w (f : Fld) (n : Nat) (v : Nat) := fput v f n
     s.up && !clxThere off 23 && (List.range 16).all (fun n => clxThere (clxAt n) 23 && clxState (clxAt n) 23 == n) &&
     laneChoice 0 true == some (8, false) &&
     laneChoice 1 false == some (8, true) && laneChoice 3 false == none && laneChoice 3 true == some (4, false) &&
     !ret ((few 15 255).setFld .KST_RETIRE [15] KST_RETIRE.INC 1) 15 &&
     ret ((few 13 1).setFld .KST_RETIRE [13] KST_RETIRE.INC 1) 13 &&
     !ret ((few 13 255).setFld .KST_RETIRE [13] KST_RETIRE.INC 1) 13 &&
     ret ((few 16 1).setFld .KST_RETIRE [16] KST_RETIRE.INC 1) 16 &&
     ((clxAt 6).setFld .CLX_LINK_STAT (clxIx 23) CLX_LINK_STAT.ACT_FEAT 64).fld .CLX_LINK_STAT (clxIx 23) CLX_LINK_STAT.ACT_FEAT >>> 6 % 2 == 1 &&
     (let v (n : Nat) := (clxAt n).setFld .CLX_LINK_STAT (clxIx 23) CLX_LINK_STAT.PEER_VALID 1
      let q (n : Nat) := (v n).setVc 23 ⟨[(1, .coreData 0 []), (3, .coreData 1 [])], 2⟩
      (v 6).bit .CLX_LINK_STAT (clxIx 23) CLX_LINK_STAT.PEER_VALID && !(clxAt 6).bit .CLX_LINK_STAT (clxIx 23) CLX_LINK_STAT.PEER_VALID &&
      ((v 6).vc 23).q.isEmpty && clxState (q 7) 23 == 7 && ((q 6).vc 23).q.any (fun y => y.1 == 1) &&
      (List.range 4).any (fun i => ((q 6).vc 23).q.any (fun m => m.1 == vcSlot (2 + i)))) &&
     fget (w CLX_LINK_CTL.EN 1 (w CLX_LINK_CTL.RETRAIN 1 0)) CLX_LINK_CTL.RETRAIN == 1 &&
     fget (w CLX_LINK_CTL.LANE 9 0) CLX_LINK_CTL.LANE == 9 &&
     (s.setFld .CLX_LINK_ERR (clxIx 23) CLX_LINK_ERR.RETIRED 1).fld .CLX_LINK_ERR (clxIx 23) CLX_LINK_ERR.RETIRED == 1 &&
     s.fld .CLX_LINK_ERR (clxIx 23) CLX_LINK_ERR.RETIRED == 0 &&
     (s.setFld .KST_POLICY_OWN [] ⟨4, 4⟩ 1).owned 4 && !s.owned 4) = true := by decide +kernel

/-- A containment reset that has reached an event. -/
def contAt (n : Nat) : State :=
  ((State.reset.setFld .KST_RAS_STAT [] KST_RAS_STAT.CONT_ACTIVE 1).setFld .KST_RAS_STAT [] KST_RAS_STAT.CONT_EVENT n).setFld .KST_HART_STAT [] KST_HART_STAT.RUN 15
theorem test_meets_RetirementAndContainment :
    (let s := State.reset
     let b := { s with ras := { s.ras with buckets := [(31 * 65536 + 65535, ⟨3, 0⟩)] } }
     let run := { contAt 2 with boot := { s.boot with event := 11 } }
     s.up && (mfind s.ras.buckets 0).isNone && (mfind b.ras.buckets (31 * 65536 + 65535)).isSome &&
     fget (fput (fput 0 KST_RETIRE.INC 1) KST_RETIRE.THRESH 1) KST_RETIRE.INC == 1 &&
     fget (fput 0 KST_RETIRE.INC 1) KST_RETIRE.THRESH == 0 && !s.owned 4 &&
     (s.setFld .KST_POLICY_OWN [] ⟨4, 4⟩ 1).owned 4 && coreRetired (s.wr .KST_CORE_RETIRED [] 1) 0 &&
     contEvent s == 0 && [2, 3, 6].all (fun n => contEvent (contAt n) == n && (contAt n).up && contHart (contAt n)) &&
     decide ((contAt 2).boot.event < 11) && contEvent run == 2 && contHart run &&
     s.tiles.isEmpty && s.lat.qs.isEmpty && s.plc.moves.isEmpty && s.q.disps.isEmpty && s.q.rings.isEmpty &&
     s.kst.calls.isEmpty && s.boot.off == 0) = true := by decide +kernel

theorem test_meets_GaugeAndPolicies :
    (let s := State.reset.setFld .KST_HART_STAT [] KST_HART_STAT.RUN 15
     let own (n : Nat) := s.setFld .KST_POLICY_OWN [] ⟨n, n⟩ 1
     let g := 1024 + 63
     let core (n : Nat) := s.setFld .KST_CORE_STAT [63] KST_CORE_STAT.STATE n
     let room (s : State) := (s.setFld .KST_GAUGE_CTL [] KST_GAUGE_CTL.MAX_CORE 1).setFld .KST_GAUGE_CTL [] KST_GAUGE_CTL.MAX_SPAN 1
     let due (s : State) (g : Nat) := { s with ras := { s.ras with due := [g] } }
     let test := { own 3 with ras := { s.ras with underTest := [g], gaugeReq := some g } }
     let tile := due (s.setFld .TILE_STAT (tix 0) TILE_STAT.STATE 1) (physOf s 0)
     s.live && [0, 1, 2, 3, 4].all (fun n => !s.owned n && !s.held n && (own n).owned n && !(own n).held n &&
     hartRuns s (policyHart n)) &&
     gaugeUnit s g && !gaugeUnit s 1088 && gaugeFree (core 0) g && gaugeRoom (room (core 0)) g && !gaugeFree (core 1) g &&
     gaugeRoom (room (core 1)) g && (due (core 1) g).ras.due.contains g &&
     coreState (core 1) 63 == 1 && hartRuns s 2 && logicalOf tile (physOf s 0) == some 0 && !gaugeFree tile (physOf s 0) &&
     tile.tstate 0 == 1 && !(tile.tile 0).aborting && (tile.tile 0).retiring == 0 && (tile.tile 0).excTag.isNone && !tile.castingOff &&
     gaugeRoom s g && kmh1Runs s && !s.owned 3 && (own 3).owned 3 && hartRuns (own 3) 2 &&
     (List.range 16).all (fun i => s.fld .SPAN_VF_CURVE [7, i] SPAN_VF_CURVE.VOLT_MV + s.fld .SPAN_VF_CURVE [7, i] SPAN_VF_CURVE.AGE_MV + 5 ≤ 950 &&
      s.fld .SPAN_VF_CURVE [7, i] SPAN_VF_CURVE.AGE_MV + 5 ≤ 60) &&
     test.ras.underTest.contains g && s.ras.preempted.isEmpty && (own 3).fld .KST_GAUGE_REQ [] KST_GAUGE_REQ.BUSY == 0 &&
     gaugeFree ((own 3).setFld .KST_CORE_STAT [63] KST_CORE_STAT.STATE 0) g) = true := by
  decide +kernel

/-- Cast-on has reached event `n` and Cast-off event `off`. -/
def bootAt (n off : Nat) : State := { State.reset.setFld .KST_HART_STAT [] KST_HART_STAT.RUN 15 with boot := { State.reset.boot with event := n, off := off } }
theorem test_meets_SettingsSlotsAndCastOff :
    (let s := bootAt 11 0
     let c : Commit := ⟨0, [none], []⟩
     let one := { s with boot := { s.boot with run := some c } }
     let two := { s with boot := { s.boot with run := some c, held := some c } }
     let worn := s.setFld .KST_SET_STAT [] KST_SET_STAT.WEAR_PM 950
     let sel := s.setFld .KST_SLOT [1] KST_SLOT.READY 1
     let tr := (s.setFld .KST_BOOT_STAT [] KST_BOOT_STAT.TRIAL 1).setFld .KST_SLOT [s.fld .KST_BOOT_STAT [] KST_BOOT_STAT.SLOT] KST_SLOT.TRIAL 1
     let w := fput 0 KST_BOOT_CTL.CONFIRM_MIN 1
     s.up && s.boot.event == 11 && (bootAt 10 0).boot.event == 10 && decide ((commitTimes s).length < 64) &&
     decide (s.fld .KST_SET_STAT [] KST_SET_STAT.WEAR_PM < 950) &&
     worn.fld .KST_SET_STAT [] KST_SET_STAT.WEAR_PM == 950 &&
     s.boot.run.isNone && s.boot.held.isNone && one.boot.run == some c && one.boot.held.isNone &&
     two.boot.held == some c && hartRuns one 0 && hartRuns two 0 && !hartRuns (s.setFld .KST_HART_STAT [] KST_HART_STAT.RUN 14) 0 && c.who == [none] && slotReady sel 1 &&
     !slotReady (s.setFld .KST_SLOT [1] KST_SLOT.READY 0) 1 && trialOpen tr && !trialOpen s &&
     fget w KST_BOOT_CTL.CONFIRM_MIN == 1 && fget w KST_BOOT_CTL.SELECT == 0 &&
     !tr.bit .KST_RAS_STAT [] KST_RAS_STAT.CONT_ACTIVE &&
     (tr.setFld .KST_RAS_STAT [] KST_RAS_STAT.CONT_ACTIVE 1).bit .KST_RAS_STAT [] KST_RAS_STAT.CONT_ACTIVE &&
     [1, 2, 3].all (fun n => (bootAt 11 n).boot.off == n) && drained (bootAt 11 2)) = true := by decide +kernel

/-- R468: the wear floor, reached by the compaction that brings the most worn block to 95,000 erases. -/
theorem test_journal_wear :
    (let s (r e : Nat) : State := { State.reset with boot := { State.reset.boot with recs := r, erases := e } }
     let u := (s 256 94999).journal
     u.boot.erases == 95000 && u.fld .KST_SET_STAT [] KST_SET_STAT.WEAR_PM == 950 && u.journalOpen &&
     (s 255 94999).journal.boot.erases == 94999 && (u.journal).boot.spare == 0) = true := by decide +kernel

theorem test_meets_CastOn :
    (let s (n : Nat) := bootAt n 0
     let good (n : Nat) := ((s n).setFld .KST_SLOT [0] KST_SLOT.READY 1).setFld .KST_SLOT [0] KST_SLOT.CONFIRMED 1
     let bad := ((s 1).wr .KST_SLOT [0] 0).wr .KST_SLOT [1] 0
     let up := { s 4 with regs := (List.range 13).flatMap (fun d => (List.range 30).filterMap (fun p => match cldPeer .x12 d p with
       | some q => if d * 32 + p ≤ q.1 * 32 + q.2 then some (regAddr (cldRegs d p).2.1 (cldRegs d p).2.2.2, BitVec.ofNat 64 (fput 0 CLD_PORT_ERR.RETIRED 1)) else none
       | none => none)) }
     (List.range 12).all (fun n => castOnGoes (s n) && (s n).boot.event == n) && !castOnGoes (bootAt 1 6) &&
     (slotChoice bad).isNone && (match slotChoice (good 1) with | some k => decide (k < 2) | none => false) &&
     !hbmOff (s 6) && hbmOff ((s 6).setFld .HBM_STK_STAT [11] HBM_STK_STAT.STATE 3) && !cldTrained (s 4) && cldTrained up && (s 5).boot.cold) = true := by decide +kernel

theorem test_meets_Management :
    (let s := bootAt 11 0
     let id (f : Fld) (n : Nat) (s : State) := s.setFld .KST_ID_STAT [] f n
     let ok (n : Nat) := { id KST_ID_STAT.PUF_OK 1 s with boot := { s.boot with spdm := n } }
     let run := s.setFld .KST_BOOT_STAT [] KST_BOOT_STAT.STAGE 8
     let busy := { run with kst := ⟨[], [oneCall 257 1], []⟩ }
     mctpUp s && !mctpUp (s.setFld .KST_HART_STAT [] KST_HART_STAT.RUN 0) && s.up &&
     (ok 0).bit .KST_ID_STAT [] KST_ID_STAT.PUF_OK &&
     !(id KST_ID_STAT.PUF_OK 0 s).bit .KST_ID_STAT [] KST_ID_STAT.PUF_OK &&
     hartRuns s 0 && [0, 1, 2, 3].all (fun n => (ok n).boot.spdm == n && mctpUp (ok n)) &&
     (id KST_ID_STAT.ALIAS_READY 1 (ok 3)).bit .KST_ID_STAT [] KST_ID_STAT.ALIAS_READY &&
     !(id KST_ID_STAT.ALIAS_READY 0 (ok 3)).bit .KST_ID_STAT [] KST_ID_STAT.ALIAS_READY && (mctpCalls 8).contains 1 &&
     (mctpCalls 15).contains 0x1307 && !(mctpCalls 8).contains 0x0306 && (callOf run 257).isNone &&
     (callOf busy 257).isSome) = true := by
  decide +kernel

theorem test_meets_ModulePowerAndReset :
    (let b := State.reset.board
     let s (b : Board) : State := { State.reset with board := b }
     let ref (n : Nat) : State := { State.reset with pwr := { State.reset.pwr with ref := n } }
     powered (s b) && !powered (s { b with pwrGood := false }) && !b.tripped && !b.rstLow && b.pwrEn && b.convOn &&
     !b.lowHold && !b.rstHold && !b.alertInt && !b.alertExt && (s b).up &&
     ({ bootAt 0 0 with board := { b with rstHold := true } } : State).boot.event == 0 &&
     powered { bootAt 0 0 with board := { b with rstHold := true } } &&
     (s { b with convOn := false }).board.pwrEn && hartRuns (bootAt 11 0) 1 && (ref 0).pwr.ref == 0 && (ref 1).up &&
     !(ref 2).up && powered (ref 2)) = true := by decide +kernel

/-! Service calls. -/

/-- A call of each code is next, in the system mailbox and in that of context 255. -/
def callNext (codes : List Nat) : Bool :=
  codes.all (fun k => [255, 256].all (fun m => let s := callAt m k; callOf s m == some (oneCall m k) && callServed s m &&
  callTurn s m))
/-- A call already begun, or one whose hart does not run, is not. -/
def callIdle (k : Nat) : Bool := (callOf State.reset 256).isNone &&
    !callServed (callAt 256 k (State.reset.setFld .KST_PARK [] KST_PARK.PARKED 0) |>.setFld .KST_HART_STAT [] KST_HART_STAT.RUN 7) 256

theorem test_meets_CallsThatRead :
    (callNext [0x0001, 0x0306, 0x0402, 0x0403, 0x0501, 0x0805, 0x0806, 0x0808, 0x0902, 0x0903, 0x0A01, 0x0B04, 0x0C03, 0x0D0A, 0x0E05, 0x0E09, 0x1103, 0x1203, 0x1208, 0x1209,
      0x1306, 0x1309, 0x1401, 0x0F01, 0x0D03, 0x1201] && callIdle 0x0001 &&
     (let s := callAt 255 0x0306
      regThere s .TILE_AMAX (tix 511 ++ [15]) && !regThere s .TILE_AMAX (tix 511 ++ [16]) &&
      regThere s .KST_CORE_STAT [63] && regThere s .KST_HART_STAT [] && regThere s .CTX_POOL [255] &&
      regThere s .PLC_POOL_STAT [] && regThere s .PLC_STAT [] && !coreRetired s 63 &&
      coreRetired (s.wr .KST_CORE_RETIRED [] (2 ^ 63)) 63 &&
      (let b := bankOf (unitKst 0x41); [b.1, b.2.1, b.2.2.1, b.2.2.2.1].all (fun r => regThere s r b.2.2.2.2)) &&
      tileCtx (s.setFld .TILE_STAT (tix 511) TILE_STAT.CTX_ID 255) 511 == 255)) = true := by decide +kernel

/-- A register write a call makes is taken, or refused. -/
def takes (s : State) (r : RegId) (ix : List Nat) (w : Nat) : Bool := regThere s r ix &&
    (refusedBy s (regDo s .fw r ix w noExt)).isSome
theorem test_meets_CallsThatWrite :
    (callNext [0x0301, 0x0302, 0x0303, 0x0305, 0x0C02, 0x0D01, 0x0D04, 0x0F02, 0x0F04, 0x1001, 0x1202, 0x1203, 0x1204, 0x1205, 0x0101, 0x0102, 0x0103, 0x0104, 0x0205, 0x0206,
      0x0207, 0x0401, 0x0502, 0x0503, 0x0504, 0x0802, 0x0803, 0x0804, 0x0807, 0x0901, 0x0A02, 0x0D02, 0x0D09, 0x0E04, 0x0E06, 0x0E07, 0x1002, 0x1003, 0x1004, 0x1101, 0x1206, 0x1207, 0x1302,
      0x0304, 0x0306, 0x0C01, 0x0E08, 0x0F03, 0x1102, 0x0D07] &&
     (let s := (callAt 256 0x0104).setFld .SPAN_PWR_STAT [7] SPAN_PWR_STAT.PD_ON 0xFF
      let parked := (s.setFld .KST_PARK [] KST_PARK.PARKED 1).setFld .KST_PARK [] KST_PARK.EPOCH 7
      let own := (s.setFld .KST_POLICY_OWN [] ⟨16, 16⟩ 1).setFld .KST_POLICY_OWN [] ⟨18, 18⟩ 1
      let en := s.setFld .SPAN_CACHE_CTL [7] SPAN_CACHE_CTL.EN 1
      let cw := fput (fput 0 SPAN_CACHE_CTL.EN 1) SPAN_CACHE_CTL.SKEIN_WAYS 1
      let seed (u : State) (t : Nat) : Option (State × List (BitVec 64)) := (regWrote u .TILE_SR_SEED (tix t) 7).map (fun v => (v, []))
      tilesOf (s.setFld .TILE_STAT (tix 511) TILE_STAT.CTX_ID 255) [511] 255 && tileIdle s 511 && (tilesDone seed [511, 510] s).isSome &&
      (tilesDone (fun _ _ => none) [511] s).isNone && !tileIdle (s.setTstate 511 1) 511 && (s.setTstate 511 7).tstate 511 == 7 &&
      (regWrote s .FMT_DESC (tix 511 ++ [14]) (s.rd .FMT_DESC (tix 511 ++ [14]))).isSome &&
      (regWrote s .FMT_DESC (tix 511 ++ [15]) (s.rd .FMT_DESC (tix 511 ++ [15]))).isSome && (regWrote s .KST_RETIRE [18] 0).isNone &&
      (let v := (regWrote s .CLX_RT [32767] 0); v.isSome && (match v with | some u => (regWrote u .CLX_STAY_CFG [] 16).isSome && (regWrote u .CLX_STAY_CFG [] 0).isNone | none => false)) &&
      takes s .CTX_MODE [255] 0 && takes s .FMT_DESC (tix 511 ++ [14]) (s.rd .FMT_DESC (tix 511 ++ [14])) &&
      !takes s .FMT_DESC (tix 511 ++ [16]) 0 &&
      !takes (s.setFld .TILE_STAT (tix 511) TILE_STAT.STATE 1) .FMT_DESC (tix 511 ++ [14]) 0 &&
      takes s .TILE_FMT_FLAGS (tix 511) 0 && takes s .TILE_AMAX (tix 511 ++ [15]) 0 &&
      takes s .KST_RETIRE [17] (s.rd .KST_RETIRE [17]) && !takes s .KST_RETIRE [18] 0 && takes s .KST_PWR_MODE [] 2 &&
      !takes s .KST_PWR_MODE [] 3 && takes s .CLX_RT [32767] 0 && takes s .CLX_STAY_CFG [] 16 &&
      takes s .KST_QS_EXCL [7] (2 ^ 63) && takes s .TR_WIN [7] 2 && takes s .TR_SYNC [7] 0 &&
      (refusedBy en (cacheCtlWrite en 7 cw)).isSome &&
      (refusedBy s (cacheCtlWrite s 7 (fput cw SPAN_CACHE_CTL.SKEIN_WAYS 12))).isNone &&
      parked.bit .KST_PARK [] KST_PARK.PARKED && parked.fld .KST_PARK [] KST_PARK.EPOCH == 7 &&
      !s.bit .KST_PARK [] KST_PARK.PARKED && !s.held 0 && own.held 0 && own.held 2 && !s.held 2 &&
      offsOk s 64 8 0xFF && offsOk s 56 8 0 &&
      !offsOk (s.setFld .TILE_STAT (tix 511) TILE_STAT.STATE 1) 56 8 0xFF)) = true := by decide +kernel

/-- A Placement Table and object table in the raw window: object 1 holds page 0, which has an entry. -/
def objs (e : BitVec 64) : State :=
  let s := (ptAt e).setFld .PLC_OBJ_BASE [] PLC_PT_BASE.BASE 0x100004
  setObjWord (setObjWord s 1 1 0x20000800000) 1 0 (objWord0 0 1 0 1 255)
theorem test_meets_CallsOnMemory :
    (let near : BitVec 64 := entPut (entPut 0 0 0 1) 15 8 255
     let s := objs near
     let z := objs 0
     let mv := objs (entPut near 17 17 1)
     let far := objs (entPut near 16 16 1)
     let er := { s with mem := { s.mem with er := [(0, 2)] } }
     let run (o : Option (Nat × State)) : Bool := match o with | some (_, u) => (takeObj u).isSome | none => false
     let none_ := setObjWord s 1 0 (objWord0 0 0 0 1 255)
     let cp (q : Rq) (d p : BitVec 64) (bad : Nat) : Bool := match copyRead s q p 8 noExt with
       | .got u bs st => st == 0 &&
           (match copyWrite u q d bs st noExt with | some (_, st) => st == bad | none => false) | _ => false
     let peer := peered s
     let w := winWord 0 4 0 0
     let id := fput (fput 0 KST_COLL_ID.VALID 1) KST_COLL_ID.CTX_ID 255
     callNext [0x0201, 0x0202, 0x0203, 0x0204, 0x0D05, 0x0D06, 0x0208, 0x0105, 0x0701, 0x0801] && !s.held 1 &&
     (s.setFld .KST_POLICY_OWN [] ⟨17, 17⟩ 1).held 1 && run (takeRun s 1) &&
     (takeRun s 1048576).isNone && pinnedOf s 255 == 0 &&
     (match placeAll s (newEntry s 255 0 0) 2 [1] with | .no => true | _ => false) &&
     (match placeAll ((List.range 32).foldl (fun s k => s.setFld .HBM_REGION [k] HBM_REGION.STATE 1) s) (newEntry s 255 0 0) 0 [1] with | .wait => true | _ => false) &&
     objCtx s 1 == 255 && objValid s 1 && !objValid s 2 && ptPages s == [0] && objPage s 1 == 0 && objPages s 1 == 1 &&
     !peMoving (ptEntry s 0) && peMoving (ptEntry mv 0) && peLoc (ptEntry far 0) &&
     peCtx (ptEntry s 0) == 255 && peValid (ptEntry s 0) && !peValid (ptEntry z 0) && (frameErr s 0).isNone &&
     (frameErr (recallPage er false 0) 0).isSome &&
     reserveSum s == 0 && poolCount s != 0 && objValid none_ 1 &&
     (match repairAll none_ 1 0x20000800000 noExt (List.range (objPages none_ 1)) with | some (u, st) => st == 0 && !contStarted u | none => false) &&
     (objWord s 1 1).toNat != 0 &&
     cp (.core 0) winPtr rawPtr 0 && cp (.eng 255 unitSvc) rawPtr winPtr 0 && cp (.core 0) (2 ^ 60) rawPtr 0x0E &&
     (match copyRead s (.core 0) (2 ^ 60) 8 noExt with | .got _ _ st => st == 0x0E | _ => false) &&
     (match copyRead { s with mem := { s.mem with txns := [(0, Txn.new .rdu 8 noLine 0)] } } (.core 0) rawPtr 8 noExt with | .wait => true | _ => false) &&
     (copyWrite { s with mem := { s.mem with txns := [(0, Txn.new .rdu 8 noLine 0)] } } (.core 0) rawPtr [some (1, true)] 0 noExt).isNone &&
     (match copyRead { s with mem := { s.mem with pz := [0] } } (.core 0) rawPtr 8 noExt with | .got _ bs _ => bs.any (fun b => match b with | some (_, z) => z | none => false) | _ => false) &&
     (staySend peer 2 6 0xF4 []).isNone &&
     (staySend ((peer.setFld .CLX_RT [5] CLX_RT.VALID 1).setFld .CLX_RT [5] CLX_RT.NEXT_EN 1) 2 5 0xF4 []).isSome &&
     !collValid s 63 &&
     (match freeBase s 0 1024 1024 with | some (_, u) => (freeBase u 8 4096 4096).isSome | none => false) &&
     (freeBase s 0 1025 1024).isNone &&
     (match refusedBy s (collIdWrite (s.wr .KST_COLL_WIN [63] w) 63 id noExt) with | some u => collValid u 63 | none => false) &&
     fget id KST_COLL_ID.CTX_ID == 255) = true := by decide +kernel

theorem test_meets_CallsOnUnits :
    (let s := State.reset
     let en := s.setFld .SPAN_CACHE_CTL [7] SPAN_CACHE_CTL.EN 1
     let busy (s : State) := s.setFld .SPAN_CMAINT_STAT [7] SPAN_CMAINT_STAT.BUSY 1
     let tr := trAt trOne
     let z : Ring := ⟨1, 1, 0, 0, [], 0, [], none⟩
     let rb := (hbmUp s).setFld .RING_CTL [4095] RING_CTL.EN 0
     let word (a : Nat) : Nat := fput (fput 0 RING_BASE.ADDR a) RING_BASE.LOG2_SIZE 4
     let wr (v : State) (g : RegId) (w : Nat) : Option State := if regThere v g [4095] then refusedBy v (regDo v .fw g [4095] w ⟨[], [], 0⟩) else none
     let made := (wr rb .RING_BASE (word 0x800000000)).bind (fun u => (wr u .RING_CPL (fput 0 RING_CPL.ADDR 0x4000001000)).bind (fun v => wr v .RING_CTL (fput 0 RING_CTL.EN 1)))
     let up := ringAt z
     let wri := s.setFld .KST_SLOT [1] KST_SLOT.WRITING 1
     let tro := { bootAt 11 0 with regs := ((s.setFld .KST_BOOT_STAT [] KST_BOOT_STAT.TRIAL 1).setFld .KST_SLOT [s.fld .KST_BOOT_STAT [] KST_BOOT_STAT.SLOT] KST_SLOT.TRIAL 1).regs }
     callNext [0x0B01, 0x0B02, 0x0B03, 0x0D08, 0x0E01, 0x0E02, 0x0E03, 0x1301, 0x1303, 0x1304, 0x1305, 0x1307, 0x1308] &&
     (cmaintOnce en 7 (allWays 3) 0 0 0).isSome && (cmaintOnce (busy en) 7 (allWays 3) 0 0 0).isNone &&
     (cmaintOnce s 7 (allWays 2) 0 0 0).isSome && en.bit .SPAN_CACHE_CTL [7] SPAN_CACHE_CTL.EN &&
     !s.bit .SPAN_CACHE_CTL [7] SPAN_CACHE_CTL.EN && (List.range 64).all (fun k => tileIdle en (448 + k)) &&
     !tileIdle (en.setFld .TILE_STAT (tix 511) TILE_STAT.STATE 1) 511 && !tr.held 2 && tr.bit .TR_CTL [7] TR_CTL.EN &&
     decide ((tr.trs 7).posted - (tr.trs 7).started + 1 < trSize tr 7) &&
     (refusedBy tr (trBaseWrite tr 7 (word 0x800000000))).isNone && made.isSome && !rb.bit .RING_CTL [4095] RING_CTL.EN &&
     up.bit .RING_CTL [4095] RING_CTL.EN && !ringRuns up 4095 &&
     (refusedBy up (regDo up .fw .RING_CTL [4095] 0 ⟨[], [], 0⟩)).isSome &&
     (s.fld .KST_BOOT_STAT [] KST_BOOT_STAT.SLOT != 1) && wri.bit .KST_SLOT [1] KST_SLOT.WRITING &&
     !s.bit .KST_SLOT [1] KST_SLOT.WRITING &&
     !setFits wri [] && slotReady (s.setFld .KST_SLOT [1] KST_SLOT.READY 1) 1 && !slotReady wri 1 && trialOpen tro &&
     tro.boot.event == 11 && !trialOpen s) = true := by decide +kernel

/-! Whole-machine rules. -/

theorem test_meets_TileSetupRegisters :
    ([RegId.TILE_ENTRY, .TILE_ARG, .TILE_SAVE_BASE, .TILE_IMEM_SRC, .TILE_IMEM_LOAD].all (fun r => regIs (regSel State.reset.asm (regAddr r (tix 511))) r (tix 511) &&
    regAddr r (tix 511) % 8 == 0) &&
     [0, 4, 7].all (fun n => let s := tAt n Tile.zero; s.live && s.tstate 511 == n && tilePowered s 511 &&
     !s.bit .TILE_STAT (tix 511) TILE_STAT.RESETTING && !s.bit .TILE_IMEM_LOAD (tix 511) TILE_IMEM_LOAD.BUSY) &&
     [1, 2, 3, 5, 6].all (fun n => (tAt n Tile.zero).tstate 511 == n) &&
     fget 0 TILE_IMEM_LOAD.GO == 0) = true := by decide +kernel

/-- A scatter of a tile with bytes in memory; its step answers a next state. -/
theorem test_meets_TileMemoryStaysCanonical :
    (let x := { tx with mem := [(0, 1), (5, 2)] }
     let s := headOf .vector (encV 0x56 (insV 1 0 0 0)) 0 x
     Memory.wf (s.tile 0).mem && Memory.wf (s.tile 511).mem && !Memory.wf [(5, 2), (0, 1)] && !Memory.wf [(0, 0)] &&
     ready .vector (encV 0x56 (insV 1 0 0 0)) 0 x) = true := by decide +kernel

/-- One legal word of each layout (R152). -/
theorem test_meets_InstructionWords :
    (insnLegal (encS 0x16 ⟨0, 0, 0, 1, 0, 0, 0x20⟩) 0 && insnLegal (encLi ⟨0, 0, 2, 0, 0, 0, 0⟩) 7 &&
    insnLegal (encV 0x40 ⟨0, 0, 3, 1, 2, 0, 1, 0, 0, 0, 0, 0, 0⟩) 0 && insnLegal (encMma insMma).1 (encMma insMma).2 &&
     insnLegal (encDrain insDrain).1 (encDrain insDrain).2 && insnLegal (encAroll 15) 0 &&
     insnLegal (encMov ⟨0, 1, 2, 3, 0, 1, 4, 1, 7, 128, 256⟩).1 (encMov ⟨0, 1, 2, 3, 0, 1, 4, 1, 7, 128, 256⟩).2 &&
     insnLegal (encFence ⟨0, 4, 2, 1, 0x00F0⟩) 0 && insnLegal (encRsv 0xC2 ⟨0, 2, 1, 3, 0, 0, 16⟩) 0 &&
     insnLegal (encRsv 0xC3 ⟨0, 2, 1, 3, 0, 3, 16⟩) 0 && insnLegal (encEcut 0 3) 0 &&
     insnLegal (encStay 0xD5 ⟨0, 3, 1, 2, 1, 0⟩) 0) = true := by decide +kernel

end Sys2Proof.Tests
end

section
/-!
PROOFS. The registers of a tile: p0 and the plain ones (R129), and the registers that set a tile up (R149).
-/

namespace Sys2Proof.Machine

/-! Registers of the tile's own files. -/

@[simp] theorem Tile.p_zero (x : Tile) : x.p 0 = BitVec.allOnes 512 := if_pos rfl

@[simp] theorem Tile.setP_zero (x : Tile) (v : BitVec 512) : x.setP 0 v = x := if_pos rfl

theorem Tile.p_setP_of_ne_zero (x : Tile) {n : Nat} (v : BitVec 512) (k : Nat) (hn : n ≠ 0) :
    (x.setP n v).p k = if k = n then v else x.p k := by
  rw [Tile.p_setP]
  simp only [hn, ne_eq, not_false_eq_true, and_true]

/-- Settles O56: p0 by the guards of `Tile.p` and `Tile.setP`, the others as sparse maps. -/
theorem predicateZero : Obligations.PredicateZero := fun x =>
  ⟨x.p_zero, x.setP_zero, fun _ v k hn => x.p_setP_of_ne_zero v k hn, x.s_setS, x.v_setV⟩

/-! Writes of a tile's block of the register region. -/

/-- The setup registers whose write has no effect beside the fields it sets. -/
def plainSetupRegs : List RegId := [.TILE_ENTRY, .TILE_ARG, .TILE_SAVE_BASE, .TILE_IMEM_SRC]

/-- The registers that R149 lets software write only while the tile rests. -/
def tileSetupRegs : List RegId := plainSetupRegs ++ [.TILE_IMEM_LOAD]

theorem tileReg_of_setup {r : RegId} (hr : r ∈ tileSetupRegs) : tileReg r = true :=
  (by decide : ∀ r ∈ tileSetupRegs, tileReg r = true) r hr

/-- The two pieces of a tile's register index give the tile back. -/
theorem tix_number (t : Nat) : (tix t).getD 0 0 * 64 + (tix t).getD 1 0 = t := Nat.div_add_mod' t 64

theorem regDo_tileReg (s : State) (q : Rq) {r : RegId} (t eff : Nat) (ext : Ext) (h : tileReg r = true) :
    regDo s q r (tix t) eff ext = tileRegWrite s t r (tix t) eff :=
  (if_pos h).trans (by rw [tix_number])

theorem exec_registerWrite (s : State) (who id a n : Nat) (d : BitVec 64) (ext : Ext) :
    exec (.registerWrite who id a n d ext) s = execRegisterWrite who id a n d ext s := rfl

/-- An aligned write of 8 bytes to a decoded register, in a live module, is the register's operation on all its bits (R9). -/
theorem exec_registerWrite_dword {s : State} (who id a : Nat) (d : BitVec 64) (ext : Ext) {r : RegId} {ix : List Nat}
    (hlive : s.live = true) (ha : a % 8 = 0) (hsel : regSel s.asm a = .reg r ix) :
    exec (.registerWrite who id a 8 d ext) s =
      .next (regDo s (whoRq who id) r ix (effWrite (regInfo r).flds (s.rd r ix) d.toNat 0 63) ext) := by
  have hwrite : regWrite s (whoRq who id) a 8 d.toNat ext =
      some (regDo s (whoRq who id) r ix (effWrite (regInfo r).flds (s.rd r ix) d.toNat 0 63) ext) := by
    simp [regWrite, hsel, ha]
  simp only [exec_registerWrite, execRegisterWrite, whenLive, hwrite, hlive, if_true]

/-- A tile whose group is off or whose reset runs discards a write of a setup register; any other takes one only at rest. -/
theorem tileRegWrite_plainSetup (s : State) (t eff : Nat) (ix : List Nat) {r : RegId}
    (hr : r ∈ plainSetupRegs) :
    tileRegWrite s t r ix eff =
      if !tilePowered s t || s.bit .TILE_STAT (tix t) TILE_STAT.RESETTING then discardReg s r ix
      else if s.tstate t == 0 || s.tstate t == 4 || s.tstate t == 7 then s.plain r ix eff else discardReg s r ix := by
  have hctl : r ≠ .TILE_CTL := (by decide : ∀ r ∈ plainSetupRegs, r ≠ .TILE_CTL) r hr
  refine (if_neg hctl).trans ?_
  simp only [plainSetupRegs, List.mem_cons, List.not_mem_nil, or_false] at hr
  rcases hr with rfl | rfl | rfl | rfl <;> rfl

theorem tileRegWrite_imemLoad (s : State) (t eff : Nat) (ix : List Nat) :
    tileRegWrite s t .TILE_IMEM_LOAD ix eff =
      if !tilePowered s t || s.bit .TILE_STAT (tix t) TILE_STAT.RESETTING then discardReg s .TILE_IMEM_LOAD ix
      else imemLoadWrite s t eff := by
  have hctl : RegId.TILE_IMEM_LOAD ≠ .TILE_CTL := by decide
  unfold tileRegWrite
  exact if_neg hctl

/-- R149: outside IDLE, SAVED and LOST a write of TILE_IMEM_LOAD is discarded. -/
theorem imemLoadWrite_discarded {s : State} {t : Nat} (eff : Nat) (hst : s.tstate t ∉ [0, 4, 7]) :
    imemLoadWrite s t eff = discardReg s .TILE_IMEM_LOAD (tix t) := by
  simp only [List.mem_cons, List.not_mem_nil, or_false, not_or] at hst
  exact if_pos (.inl hst)

/-- R149: a write of TILE_IMEM_LOAD without GO, on a powered tile at rest that no reset or load holds, is a plain one. -/
theorem imemLoadWrite_plain {s : State} {t eff : Nat} (hst : s.tstate t ∈ [0, 4, 7]) (hpow : tilePowered s t = true)
    (hres : s.bit .TILE_STAT (tix t) TILE_STAT.RESETTING = false)
    (hbusy : s.bit .TILE_IMEM_LOAD (tix t) TILE_IMEM_LOAD.BUSY = false) (hgo : fget eff TILE_IMEM_LOAD.GO = 0) :
    imemLoadWrite s t eff = s.plain .TILE_IMEM_LOAD (tix t) eff := by
  simp only [List.mem_cons, List.not_mem_nil, or_false] at hst
  have hrest : ¬ (s.tstate t ≠ 0 ∧ s.tstate t ≠ 4 ∧ s.tstate t ≠ 7) := by omega
  simp [imemLoadWrite, hpow, hres, hbusy, hgo, hrest]

theorem plainSetup_or_imemLoad {r : RegId} (hr : r ∈ tileSetupRegs) :
    r ∈ plainSetupRegs ∨ r = .TILE_IMEM_LOAD :=
  (List.mem_append.mp hr).imp_right List.mem_singleton.mp

/-- R149: outside IDLE, SAVED and LOST a write of a setup register is discarded, whether or not the tile is powered. -/
theorem tileRegWrite_setup_discarded {s : State} {t : Nat} {r : RegId} (eff : Nat) (hr : r ∈ tileSetupRegs)
    (hst : s.tstate t ∉ [0, 4, 7]) : tileRegWrite s t r (tix t) eff = discardReg s r (tix t) := by
  rcases plainSetup_or_imemLoad hr with hplain | rfl
  · simp only [List.mem_cons, List.not_mem_nil, or_false, not_or] at hst
    simp [tileRegWrite_plainSetup s t eff _ hplain, hst]
  · rw [tileRegWrite_imemLoad, imemLoadWrite_discarded eff hst, ite_self]

/-- R149: in IDLE, SAVED or LOST a powered tile that no reset or load holds takes a write of a setup register. -/
theorem tileRegWrite_setup_plain {s : State} {t : Nat} {r : RegId} {eff : Nat} (hr : r ∈ tileSetupRegs)
    (hst : s.tstate t ∈ [0, 4, 7]) (hpow : tilePowered s t = true)
    (hres : s.bit .TILE_STAT (tix t) TILE_STAT.RESETTING = false)
    (hbusy : s.bit .TILE_IMEM_LOAD (tix t) TILE_IMEM_LOAD.BUSY = false)
    (hgo : r = .TILE_IMEM_LOAD → fget eff TILE_IMEM_LOAD.GO = 0) :
    tileRegWrite s t r (tix t) eff = s.plain r (tix t) eff := by
  rcases plainSetup_or_imemLoad hr with hplain | rfl
  · simp only [List.mem_cons, List.not_mem_nil, or_false] at hst
    simp [tileRegWrite_plainSetup s t eff _ hplain, hpow, hres, or_assoc, hst]
  · simp [tileRegWrite_imemLoad, imemLoadWrite_plain hst hpow hres hbusy (hgo rfl), hpow, hres]

/-- Settles O57: the write reaches `tileRegWrite`, which the tile's state divides. -/
theorem tileSetupRegisters : Obligations.TileSetupRegisters := by
  intro s t who id a d ext hlive _ ha r hr hsel
  have hrun (eff : Nat) : regDo s (whoRq who id) r (tix t) eff ext = tileRegWrite s t r (tix t) eff :=
    regDo_tileReg s _ t eff ext (tileReg_of_setup hr)
  rw [exec_registerWrite_dword who id a d ext hlive ha hsel, hrun]
  exact ⟨fun hst => congrArg _ (tileRegWrite_setup_discarded _ hr hst),
    fun hst hpow hres hbusy hgo => congrArg _ (tileRegWrite_setup_plain hr hst hpow hres hbusy hgo)⟩

end Sys2Proof.Machine
end
